-- ==== Sys2Proof/Word.lean ====
section
/-! DEFINITION. The word types of the Velnar VX9 and their plainest arithmetic (spec 00 R3, R4). -/

namespace Sys2Proof

/-- A byte of any memory. -/
abbrev Byte := BitVec 8

/-- An x register, an address, a control word. -/
abbrev Word := BitVec 64

/-- A v register: 256 bytes (R11). -/
abbrev Vec := BitVec 2048

/-- A predicate: one bit per byte lane (R16). -/
abbrev Pred := BitVec 256

/-- Field [hi:lo] of a word, both ends included (R3). -/
abbrev bits {n : Nat} (w : BitVec n) (hi lo : Nat) : BitVec (hi - lo + 1) := w.extractLsb hi lo

/-- Field [hi:lo] as a number. -/
def field {n : Nat} (w : BitVec n) (hi lo : Nat) : Nat := (w.toNat / 2 ^ lo) % 2 ^ (hi - lo + 1)

/-- A number placed at bit lo of a word (field maps are written from high to low, R3). -/
def place (lo v : Nat) : Word := BitVec.ofNat 64 (v * 2 ^ lo)

/-- A Bool as a bit's number. -/
def bit (b : Bool) : Nat := if b then 1 else 0

/-- Little-endian bytes of a number, lowest address first (R4). -/
def leBytes : Nat → Nat → List Byte
  | 0, _ => []
  | n + 1, v => BitVec.ofNat 8 v :: leBytes n (v / 256)

/-- The number that little-endian bytes hold (R4). -/
def fromLe : List Byte → Nat
  | [] => 0
  | b :: bs => b.toNat + 256 * fromLe bs

end Sys2Proof
end

