-- ==== Sys2Proof/Machine/Flags.lean ====
section
/-! DEFINITION. The cause bits of the sticky records (spec 01 R27) and the flag computations every engine shares. -/

namespace Sys2Proof.Machine

/-- Cause bits [15:0] of a sticky record (R27). -/
abbrev Flags := BitVec 16

namespace Flags
def none : Flags := 0
/-- bit 0 -/
def invalid : Flags := 0x0001
/-- bit 1 -/
def divZero : Flags := 0x0002
/-- bit 2 -/
def overflow : Flags := 0x0004
/-- bit 3 -/
def underflow : Flags := 0x0008
/-- bit 4 -/
def inexact : Flags := 0x0010
/-- bit 5 -/
def saturation : Flags := 0x0020
/-- bit 6 -/
def reservedData : Flags := 0x0040
/-- bit 7 -/
def clip : Flags := 0x0080
/-- bit 8 -/
def outlierOverflow : Flags := 0x0100
end Flags

/-- A flag when its condition holds. -/
def flagIf (c : Bool) (f : Flags) : Flags := if c then f else 0

/-- Clamp an exact integer, raising integer saturation when the bound is delivered instead (R37). -/
def clampInt (lo hi e : Int) : Int × Flags :=
  if e < lo then (lo, Flags.saturation) else if hi < e then (hi, Flags.saturation) else (e, 0)

/-- The two's complement pattern of w bits. -/
def wrapInt (w : Nat) (e : Int) : Nat := (e % (2 ^ w : Nat)).toNat

/-- A w-bit pattern read as signed. -/
def signedOf (w : Nat) (p : Nat) : Int := if p < 2 ^ (w - 1) then (p : Int) else (p : Int) - (2 ^ w : Nat)

/-- ORed flags of a list. -/
def orFlags (l : List Flags) : Flags := l.foldl (· ||| ·) 0

/-- R88: a movx.fsi or movx.fui raises integer saturation for a NaN, an infinity or a rounded value out of range. -/
def fixFlags (nan clamped : Bool) : Flags := flagIf (nan || clamped) Flags.saturation

end Sys2Proof.Machine
end

