-- ==== Sys2Proof/Config.lean ====
section
/-! DEFINITION. What an implementation of the part fixes, and the free values: opaque constants with no body, so that no
proof can see what they are. Each is named in a log entry of notes/assumptions. -/

namespace Sys2Proof.Config

/-! ### Figures of the part with nothing retired (R2, R226, R256) -/

/-- Macros of a core (R2). -/
def macrosPerCore : Nat := 8
/-- A wait of a queue operation, SEND, RECV, JOB or TASK ends at this many cycles (R121, R249, R250, R204, R268). -/
def waitLimit : Nat := 1048576
/-- The limit of an RVWT in cycles (R246). -/
def rendezvousLimit : Nat := 16777216
/-- Entries of a die's dependency table (R268). -/
def tableEntries : Nat := 4096
/-- The lease length (R327). -/
def lease : Nat := 1024
/-- Cycles after which a cluster cache drops a copy (R328). -/
def copyLife : Nat := 65536
/-- digital_macro_cap at nominal supply (R165). -/
def nominalCap : Nat := 5
/-- Aging interval at bring-up: 2 ms in ns (R278). -/
def agingNs : Nat := 2000000
/-- A network request without response for this many cycles is resent (R348). -/
def networkTimeout : Nat := 65536
/-- A fabric request without response for this many cycles is resent (R411). -/
def fabricTimeout : Nat := 1048576
/-- Records kept by Sirxon beside the health ring (R403). -/
def healthBacklog : Nat := 4096

/-! ### Free values -/

/-- Nanoseconds that pass over a free-running step, by the free counter (log entry 2). -/
opaque elapsedNs : Nat → Nat
/-- Cycles that pass over a free-running step, by the free counter (log entry 2). -/
opaque elapsedCycles : Nat → Nat
/-- The raw converter code of a column: core, macro, column, draw (R168, log entry 3). -/
opaque converterCode : Nat → Nat → Nat → Nat → Nat
/-- The calibration offset Sirxon writes: calibration, core, macro, column (R168, R176, log entry 4). -/
opaque calibrationOffset : Nat → Nat → Nat → Nat → BitVec 8
/-- Is a suspect byte of a failed copy the copied value? By draw and byte index (R199, log entry 5). -/
opaque suspectCopied : Nat → Nat → Bool
/-- A suspect byte of DST of a failed collective: by draw and place (R415, log entry 5). -/
opaque suspectByte : Nat → Nat → Byte
/-- The verification of a Sirxon image against the fused key: its bytes (R395, log entry 6). -/
opaque signatureValid : List Byte → Bool
/-- Is the image's version at least the fused minimum (R395, log entry 6)? -/
opaque versionAccepted : List Byte → Bool
/-- The family revision hash (R256, R297, log entry 6). -/
opaque familyHash : BitVec 64
/-- The part's serial number (R397, log entry 6). -/
opaque serialNumber : BitVec 64
/-- Can the device key be read? By draw (R397, log entry 6). -/
opaque deviceKeyReadable : Nat → Bool
/-- What stands before each of the contents of an attest report, whose layout the spec does not give (R397, log entry 6). -/
opaque attestGap : Nat → List Byte
/-- The 512-byte RSA-4096 signature over a report's digest (R397, log entry 6). -/
opaque deviceSignature : List Byte → Vector Byte 512
/-- KiB the lossless format needs for a page: 16, 32 or 48, or more when it is not reducible (R355, log entry 7). -/
opaque compressedKiB : List Byte → Nat
/-- The set of a line in a cluster cache, of 1,024 (R252, log entry 8). -/
opaque clusterSet : Nat → Fin 1024
/-- The set of a superblock in a last-level cache slice, of 8,192 (R332, log entry 8). -/
opaque sliceSet : Nat → Fin 8192
/-- Which entry of a full TLB makes room for a leaf, by draw (R351, log entry 10). -/
opaque tlbVictim : Nat → Nat
/-- May a read at core scope miss the writes of other cores that the cluster cache still holds in its queue, where it has
a copy of the line? By draw (R326, R335, log entry 20). -/
opaque queueHidden : Nat → Bool
/-- A byte of a queued write that an uncorrectable error struck: by draw and place (R252, log entry 67). -/
opaque spoiltByte : Nat → Nat → Byte
/-- Did a failed router hold a flit whose route leads through it? By draw and flit (R348, log entry 9). -/
opaque heldInRouter : Nat → Nat → Bool
/-- The seed Sirxon gives a macro's gleaner offset: core and macro (R175, log entry 4). -/
opaque gleanerSeed : Nat → Nat → Nat
/-- Die and number of the free host-visible choice of Sirxon's own replacement request (R401 bit 6, log entry 6). -/
opaque sirxonAsksReplacement : Nat → Bool

/-- Does the lowering of a block exceed the thresher's resources, so that it is lowered literally? By draw (R310, log entry 66). -/
opaque loweredLiterally : Nat → Bool
/-- Crib fallbacks of a die above which REASON bit 7 is set (R401, log entry 6). -/
opaque fallbackThreshold : Nat
/-- Which of several clusters that can take a team the scheduler takes, by draw (R280, log entry 13). -/
opaque clusterChoice : Nat → Nat
/-- SERIAL and DONE of a host command's result, by draw (R392, log entry 14). -/
opaque commandSerial : Nat → Word
/-- VALUE of a gleaner record from column, d, ρ and |S − exact|, whose layout the spec does not give (R175, R402, log entry 15). -/
opaque gleanerValue : Nat → Nat → Nat → Nat → BitVec 64
/-- LOC of a health record of a KIND for which the spec states none, by draw (R402, log entry 15). -/
opaque healthLoc : Nat → Nat → BitVec 56
/-- VALUE of a health record of a KIND for which the spec states none, by draw (R402, log entry 15). -/
opaque healthValue : Nat → Nat → BitVec 64

end Sys2Proof.Config
end

