-- ==== Sys2Proof/Syntax.lean ====
section
/-! DEFINITION. The syntax of the part: the slot word's fields (spec 03 R52, R60) and the ONE inductive of its steps, one
constructor per row of spec/opcode_table.json: the 143 slots, and the 100 autonomous events (95: "the part's steps, each
whole and indivisible"), whose arguments name who moves and carry what the spec leaves to the device, Sirxon or the host. -/

namespace Sys2Proof

/-- The fields of an engine slot below its opcode (R52). -/
structure Slot where
  /-- S: this slot ends its bundle. -/
  stop : Bool
  /-- N: suppress register write-back. -/
  n : Bool
  /-- H: hold operand A. -/
  h : Bool
  d : BitVec 5
  a : BitVec 6
  b : BitVec 6
  f : BitVec 5
deriving DecidableEq, Repr

/-- A sequencer: global core number (R1) and group (R11). -/
structure SeqId where
  core : Fin 512
  group : Fin 2
deriving DecidableEq, Repr

/-- A pseudo-channel: tower 0 to 7 and channel 0 to 31 (R1, R340). -/
structure PcId where
  tower : Fin 8
  channel : Fin 32
deriving DecidableEq, Repr

/-- A DRAM row (R341). -/
structure RowId where
  pc : PcId
  bank : Fin 16
  row : Fin 65536
deriving DecidableEq, Repr

/-- What the code of a line finds when it is read (R359). -/
inductive LineCheck where
  | clean
  | corrected
  | uncorrectable
deriving DecidableEq, Repr

/-- How the thresher lowers a block (R308, R310), or that the sealed words are unreadable (R315). -/
inductive Lowering where
  | overlapped
  | literal
  /-- the words of the bundle that stands so many bundles on in the block cannot be read -/
  | codeUnreadable (bundles : Nat)
  /-- the literal word that stands so many words on from LPC cannot be read -/
  | literalUnreadable (words : Nat)
deriving DecidableEq, Repr

/-- One entry of an on-package routing table (R346). -/
structure RouteEntry where
  v : Bool
  esc : Bool
  port : Fin 12
deriving DecidableEq, Repr

/-- What Sirxon decides for one die at bring-up (R301, R349, R353, R357): where its page table's root lies, the frames and
table space of its pools, and its trap service image. -/
structure DiePlan where
  /-- PA of the root table, a multiple of 16 KiB. -/
  root : Nat
  /-- free 64 KiB frames: first frame number and count. -/
  frames : List (Nat × Nat)
  /-- PAs of free 4 KiB blocks of table space. -/
  tables : List Nat
  /-- the code body and literal stream of the trap service image; no slots: none is loaded. -/
  service : List (BitVec 32)
  serviceLiterals : List (BitVec 32)
deriving DecidableEq, Repr

/-- What Sirxon finds and decides at bring-up (R395): retirement maps, the digital cap, the package number, the
routes, the aging intervals and thresholds. -/
structure BringUp where
  package : BitVec 12
  retiredCores : List (Fin 512)
  retiredMacros : List (Fin 512 × Fin 8)
  retiredBins : List (Fin 128 × Fin 64)
  dies : List DiePlan
  /-- fabric table entries by package, each with the fabric hops of its route (R409). -/
  fabric : List (Nat × BitVec 16 × Nat)
  gleanerThreshold : Nat
  /-- lanes that fail when the links are trained (R395, R407). -/
  failedLanes : List (Fin 18 × Fin 9)
  /-- rows and routers that the memory test retires (R348, R361, R395). -/
  retiredRows : List RowId
  retiredRouters : List (Fin 128)
  /-- corrected errors of a row at which it is spared, 0 for none (R361). -/
  rowThreshold : Nat
deriving DecidableEq, Repr

/-- The steps of the part, one constructor per row of spec/opcode_table.json. -/
inductive Instr where
  /-- NOP (R61). Empty prefix slot that does nothing; alone with S = 1 it forms an empty bundle that only advances VPC. -/
  | nop (stop : Bool)
  /-- LIT (R62). Attaches a 24-bit literal to the engine slot that directly follows it. -/
  | lit (literal : BitVec 24)
  /-- GUARD (R63). Makes the engine slots that MASK selects conditional on bit 0 of a predicate and a polarity. -/
  | guard (pred : BitVec 7) (mask : BitVec 8) (pol : Bool)
  /-- SCOPE (R65). Gives one ordering scope to every memory access of its bundle. -/
  | scope (code : BitVec 5)
  /-- ADD (R82). Adds B, shifted left by F[1:0], to A at the width and saturation that F selects. -/
  | add (w : Slot)
  /-- SUB (R82). Subtracts A − B, or B − A for sub.rev, at the selected width. -/
  | sub (w : Slot)
  /-- AND (R82). Bitwise AND of A with B, or with NOT B for and.n. -/
  | and (w : Slot)
  /-- OR (R82). Bitwise OR of A with B, or with NOT B for or.n. -/
  | or (w : Slot)
  /-- XOR (R82). Bitwise XOR of A with B, or with NOT B for xor.n. -/
  | xor (w : Slot)
  /-- SHF (R82). Shifts or rotates A by B mod the width. -/
  | shf (w : Slot)
  /-- MUL (R82). Delivers the low product or the signed or unsigned high 64 bits of A × B. -/
  | mul (w : Slot)
  /-- DIV (R83). Delivers the truncated quotient or the remainder, with the special cases for zero divisor and overflow. -/
  | div (w : Slot)
  /-- MNX (R82). Delivers the signed or unsigned minimum or maximum of A and B. -/
  | mnx (w : Slot)
  /-- CMP (R84). Compares A with B and sets all 256 bits of the destination predicate to the outcome. -/
  | cmp (w : Slot)
  /-- MOVI (R86). Writes a sign-extended 16-bit, or with a literal 40-bit, immediate to an x register. -/
  | movi (w : Slot)
  /-- MOVI_TOP (R86). Writes IMM16 into bits [63:48] of D and keeps the rest. -/
  | moviTop (w : Slot)
  /-- MOVI_UPPER (R86). With a literal, writes a 40-bit value into bits [63:24] of D and keeps the rest. -/
  | moviUpper (w : Slot)
  /-- MOVX (R87). Copies a scalar source into an x register. -/
  | movx (w : Slot)
  /-- MOVX_SIGN_EXTEND (R87). Sign-extends the low byte, halfword or word of A into D. -/
  | movxSignExtend (w : Slot)
  /-- MOVX_ZERO_EXTEND (R87). Zero-extends the low byte, halfword or word of A into D. -/
  | movxZeroExtend (w : Slot)
  /-- MOVX_SIF (R88). Converts signed A to FP32 in the dynamic rounding mode. -/
  | movxSif (w : Slot)
  /-- MOVX_UIF (R88). Converts unsigned A to FP32 in the dynamic rounding mode. -/
  | movxUif (w : Slot)
  /-- MOVX_FSI (R88). Converts the FP32 value in A to a saturated signed 64-bit integer. -/
  | movxFsi (w : Slot)
  /-- MOVX_FUI (R88). Converts the FP32 value in A to a saturated unsigned 64-bit integer. -/
  | movxFui (w : Slot)
  /-- MOVX_VLANE (R87). Moves 64-bit lane B mod 32 of a vector source into D. -/
  | movxVlane (w : Slot)
  /-- MOVX_IDX (R89). Reads the INDEX of a loop level into D. -/
  | movxIdx (w : Slot)
  /-- MOVX_CNT (R89). Reads the COUNT of a loop level into D. -/
  | movxCnt (w : Slot)
  /-- SEL (R85). Writes A or B to D according to bit 0 of a predicate. -/
  | sel (w : Slot)
  /-- BR (R91). Branches forward when bit 0 of the named predicate is 1. -/
  | br (w : Slot)
  /-- BR_NOT (R91). Branches forward when bit 0 of the named predicate is 0. -/
  | brNot (w : Slot)
  /-- JMP (R92). Jumps forward unconditionally by a word offset. -/
  | jmp (w : Slot)
  /-- BRU (R93). Branches when the top of the mask stack is all zeros (bru.none) or has any bit set (bru.any). -/
  | bru (w : Slot)
  /-- LOOP (R95). Opens a hardware loop with a trip count from a scalar source, skipping the body when it is zero. -/
  | loop (w : Slot)
  /-- LOOP_N (R95). Opens a hardware loop with an immediate trip count. -/
  | loopN (w : Slot)
  /-- NEXT (R96). Closes the innermost loop iteration, incrementing INDEX and either repeating or popping the entry. -/
  | next (w : Slot)
  /-- SVC_CALL (R98). Raises the service-call cause 0x041 and enters trap service after its bundle completes. -/
  | svcCall (w : Slot)
  /-- SVC_TRAP (R98). Raises the program-trap cause 0x042 and enters trap service. -/
  | svcTrap (w : Slot)
  /-- SVC_TRET (R218). Ends trap service: restores the trapped group, replays the frame's entries and resumes, or ends the task per DISP. -/
  | svcTret (w : Slot)
  /-- HALT (R99). Ends the running task with normal completion once its waits are satisfied. -/
  | halt (w : Slot)
  /-- HALT_FAIL (R99). Ends the running task with failure and a 16-bit program status. -/
  | haltFail (w : Slot)
  /-- CSRR (R100). Reads a system register into an x register. -/
  | csrr (w : Slot)
  /-- CSRW (R100). Writes a system register, clearing a sticky record when it names one. -/
  | csrw (w : Slot)
  /-- STRM (R109). Writes a whole stream descriptor's base, space, extension and element size, disabling all dimensions. -/
  | strm (w : Slot)
  /-- STRX (R110). Sets one dimension of a stream descriptor after range-checking stride and extent. -/
  | strx (w : Slot)
  /-- STRX_OFF (R110). Clears one dimension word of a stream descriptor. -/
  | strxOff (w : Slot)
  /-- LD (R113). Loads 1 to 8 bytes of global or A space into an x register, with optional post-increment. -/
  | ld (w : Slot)
  /-- LD_QE (R119). Reads one word of a queue control word indivisibly with queue operations. -/
  | ldQe (w : Slot)
  /-- ST (R113). Stores 1 to 8 bytes to global or A space. -/
  | st (w : Slot)
  /-- ST_QE (R119). Writes a queue control word word indivisibly, word 1 emptying the queue. -/
  | stQe (w : Slot)
  /-- VLD (R113). Loads 256 bytes into a v register and writes its residency companion predicate. -/
  | vld (w : Slot)
  /-- VST (R113). Stores 256 bytes of a vector source, optionally under the mask-stack top. -/
  | vst (w : Slot)
  /-- GATH (R117). Gathers indexed pieces of A-space rows into lm0. -/
  | gath (w : Slot)
  /-- AMO (R122). Performs one indivisible read-modify-write at the home slice and returns the old value. -/
  | amo (w : Slot)
  /-- MON (R123). Reads an aligned word at the home slice and arms the sequencer's monitor on its line. -/
  | mon (w : Slot)
  /-- MWT (R124). Waits on the monitor and returns a status. -/
  | mwt (w : Slot)
  /-- MWT_WAKE (R124). A waiting MWT returns written, disarmed or interrupted once its condition holds. -/
  | mwtWake (who : SeqId)
  /-- MWT_LIMIT (R124). The cycle limit of a waiting MWT expires and it returns status 1. -/
  | mwtLimit (who : SeqId)
  /-- FENCE (R125). Completes when every earlier access is performed at the bundle's scope. -/
  | fence (w : Slot)
  /-- PREQ (R127). Asks the home die to make a page resident and returns at once. -/
  | preq (w : Slot)
  /-- PREQ_W (R127). Asks for a page to be made resident and waits for the outcome. -/
  | preqW (w : Slot)
  /-- PREQ_W_COMPLETE (R127). A waiting preq.w returns resident, failed or interrupted. -/
  | preqWComplete (who : SeqId)
  /-- QPSH (R120). Pushes a scalar element onto a bin queue, waiting while it is full. -/
  | qpsh (w : Slot)
  /-- QPSH_V (R120). Pushes a vector element onto a bin queue. -/
  | qpshV (w : Slot)
  /-- QPOP (R120). Pops a scalar element from a bin queue, waiting while it is empty. -/
  | qpop (w : Slot)
  /-- QPOP_V (R120). Pops a vector element from a bin queue into a v register. -/
  | qpopV (w : Slot)
  /-- QUEUE_OP_WAKE (R121). A waiting queue push or pop retries once the queue has room or an element. -/
  | queueOpWake (who : SeqId)
  /-- QUEUE_WAIT_LIMIT (R121). A queue wait reaches 1,048,576 cycles and raises 0x087. -/
  | queueWaitLimit (who : SeqId)
  /-- PREF (R128). Prefetches lines into the caches with a hint, never faulting. -/
  | pref (w : Slot)
  /-- VADD (R135). Element-wise addition under the mask. -/
  | vadd (w : Slot)
  /-- VSUB (R135). Element-wise subtraction under the mask. -/
  | vsub (w : Slot)
  /-- VMUL (R135). Element-wise multiplication under the mask. -/
  | vmul (w : Slot)
  /-- VFMA (R136). Element-wise fused a × b + d with one rounding. -/
  | vfma (w : Slot)
  /-- VMNX (R137). Element-wise minimum or maximum. -/
  | vmnx (w : Slot)
  /-- VLOG (R138). Byte-wise logic operation on vector registers. -/
  | vlog (w : Slot)
  /-- VLOG_P (R138). Logic operation on predicates within one bank. -/
  | vlogP (w : Slot)
  /-- VSHF (R135). Element-wise integer shifts and rotates. -/
  | vshf (w : Slot)
  /-- VCVT (R142). Converts elements between formats, packing or unpacking by part. -/
  | vcvt (w : Slot)
  /-- VRED (R145). Reduces all elements by the fixed pairwise tree into element 0. -/
  | vred (w : Slot)
  /-- VEXP (R146). Element-wise 2^a or e^a rounded once. -/
  | vexp (w : Slot)
  /-- VRCP (R146). Element-wise reciprocal rounded once. -/
  | vrcp (w : Slot)
  /-- VRSQ (R146). Element-wise reciprocal square root rounded once. -/
  | vrsq (w : Slot)
  /-- VSQRT (R146). Element-wise square root rounded once. -/
  | vsqrt (w : Slot)
  /-- VCMP (R139). Compares elements and writes the outcome to every predicate bit of each element. -/
  | vcmp (w : Slot)
  /-- VSEL (R140). Selects bytes from A or B by a predicate. -/
  | vsel (w : Slot)
  /-- VPRM (R148). Permutes elements by index, zip or unzip. -/
  | vprm (w : Slot)
  /-- VBRD (R149). Broadcasts the low bytes of a scalar source to every element. -/
  | vbrd (w : Slot)
  /-- VBRD_IMM (R149). Broadcasts an immediate to every element. -/
  | vbrdImm (w : Slot)
  /-- VSCA (R144). Fused scale and accumulate of FP32, INT32 or I4X values with FP32 or X8 scales. -/
  | vsca (w : Slot)
  /-- VQNT (R143). Quantises scaled FP32 elements to INT8, I4X, I2 or FP8 into one part of D. -/
  | vqnt (w : Slot)
  /-- VMPS (R152). Pushes a predicate ANDed with the top onto the mask stack. -/
  | vmps (w : Slot)
  /-- VMIV (R152). Inverts the mask-stack top within the entry below it. -/
  | vmiv (w : Slot)
  /-- VMPP (R152). Pops the mask stack. -/
  | vmpp (w : Slot)
  /-- VMOV (R151). Copies a vector source byte by byte. -/
  | vmov (w : Slot)
  /-- VMOV_FP (R151). Copies a predicate into bytes 0–31 of a v register. -/
  | vmovFp (w : Slot)
  /-- VMOV_TP (R151). Copies bytes 0–31 of a vector source into a predicate. -/
  | vmovTp (w : Slot)
  /-- VMOV_EXP (R151). Expands predicate bits into 0xFF or 0x00 bytes. -/
  | vmovExp (w : Slot)
  /-- VMOV_INS (R151). Inserts a scalar into one 64-bit lane of a v register. -/
  | vmovIns (w : Slot)
  /-- VIOT (R150). Writes an arithmetic index sequence into the elements. -/
  | viot (w : Slot)
  /-- VRMX (R147). Forms the online-softmax rescale factor base^(old − new) or 1. -/
  | vrmx (w : Slot)
  /-- MMV8 (R184). Applies INT8 activations to 8-bit weight macros at a split point and enters results into accumulator lanes. -/
  | mmv8 (w : Slot)
  /-- MMV4 (R184). Applies INT8 activations to I4X weight macros with the outlier side path. -/
  | mmv4 (w : Slot)
  /-- MMV2 (R184). Applies INT8 activations to I2 weight macros. -/
  | mmv2 (w : Slot)
  /-- MMVB (R173). Applies BF16 activations to aligned BF16 weights on the digital path. -/
  | mmvb (w : Slot)
  /-- MWLD (R187). Checks and accepts a background load of one weight set, marking it loading. -/
  | mwld (w : Slot)
  /-- WEIGHT_LOAD_COMPLETE (R187). A weight load writes its last byte, the set stops loading and its flags are recorded. -/
  | weightLoadComplete (core : Fin 512)
  /-- MWSL (R189). Selects the active weight set in sr.mmode. -/
  | mwsl (w : Slot)
  /-- MWUP (R190). Writes one or two weight rows from a vector source. -/
  | mwup (w : Slot)
  /-- MCAL_W (R191). Writes all 128 converter offsets of a macro and marks them valid. -/
  | mcalW (w : Slot)
  /-- MCAL_INV (R191). Marks every converter column of a macro invalid. -/
  | mcalInv (w : Slot)
  /-- MCAL_R (R191). Reads a macro's offsets and valid bits into a v register. -/
  | mcalR (w : Slot)
  /-- MSMP_SET (R192). Configures gleaner sampling for the macros in a mask. -/
  | msmpSet (w : Slot)
  /-- MSMP_RD (R192). Reads a macro's gleaner word. -/
  | msmpRd (w : Slot)
  /-- GLEANER_CHECK (R175). The check path finishes recomputing a picked result and records any bound violation. -/
  | gleanerCheck (core : Fin 512) (mac : Fin 8)
  /-- MACR_V (R193). Reads 64 lane values into a v register. -/
  | macrV (w : Slot)
  /-- MACR_B (R193). Reads 64 lane bounds into a v register. -/
  | macrB (w : Slot)
  /-- MACR_P (R193). Reads 32 lane value-bound pairs into a v register. -/
  | macrP (w : Slot)
  /-- MACW_V (R193). Writes 64 lane values with bound zero. -/
  | macwV (w : Slot)
  /-- MACW_P (R193). Writes 32 lane value-bound pairs. -/
  | macwP (w : Slot)
  /-- MACS_Z (R194). Zeroes the value and bound of one tile. -/
  | macsZ (w : Slot)
  /-- MACS_S (R194). Scales one tile's lanes by a scalar FP32 factor. -/
  | macsS (w : Slot)
  /-- MACS_V (R194). Scales 64 lanes by per-lane FP32 factors. -/
  | macsV (w : Slot)
  /-- COPY (R197). Checks and starts a background copy on a channel. -/
  | copy (w : Slot)
  /-- MCST (R197). Checks and starts a background multicast to team members' A space. -/
  | mcst (w : Slot)
  /-- COPY_TRANSFER_COMPLETE (R198). A transfer delivers its last byte, makes its arrivals and clears BUSY. -/
  | copyTransferComplete (who : SeqId) (channel : Fin 4)
  /-- COPY_TRANSFER_FAILURE (R199). A global side meets a fault or poisoned line and the transfer stops with FAILED. -/
  | copyTransferFailure (who : SeqId) (channel : Fin 4)
  /-- GET (R203). Reads up to 4,096 bytes of global memory into A space and completes when done. -/
  | get (w : Slot)
  /-- PUT (R203). Writes up to 4,096 bytes of A space to global memory and optionally adds 1 to a signal word. -/
  | put (w : Slot)
  /-- JOB (R204). Checks and submits a job card to the die's dependency table. -/
  | job (w : Slot)
  /-- JOB_SUBMISSION_WAIT_LIMIT (R204). A JOB waiting for table room reaches 1,048,576 cycles and raises 0x144. -/
  | jobSubmissionWaitLimit (who : SeqId)
  /-- WPTR_P (R200). Reads a copy channel's write pointer. -/
  | wptrP (w : Slot)
  /-- WPTR_S (R201). Reads a copy channel's status word and marks a failure reported. -/
  | wptrS (w : Slot)
  /-- WPTR_T (R200). Reads a copy channel's stamp. -/
  | wptrT (w : Slot)
  /-- KSYN (R202). Waits on named copy channels and optionally weight loads. -/
  | ksyn (w : Slot)
  /-- KSYN_COMPLETE (R202). The waited channels and loads end, deliveries are performed at scope, or 0x141 is raised. -/
  | ksynComplete (who : SeqId)
  /-- RVIN (R244). Initialises a rendezvous point in count mode. -/
  | rvin (w : Slot)
  /-- RVIN_B (R244). Initialises a rendezvous point in byte mode. -/
  | rvinB (w : Slot)
  /-- RVIN_RD (R244). Reads a rendezvous point's state word. -/
  | rvinRd (w : Slot)
  /-- ARV (R245). Makes an arrival of count A on a rendezvous point. -/
  | arv (w : Slot)
  /-- ARV_ONE (R245). Makes an arrival of count 1 on a rendezvous point. -/
  | arvOne (w : Slot)
  /-- RVWT (R246). Waits for a rendezvous point's phase to change. -/
  | rvwt (w : Slot)
  /-- RVWT_COMPLETE (R246). A waiting RVWT returns completed or interrupted. -/
  | rvwtComplete (who : SeqId)
  /-- RENDEZVOUS_WAIT_LIMIT (R246). An RVWT reaches 16,777,216 cycles and raises 0x185. -/
  | rendezvousWaitLimit (who : SeqId)
  /-- GIVE (R239). Reserves a move of a bin from the giver's window to a team member's window. -/
  | give (w : Slot)
  /-- DRAIN_COMPLETE (R237). A draining window has no access in flight, and the GIVE move or bmap.free detach is performed. -/
  | drainComplete (who : SeqId)
  /-- BMAP_ALLOC (R235). Attaches the lowest FREE bin to a window. -/
  | bmapAlloc (w : Slot)
  /-- BMAP_ALLOCZ (R235). Attaches the lowest FREE bin to a window and zeroes it. -/
  | bmapAllocz (w : Slot)
  /-- BMAP_FREE (R235). Drains and detaches a window, freeing an owned bin. -/
  | bmapFree (w : Slot)
  /-- BMAP_SHARE (R235). Attaches to a window a bin that a team member's window owns. -/
  | bmapShare (w : Slot)
  /-- BMAP_RD (R235). Reads a bank-map entry. -/
  | bmapRd (w : Slot)
  /-- SEND (R249). Checks a destination and places one message flit in the core's send register. -/
  | send (w : Slot)
  /-- SEND_FLIT_INJECTION (R249). The destination queue reserves an entry and the send register injects its flit. -/
  | sendFlitInjection (core : Fin 512)
  /-- MESSAGE_QUEUE_ARRIVAL (R248). A message flit enters its destination cluster queue. -/
  | messageQueueArrival (cluster : Fin 128) (queue : Fin 8)
  /-- MESSAGE_SEND_WAIT_LIMIT (R249). A SEND or HALT waits 1,048,576 cycles on the send register and raises 0x187. -/
  | messageSendWaitLimit (who : SeqId)
  /-- RECV (R250). Removes the oldest flit of a queue into a v register, waiting while empty. -/
  | recv (w : Slot)
  /-- RECV_WAKE (R250). A waiting RECV receives a flit that has entered its queue. -/
  | recvWake (who : SeqId)
  /-- MESSAGE_RECEIVE_WAIT_LIMIT (R250). A RECV waits 1,048,576 cycles and raises 0x188. -/
  | messageReceiveWaitLimit (who : SeqId)
  /-- MPRB (R250). Reads a message queue's occupancy without waiting. -/
  | mprb (w : Slot)
  /-- TASK (R253). Checks and submits a task record to the die's dependency table. -/
  | task (w : Slot)
  /-- TASK_SUBMISSION_WAIT_LIMIT (R268). A TASK waiting for table room reaches 1,048,576 cycles and raises 0x202. -/
  | taskSubmissionWaitLimit (who : SeqId)
  /-- TABLE_ROOM_GRANT (R268). Freed table room is given round robin to a waiting TASK, JOB or host queue entry, which is entered. -/
  | tableRoomGrant (die : Fin 4)
  /-- TIME_NOW (R254). Reads the event stamp. -/
  | timeNow (w : Slot)
  /-- TIME_UNTIL (R254). Waits until the event stamp reaches A or a hard pre-emption is pending. -/
  | timeUntil (w : Slot)
  /-- TIME_UNTIL_REACHED (R254). The stamp a time.until waits for is reached and it returns 0. -/
  | timeUntilReached (who : SeqId)
  /-- YLD (R255). Pauses issue with reduced power until cycles pass or an event occurs. -/
  | yld (w : Slot)
  /-- YLD_WAKE (R255). A yield ends on a monitor fire, phase completion, flit arrival or pending pre-emption. -/
  | yldWake (who : SeqId)
  /-- YLD_CYCLES_PASSED (R255). A yield's cycle count expires and it returns status 0. -/
  | yldCyclesPassed (who : SeqId)
  /-- HLTH (R256). Reads a discovered quantity. -/
  | hlth (w : Slot)
  /-- RANK_HALT_COMPLETE (R99). A waiting HALT's accesses, transfers and send register are done, and the rank ends. -/
  | rankHaltComplete (who : SeqId)
  /-- CRIB_LOWERING (R308). The thresher lowers a block on its first execution and places it in the crib. -/
  | cribLowering (who : SeqId) (lowering : Lowering)
  /-- TASK_PLACEMENT (R279). When cores become free the scheduler chooses a ready task and preloads its ranks on a cluster. -/
  | taskPlacement (die : Fin 4)
  /-- TEAM_START (R280). Once every rank is preloaded all ranks issue their first bundle together and take a team slot. -/
  | teamStart (die : Fin 4) (serial : Nat)
  /-- AGING_INTERVAL_EXPIRY (R278). A graph's aging interval passes and its effective priority rises one level. -/
  | agingIntervalExpiry (die : Fin 4) (graph : Fin 64)
  /-- SOFT_PREEMPTION (R281). The scheduler stops issuing a lower graph and saves its queue position, clock and priority. -/
  | softPreemption (die : Fin 4) (graph : Fin 64)
  /-- HARD_PREEMPTION_SAVE (R282). Once every rank reaches its NEXT and transfers end, bins are parked, tiles spilled, contexts written and cores freed. -/
  | hardPreemptionSave (die : Fin 4) (serial : Nat)
  /-- TASK_RESUME (R283). A pre-empted task is placed, its context checked and restored, bins reattached or copied, and it continues. -/
  | taskResume (die : Fin 4) (serial : Nat)
  /-- PARKED_BIN_EVICTION (R283). Sirxon evicts a parked task's bins to reserved memory. -/
  | parkedBinEviction (die : Fin 4) (serial : Nat) (handle : Word)
  /-- COMPLETION_RECORD_WRITE (R288). When an entry ends and its accesses are performed, its completion record is written and it leaves the table. -/
  | completionRecordWrite (die : Fin 4) (serial : Nat)
  /-- DIE_COPY_CARD (R274). The die copy channel copies LEN bytes of global memory. -/
  | dieCopyCard (die : Fin 4) (serial : Nat)
  /-- COLLECTIVE_SUM_FP32 (R414). A collective card sums FP32 elements over the group by the pairwise tree. -/
  | collectiveSumFp32 (die : Fin 4) (serial : Nat)
  /-- COLLECTIVE_SUM_BF16 (R414). A collective card sums BF16 elements in an FP32 tree with a final rounding. -/
  | collectiveSumBf16 (die : Fin 4) (serial : Nat)
  /-- COLLECTIVE_MAX (R414). A collective card takes the FP32 maximum over the group. -/
  | collectiveMax (die : Fin 4) (serial : Nat)
  /-- COLLECTIVE_MIN (R414). A collective card takes the FP32 minimum over the group. -/
  | collectiveMin (die : Fin 4) (serial : Nat)
  /-- COLLECTIVE_SUM_INT32 (R414). A collective card sums INT32 elements with wrapping. -/
  | collectiveSumInt32 (die : Fin 4) (serial : Nat)
  /-- COLLECTIVE_BROADCAST (R414). A collective card copies rank 0's SRC into every member's DST. -/
  | collectiveBroadcast (die : Fin 4) (serial : Nat)
  /-- COLLECTIVE_WAIT_LIMIT (R415). A member's card waits LIMIT ms for the others and fails with 0x284. -/
  | collectiveWaitLimit (die : Fin 4) (serial : Nat)
  /-- BANKMAC (R374). Bank units multiply-accumulate FP16 rows against broadcast registers and write the accumulators. -/
  | bankmac (die : Fin 4) (serial : Nat) (parity : Bool)
  /-- ATTN (R379). The attention sequencer computes one query's attention over a paged key-value cache. -/
  | attn (die : Fin 4) (serial : Nat) (parity : Bool)
  /-- ROWZERO (R381). Zeroes whole pages row by row in DRAM or through the row buffer. -/
  | rowzero (die : Fin 4) (serial : Nat) (parity : Bool)
  /-- ROWCOPY (R381). Copies whole pages row by row in DRAM or through the row buffer. -/
  | rowcopy (die : Fin 4) (serial : Nat) (parity : Bool)
  /-- MIGRATION_MOVE (R357). Moves pages to frames from the die's free pool. -/
  | migrationMove (die : Fin 4) (serial : Nat)
  /-- MIGRATION_EVICT (R357). Evicts pages to host memory and makes them non-resident. -/
  | migrationEvict (die : Fin 4) (serial : Nat)
  /-- MIGRATION_FETCH (R357). Fetches pages from host memory and makes them resident. -/
  | migrationFetch (die : Fin 4) (serial : Nat)
  /-- MIGRATION_COMPRESS (R357). Stores pages compressed. -/
  | migrationCompress (die : Fin 4) (serial : Nat)
  /-- MIGRATION_EXPAND (R357). Expands compressed pages into full frames. -/
  | migrationExpand (die : Fin 4) (serial : Nat)
  /-- RESIDENCY_REQUEST_SERVICE (R354). Sirxon serves a posted residency request with a fetch migration. -/
  | residencyRequestService (die : Fin 4) (host : Word)
  /-- COMPUTE_PHASE_START (R366). A pseudo-channel precharges and enters a compute phase for a card step. -/
  | computePhaseStart (pc : PcId)
  /-- COMPUTE_PHASE_YIELD (R368). A compute phase runs 16 µs after a queued normal request and yields to a normal phase. -/
  | computePhaseYield (pc : PcId)
  /-- NORMAL_PHASE_END (R368). A yield's normal phase ends when its queue drains or after 4 µs, and compute resumes. -/
  | normalPhaseEnd (pc : PcId)
  /-- POWER_STATE_REQUEST (R376). Sirxon puts a pseudo-channel into self-refresh or power-down, spilling live unit state. -/
  | powerStateRequest (pc : PcId) (deep : Bool)
  /-- POWER_STATE_EXIT (R376). A pseudo-channel leaves its power state and Sirxon restores the unit state. -/
  | powerStateExit (pc : PcId) (spillLost : Bool)
  /-- CORE_WRITE_PATH_DRAIN (R326). A write in the core's write path passes to the cluster cache. -/
  | coreWritePathDrain (core : Fin 512)
  /-- CLUSTER_CACHE_WRITE_DRAIN (R252). A write held by the cluster cache is applied at its home slice. -/
  | clusterCacheWriteDrain (cluster : Fin 128)
  /-- CLUSTER_CACHE_COPY_DROP (R328). A cluster cache copy is dropped 65,536 cycles after its fetch. -/
  | clusterCacheCopyDrop (cluster : Fin 128)
  /-- NETWORK_REQUEST_TIMEOUT (R348). A request without response for 65,536 cycles is resent, or raises 0x244 the second time. -/
  | networkRequestTimeout (who : SeqId)
  /-- FABRIC_REQUEST_TIMEOUT (R411). A remote request without response for 1,048,576 cycles is resent, or raises 0x282 the second time. -/
  | fabricRequestTimeout (who : SeqId)
  /-- PATROL_READ (R359). Sirxon's daily patrol reads every tower line, correcting or poisoning. -/
  | patrolRead (die : Fin 4) (line : Fin 1073741824) (found : LineCheck)
  /-- ROW_SPARING (R361). Sirxon copies a failing row into a spare row and remaps it. -/
  | rowSparing (row : RowId)
  /-- MACRO_RECALIBRATION (R176). Between tasks Sirxon recalibrates a macro whose violations reach the threshold. -/
  | macroRecalibration (core : Fin 512) (mac : Fin 8)
  /-- MACRO_RETIREMENT (R161). A macro is retired, logical numbers shift down and the crib is invalidated. -/
  | macroRetirement (core : Fin 512) (mac : Fin 8)
  /-- CORE_RETIREMENT (R404). A core is retired and a task running on it ends with 0x341. -/
  | coreRetirement (core : Fin 512)
  /-- BIN_RETIREMENT (R259). Sirxon retires a FREE bin and brings a spare into service. -/
  | binRetirement (cluster : Fin 128) (bin : Fin 64)
  /-- ROUTER_FAILURE (R348). A router fails; Sirxon retires its cluster and rewrites the routing tables. -/
  | routerFailure (router : Fin 128) (routes : List (Nat × Nat × RouteEntry))
  /-- LANE_FAILURE (R407). A link data lane fails and its traffic moves to the spare lane, or the link goes down. -/
  | laneFailure (link : Fin 18) (lane : Fin 9)
  /-- LINK_RETRAIN_COMPLETE (R407). A link finishes retraining and delivers the waiting flits in order. -/
  | linkRetrainComplete (link : Fin 18)
  /-- ROUTING_TABLE_REWRITE (R409). Sirxon rewrites fabric routing tables after a package dies or a link goes down. -/
  | routingTableRewrite (routes : List (Nat × BitVec 16 × Nat))
  /-- HEALTH_RING_WRITE (R403). Sirxon writes a pending health or error record into the host health ring when an entry is free. -/
  | healthRingWrite
  /-- STAMP_RATE_CORRECTION (R398). Sirxon adjusts the stamp clock rate to stay within ±8 ns of the fabric. -/
  | stampRateCorrection (ppm : Int) (inSync : Bool)
  /-- THERMAL_THROTTLE (R400). At 105 °C Sirxon lowers the clock and writes a health record. -/
  | thermalThrottle
  /-- THERMAL_STOP (R400). At 115 °C the part stops issue and sets reason bit 5. -/
  | thermalStop
  /-- DVFS_CHANGE (R400). Between tasks Sirxon changes supply, clock or the digital macro cap. -/
  | dvfsChange (millivolts : Nat) (cap : Nat)
  /-- POWER_UP (R395). The boot ROM sets BOOTSTS to state 0 and waits for the host. -/
  | powerUp
  /-- BOOTCTL_WRITE (R395). A write of the image length starts verification of the Sirxon image. -/
  | bootctlWrite (length : Word)
  /-- IMAGE_VERIFICATION (R395). Verification ends, refusing the image or starting the management controller on it. -/
  | imageVerification
  /-- SIRXON_BRING_UP (R395). Sirxon trains links, tests memory, publishes discovered quantities and opens the queues. -/
  | sirxonBringUp (plan : BringUp)
  /-- QNOTIFY_WRITE (R393). A host tail write hands queue entries to the part, or is refused with 0x301. -/
  | qnotifyWrite (queue : Fin 64) (tail : BitVec 32)
  /-- HRCTL_WRITE (R403). Enables the health ring, clears LOST, or clears EN with 0x301 on a bad LGN. -/
  | hrctlWrite (value : Word)
  /-- HRHEAD_WRITE (R403). Records host consumption of health ring entries, or clears EN when beyond HRTAIL. -/
  | hrheadWrite (value : Word)
  /-- BAR0_REGISTER_WRITE (R391). A host write to a BAR0 register that has no behaviour of its own. -/
  | bar0RegisterWrite (offset : BitVec 16) (value : Word)
  /-- HOST_BAR2_READ (R396). A host read through the BAR2 aperture, translated at its home die. -/
  | hostBar2Read (offset : BitVec 34) (length : Nat)
  /-- HOST_BAR2_WRITE (R396). A host write through the BAR2 aperture, translated at its home die. -/
  | hostBar2Write (offset : BitVec 34) (data : List Byte)
  /-- HOST_JOB_CARD_ENTRY (R392). A host queue entry of a job card type is checked and entered into the die's table. -/
  | hostJobCardEntry (queue : Fin 64)
  /-- HOST_TASK_ENTRY (R392). A host queue entry of task type is checked and entered into the die's table. -/
  | hostTaskEntry (queue : Fin 64)
  /-- LOAD (R302). Loads, checks, seals and selects variants of a Chasia object and writes handles and a result. -/
  | load (queue : Fin 64)
  /-- UNLOAD (R312). Stops new entries naming an image and waits for its entries to leave. -/
  | unload (queue : Fin 64)
  /-- UNLOAD_COMPLETE (R312). No entry names the image any more; its crib entries and sealed copy are freed. -/
  | unloadComplete (die : Fin 4) (slot : Fin 4096)
  /-- MAP (R392). Maps pages from the free pool with given permissions and residency. -/
  | map (queue : Fin 64)
  /-- CRIB_INVALIDATE (R311). Invalidates crib entries of one image or the whole die. -/
  | cribInvalidate (queue : Fin 64)
  /-- ATTEST (R397). Writes a signed attestation report with the nonce. -/
  | attest (queue : Fin 64)
  /-- CHECKPOINT (R399). Stops issue, pre-empts long tasks, flushes caches and streams DRAM to the store. -/
  | checkpoint (queue : Fin 64)
  /-- RESTORE (R399). Writes stored frames back before any task has issued. -/
  | restore (queue : Fin 64)
  /-- ENTRY_INVALID (R392). A host queue entry of a refused type gets a STATE 5 record with cause 0x302. -/
  | entryInvalid (queue : Fin 64)
  /-- PLACEMENT_CORE_RESERVATION (R279). Once a task that cannot be placed has been passed over for one aging interval, the scheduler reserves the cores, and for a pre-empted task the freed bins, of its chosen cluster as they become free. -/
  | placementCoreReservation (die : Fin 4)
  /-- FLIT_REPLAY (R406). A fabric flit that fails its check code is resent from the sender's replay buffer, so the link loses, duplicates and reorders nothing. -/
  | flitReplay (link : Fin 18)
deriving DecidableEq, Repr

/-- The opcode OP[30:24] (R69) and the fields of an engine slot; none for the prefixes, whose words have their
own layouts (R60), and for the events, which have no words. -/
def Instr.slot? : Instr → Option (BitVec 7 × Slot)
  | .nop _ => none
  | .lit _ => none
  | .guard _ _ _ => none
  | .scope _ => none
  | .add w => some (0x08#7, w)
  | .sub w => some (0x09#7, w)
  | .and w => some (0x0a#7, w)
  | .or w => some (0x0b#7, w)
  | .xor w => some (0x0c#7, w)
  | .shf w => some (0x0d#7, w)
  | .mul w => some (0x0e#7, w)
  | .div w => some (0x0f#7, w)
  | .mnx w => some (0x10#7, w)
  | .cmp w => some (0x11#7, w)
  | .movi w => some (0x12#7, w)
  | .moviTop w => some (0x12#7, w)
  | .moviUpper w => some (0x12#7, w)
  | .movx w => some (0x13#7, w)
  | .movxSignExtend w => some (0x13#7, w)
  | .movxZeroExtend w => some (0x13#7, w)
  | .movxSif w => some (0x13#7, w)
  | .movxUif w => some (0x13#7, w)
  | .movxFsi w => some (0x13#7, w)
  | .movxFui w => some (0x13#7, w)
  | .movxVlane w => some (0x13#7, w)
  | .movxIdx w => some (0x13#7, w)
  | .movxCnt w => some (0x13#7, w)
  | .sel w => some (0x14#7, w)
  | .br w => some (0x15#7, w)
  | .brNot w => some (0x15#7, w)
  | .jmp w => some (0x16#7, w)
  | .bru w => some (0x17#7, w)
  | .loop w => some (0x18#7, w)
  | .loopN w => some (0x18#7, w)
  | .next w => some (0x19#7, w)
  | .svcCall w => some (0x1a#7, w)
  | .svcTrap w => some (0x1a#7, w)
  | .svcTret w => some (0x1a#7, w)
  | .halt w => some (0x1b#7, w)
  | .haltFail w => some (0x1b#7, w)
  | .csrr w => some (0x1c#7, w)
  | .csrw w => some (0x1d#7, w)
  | .strm w => some (0x20#7, w)
  | .strx w => some (0x21#7, w)
  | .strxOff w => some (0x21#7, w)
  | .ld w => some (0x22#7, w)
  | .ldQe w => some (0x22#7, w)
  | .st w => some (0x23#7, w)
  | .stQe w => some (0x23#7, w)
  | .vld w => some (0x24#7, w)
  | .vst w => some (0x25#7, w)
  | .gath w => some (0x26#7, w)
  | .amo w => some (0x27#7, w)
  | .mon w => some (0x28#7, w)
  | .mwt w => some (0x29#7, w)
  | .fence w => some (0x2a#7, w)
  | .preq w => some (0x2b#7, w)
  | .preqW w => some (0x2b#7, w)
  | .qpsh w => some (0x2c#7, w)
  | .qpshV w => some (0x2c#7, w)
  | .qpop w => some (0x2d#7, w)
  | .qpopV w => some (0x2d#7, w)
  | .pref w => some (0x2e#7, w)
  | .vadd w => some (0x30#7, w)
  | .vsub w => some (0x31#7, w)
  | .vmul w => some (0x32#7, w)
  | .vfma w => some (0x33#7, w)
  | .vmnx w => some (0x34#7, w)
  | .vlog w => some (0x35#7, w)
  | .vlogP w => some (0x35#7, w)
  | .vshf w => some (0x36#7, w)
  | .vcvt w => some (0x37#7, w)
  | .vred w => some (0x38#7, w)
  | .vexp w => some (0x39#7, w)
  | .vrcp w => some (0x3a#7, w)
  | .vrsq w => some (0x3b#7, w)
  | .vsqrt w => some (0x3b#7, w)
  | .vcmp w => some (0x3c#7, w)
  | .vsel w => some (0x3d#7, w)
  | .vprm w => some (0x3e#7, w)
  | .vbrd w => some (0x3f#7, w)
  | .vbrdImm w => some (0x3f#7, w)
  | .vsca w => some (0x40#7, w)
  | .vqnt w => some (0x41#7, w)
  | .vmps w => some (0x42#7, w)
  | .vmiv w => some (0x43#7, w)
  | .vmpp w => some (0x44#7, w)
  | .vmov w => some (0x45#7, w)
  | .vmovFp w => some (0x45#7, w)
  | .vmovTp w => some (0x45#7, w)
  | .vmovExp w => some (0x45#7, w)
  | .vmovIns w => some (0x45#7, w)
  | .viot w => some (0x46#7, w)
  | .vrmx w => some (0x47#7, w)
  | .mmv8 w => some (0x50#7, w)
  | .mmv4 w => some (0x51#7, w)
  | .mmv2 w => some (0x52#7, w)
  | .mmvb w => some (0x53#7, w)
  | .mwld w => some (0x54#7, w)
  | .mwsl w => some (0x55#7, w)
  | .mwup w => some (0x56#7, w)
  | .mcalW w => some (0x57#7, w)
  | .mcalInv w => some (0x57#7, w)
  | .mcalR w => some (0x57#7, w)
  | .msmpSet w => some (0x58#7, w)
  | .msmpRd w => some (0x58#7, w)
  | .macrV w => some (0x59#7, w)
  | .macrB w => some (0x59#7, w)
  | .macrP w => some (0x59#7, w)
  | .macwV w => some (0x5a#7, w)
  | .macwP w => some (0x5a#7, w)
  | .macsZ w => some (0x5b#7, w)
  | .macsS w => some (0x5b#7, w)
  | .macsV w => some (0x5b#7, w)
  | .copy w => some (0x60#7, w)
  | .mcst w => some (0x61#7, w)
  | .get w => some (0x62#7, w)
  | .put w => some (0x63#7, w)
  | .job w => some (0x64#7, w)
  | .wptrP w => some (0x65#7, w)
  | .wptrS w => some (0x65#7, w)
  | .wptrT w => some (0x65#7, w)
  | .ksyn w => some (0x66#7, w)
  | .rvin w => some (0x68#7, w)
  | .rvinB w => some (0x68#7, w)
  | .rvinRd w => some (0x68#7, w)
  | .arv w => some (0x69#7, w)
  | .arvOne w => some (0x69#7, w)
  | .rvwt w => some (0x6a#7, w)
  | .give w => some (0x6b#7, w)
  | .bmapAlloc w => some (0x6c#7, w)
  | .bmapAllocz w => some (0x6c#7, w)
  | .bmapFree w => some (0x6c#7, w)
  | .bmapShare w => some (0x6c#7, w)
  | .bmapRd w => some (0x6c#7, w)
  | .send w => some (0x6d#7, w)
  | .recv w => some (0x6e#7, w)
  | .mprb w => some (0x6f#7, w)
  | .task w => some (0x70#7, w)
  | .timeNow w => some (0x71#7, w)
  | .timeUntil w => some (0x71#7, w)
  | .yld w => some (0x72#7, w)
  | .hlth w => some (0x73#7, w)
  | .mwtWake _ => none
  | .mwtLimit _ => none
  | .preqWComplete _ => none
  | .queueOpWake _ => none
  | .queueWaitLimit _ => none
  | .weightLoadComplete _ => none
  | .gleanerCheck _ _ => none
  | .copyTransferComplete _ _ => none
  | .copyTransferFailure _ _ => none
  | .jobSubmissionWaitLimit _ => none
  | .ksynComplete _ => none
  | .rvwtComplete _ => none
  | .rendezvousWaitLimit _ => none
  | .drainComplete _ => none
  | .sendFlitInjection _ => none
  | .messageQueueArrival _ _ => none
  | .messageSendWaitLimit _ => none
  | .recvWake _ => none
  | .messageReceiveWaitLimit _ => none
  | .taskSubmissionWaitLimit _ => none
  | .tableRoomGrant _ => none
  | .timeUntilReached _ => none
  | .yldWake _ => none
  | .yldCyclesPassed _ => none
  | .rankHaltComplete _ => none
  | .cribLowering _ _ => none
  | .taskPlacement _ => none
  | .teamStart _ _ => none
  | .agingIntervalExpiry _ _ => none
  | .softPreemption _ _ => none
  | .hardPreemptionSave _ _ => none
  | .taskResume _ _ => none
  | .parkedBinEviction _ _ _ => none
  | .completionRecordWrite _ _ => none
  | .dieCopyCard _ _ => none
  | .collectiveSumFp32 _ _ => none
  | .collectiveSumBf16 _ _ => none
  | .collectiveMax _ _ => none
  | .collectiveMin _ _ => none
  | .collectiveSumInt32 _ _ => none
  | .collectiveBroadcast _ _ => none
  | .collectiveWaitLimit _ _ => none
  | .bankmac _ _ _ => none
  | .attn _ _ _ => none
  | .rowzero _ _ _ => none
  | .rowcopy _ _ _ => none
  | .migrationMove _ _ => none
  | .migrationEvict _ _ => none
  | .migrationFetch _ _ => none
  | .migrationCompress _ _ => none
  | .migrationExpand _ _ => none
  | .residencyRequestService _ _ => none
  | .computePhaseStart _ => none
  | .computePhaseYield _ => none
  | .normalPhaseEnd _ => none
  | .powerStateRequest _ _ => none
  | .powerStateExit _ _ => none
  | .coreWritePathDrain _ => none
  | .clusterCacheWriteDrain _ => none
  | .clusterCacheCopyDrop _ => none
  | .networkRequestTimeout _ => none
  | .fabricRequestTimeout _ => none
  | .patrolRead _ _ _ => none
  | .rowSparing _ => none
  | .macroRecalibration _ _ => none
  | .macroRetirement _ _ => none
  | .coreRetirement _ => none
  | .binRetirement _ _ => none
  | .routerFailure _ _ => none
  | .laneFailure _ _ => none
  | .linkRetrainComplete _ => none
  | .routingTableRewrite _ => none
  | .healthRingWrite => none
  | .stampRateCorrection _ _ => none
  | .thermalThrottle => none
  | .thermalStop => none
  | .dvfsChange _ _ => none
  | .powerUp => none
  | .bootctlWrite _ => none
  | .imageVerification => none
  | .sirxonBringUp _ => none
  | .qnotifyWrite _ _ => none
  | .hrctlWrite _ => none
  | .hrheadWrite _ => none
  | .bar0RegisterWrite _ _ => none
  | .hostBar2Read _ _ => none
  | .hostBar2Write _ _ => none
  | .hostJobCardEntry _ => none
  | .hostTaskEntry _ => none
  | .load _ => none
  | .unload _ => none
  | .unloadComplete _ _ => none
  | .map _ => none
  | .cribInvalidate _ => none
  | .attest _ => none
  | .checkpoint _ => none
  | .restore _ => none
  | .entryInvalid _ => none
  | .placementCoreReservation _ => none
  | .flitReplay _ => none

end Sys2Proof
end

