-- ==== Sys2Proof/Decode.lean ====
section
/-! DEFINITION. The decoder, total on any word, rejecting by name, and after it the encoder, both from the slot and
prefix layouts of spec 03 (R52, R60, R69) and the F tables of the engine chapters. Before them stands what a slot may hold:
the kind of each operand position of every opcode and form (R55, R78, R103, R132, R178, R234), and the check codes of one
slot (R71, R131, R154, R209, R262 and their fellows). The thresher refuses what these checks name, so a sealed image holds
only slots that pass them (R5, R10). -/

namespace Sys2Proof

/-- The six engines, numbered as the replay entries number them (R215). -/
inductive Engine where
  | x | g | v | m | k | y
deriving DecidableEq, Repr

def Engine.idx : Engine → Fin 6
  | .x => 0 | .g => 1 | .v => 2 | .m => 3 | .k => 4 | .y => 5

/-- The kinds of an operand position (R55). Predicate sources are fields here: no slot reads one through A or B. -/
inductive Kind where
  | scalar | vector | field | unused
deriving DecidableEq, Repr

/-- What R211 does with a slot above the trapping one. -/
inductive SlotClass where
  /-- performed; its result is held in a state 2 entry -/
  | plain
  /-- X control: performed, its loop-stack and VPC effect kept -/
  | control
  /-- not performed; state 0 (memory slots, M, K, Y, VMPS, VMIV, VMPP, CSRW, STRM, STRX) -/
  | deferred
  /-- HALT and SVC: not performed at any position; state 0 -/
  | service
deriving DecidableEq, Repr

/-- The destination value a slot reads, which a replay entry captures in THIRD (R215). -/
inductive Third where
  | none | x | xPair | v
deriving DecidableEq, Repr

/-- What D names. -/
inductive DKind where
  | unused | x | v | pred | stream
  /-- a predicate whose bank is F[1:0] (R138, R151) -/
  | predLow
  /-- ctl xD: an x register read as a transfer control word (R178) -/
  | ctl
deriving DecidableEq, Repr

/-- One row of the field tables, for one form of one opcode. -/
structure Form where
  engine : Engine
  d : DKind
  a : Kind
  b : Kind
  lit : Bool := false
  result : Bool := false
  hOk : Bool := false
  third : Third := .none
  /-- the slot's own body reads a stream port in A: an MMV after its checks (R184), and PREF, which never faults (R128) -/
  late : Bool := false
deriving DecidableEq, Repr

/-- R78, with the F values of R81, R87, R95, R98 and R99. -/
def formX (op : Nat) (f : Nat) (lit hi : Bool) : Option Form :=
  let imm := f / 16 = 1
  let wd := f / 4 % 4
  let k := f % 4
  let arith (ok : Bool) (l : Bool) : Option Form :=
    if ok then some { engine := .x, d := .x, a := .scalar, b := if imm then .field else .scalar,
                      lit := imm && l, result := true, hOk := true } else none
  match op with
  | 0x08 => arith true true
  | 0x09 => arith (k < 2) true
  | 0x0A => arith (wd < 2 && k < 2) true
  | 0x0B => arith (wd < 2 && k < 2) true
  | 0x0C => arith (wd < 2 && k < 2) true
  | 0x0D => arith (wd < 2) false
  | 0x0E => arith (k = 0 || (wd = 0 && k < 3)) true
  | 0x0F => arith (wd < 2) true
  | 0x10 => arith (wd < 2) true
  | 0x11 => some { engine := .x, d := .pred, a := .scalar, b := if lit then .field else .scalar, lit := true,
                   result := true, hOk := true }
  | 0x12 => some { engine := .x, d := .x, a := .field, b := .field, lit := true, result := true,
                   third := if hi then .x else .none }
  | 0x13 =>
    if f < 7 || (8 ≤ f && f < 12) then
      some { engine := .x, d := .x, a := .scalar, b := .unused, result := true, hOk := true }
    else if f = 16 then some { engine := .x, d := .x, a := .vector, b := .scalar, result := true }
    else if f = 17 || f = 18 then some { engine := .x, d := .x, a := .unused, b := .field, result := true }
    else none
  | 0x14 => some { engine := .x, d := .x, a := .scalar, b := .scalar, result := true, hOk := true }
  | 0x15 => some { engine := .x, d := .unused, a := .field, b := .field, lit := true }
  | 0x16 => some { engine := .x, d := .unused, a := .field, b := .field, lit := true }
  | 0x17 => some { engine := .x, d := .unused, a := .unused, b := .field, lit := true }
  | 0x18 =>
    if f = 0 then some { engine := .x, d := .unused, a := .scalar, b := .unused, hOk := true }
    else if f = 16 then some { engine := .x, d := .unused, a := .unused, b := .field, lit := true }
    else none
  | 0x19 => if f = 0 then some { engine := .x, d := .unused, a := .unused, b := .unused } else none
  | 0x1A =>
    if f < 2 then some { engine := .x, d := .unused, a := .field, b := .field }
    else if f = 2 then some { engine := .x, d := .unused, a := .unused, b := .unused } else none
  | 0x1B =>
    if f = 0 then some { engine := .x, d := .unused, a := .unused, b := .unused }
    else if f = 1 then some { engine := .x, d := .unused, a := .scalar, b := .unused, hOk := true } else none
  | 0x1C => some { engine := .x, d := .x, a := .unused, b := .field, result := true }
  | 0x1D => some { engine := .x, d := .unused, a := .scalar, b := .field, hOk := true }
  | _ => none

/-- R103, with the F values of R109 to R111, R117, R120, R122, R127 and R128. -/
def formG (op : Nat) (f : Nat) : Option Form :=
  let sp := f / 8
  match op with
  | 0x20 => if sp = 3 then none else some { engine := .g, d := .stream, a := .scalar, b := .unused, hOk := true }
  | 0x21 =>
    if f % 8 = 7 then some { engine := .g, d := .stream, a := .unused, b := .unused }
    else if f % 8 = 6 then none
    else some { engine := .g, d := .stream, a := .scalar, b := .scalar, hOk := true }
  | 0x22 =>
    if (sp < 2 && f % 8 < 7) || f = 30 then
      some { engine := .g, d := .x, a := .scalar, b := .field, lit := true, result := true, hOk := true }
    else none
  | 0x23 =>
    if (sp < 2 && f % 2 = 0) || f = 30 then
      some { engine := .g, d := .unused, a := .scalar, b := .scalar, lit := true, hOk := true }
    else none
  | 0x24 =>
    if sp < 2 && f % 8 = 0 then some { engine := .g, d := .v, a := .scalar, b := .field, lit := true, hOk := true }
    else none
  | 0x25 =>
    if sp < 2 && f % 8 < 2 then
      some { engine := .g, d := .unused, a := .vector, b := .scalar, lit := true, hOk := true }
    else none
  | 0x26 => if sp = 0 then some { engine := .g, d := .unused, a := .vector, b := .scalar, hOk := true } else none
  | 0x27 =>
    if f % 16 < 10 || f = 10 || f = 11 then
      some { engine := .g, d := .x, a := .scalar, b := .scalar, result := true, hOk := true,
             third := if f % 16 = 9 then .x else .none }
    else none
  | 0x28 => if f = 0 then some { engine := .g, d := .x, a := .scalar, b := .unused, result := true, hOk := true } else none
  | 0x29 => if f = 0 then some { engine := .g, d := .x, a := .scalar, b := .unused, result := true, hOk := true } else none
  | 0x2A => if f = 0 then some { engine := .g, d := .unused, a := .unused, b := .unused } else none
  | 0x2B => if f < 2 then some { engine := .g, d := .x, a := .scalar, b := .unused, result := true, hOk := true } else none
  | 0x2C =>
    if f < 2 then
      some { engine := .g, d := .unused, a := if f = 0 then .scalar else .vector, b := .scalar, hOk := true }
    else none
  | 0x2D =>
    if f < 2 then
      some { engine := .g, d := if f = 0 then .x else .v, a := .scalar, b := .unused, result := f = 0, hOk := true }
    else none
  | 0x2E => if sp = 0 then some { engine := .g, d := .unused, a := .scalar, b := .field, late := true } else none
  | _ => none

/-- R132, with the F values of R135, R138, R141 to R151. -/
def formV (op : Nat) (f : Nat) : Option Form :=
  let t := f / 4
  let m := f % 4
  let vv : Form := { engine := .v, d := .v, a := .vector, b := .vector, result := true, hOk := true }
  let when (c : Bool) (x : Form) : Option Form := if c then some x else none
  match op with
  | 0x30 => when (t < 5 && m < 3) vv
  | 0x31 => when (t < 5 && m < 3) vv
  | 0x32 => when (t < 5 && m < 3) vv
  | 0x33 => when (t < 5 && m < 3) { vv with third := .v }
  | 0x34 => when ((t < 3 && m < 2) || t = 3 || t = 4) vv
  | 0x35 =>
    if f / 16 = 1 then some { engine := .v, d := .predLow, a := .field, b := .field, result := true }
    else if f < 5 then some vv
    else if f = 5 then some { vv with b := .unused }
    else none
  | 0x36 => when (t = 3 || t = 4) vv
  | 0x37 =>
    when (f < 28) { vv with b := .field,
                            third := if f = 0 || f = 1 || f = 6 || f = 7 || f = 10 || f = 11 || f = 16 || f = 18 || f = 20
                                        || f = 27 then .v else .none }
  | 0x38 => when (t < 5 && m < 3) { vv with b := .field }
  | 0x39 => when (t < 3 && m < 2) { vv with b := .field }
  | 0x3A => when (t < 3 && m = 0) { vv with b := .field }
  | 0x3B => when (t < 3 && m < 2) { vv with b := .field }
  | 0x3C => some { vv with d := .pred, lit := true }
  | 0x3D => some vv
  | 0x3E => when (t < 5) vv
  | 0x3F =>
    if f < 4 then some { engine := .v, d := .v, a := .scalar, b := .unused, result := true, hOk := true }
    else if f < 8 then some { engine := .v, d := .v, a := .field, b := .unused, lit := true, result := true }
    else none
  | 0x40 =>
    when (f / 8 < 3 && f / 2 % 4 < 2) { vv with b := if f % 2 = 0 then .scalar else .vector, lit := f / 8 = 2, third := .v }
  | 0x41 => when (t < 5 && m < 3) { vv with b := .scalar, lit := true, third := .v }
  | 0x42 => when (t = 0) { engine := .v, d := .unused, a := .field, b := .unused }
  | 0x43 => when (f = 0) { engine := .v, d := .unused, a := .unused, b := .unused }
  | 0x44 => when (f = 0) { engine := .v, d := .unused, a := .unused, b := .unused }
  | 0x45 =>
    match t with
    | 0 => when (m = 0) { vv with b := .unused }
    | 1 => some { engine := .v, d := .v, a := .field, b := .unused, result := true }
    | 2 => some { engine := .v, d := .predLow, a := .vector, b := .unused, result := true }
    | 3 => some { engine := .v, d := .v, a := .field, b := .unused, result := true }
    | 4 => when (m = 0) { engine := .v, d := .v, a := .scalar, b := .field, result := true, hOk := true, third := .v }
    | _ => none
  | 0x46 =>
    when (f < 8) { engine := .v, d := .v, a := .scalar, b := if f / 4 = 1 then .scalar else .unused, result := true,
                   hOk := true }
  | 0x47 => when (t < 3) vv
  | _ => none

/-- R178, with the F values of R183, R187 to R194, R197, R200, R202 and R204. An MMVB with F[2:0] ≠ 7 is K-070's. -/
def formMK (op : Nat) (f : Nat) : Option Form :=
  let when (c : Bool) (x : Form) : Option Form := if c then some x else none
  let vs : Form := { engine := .m, d := .unused, a := .vector, b := .scalar, hOk := true }
  let kk : Form := { engine := .k, d := .ctl, a := .scalar, b := .scalar, hOk := true, third := .x }
  match op with
  | 0x50 => some { vs with late := true }
  | 0x51 => some { vs with late := true }
  | 0x52 => some { vs with late := true }
  | 0x53 => some { vs with late := true }
  | 0x54 => when (f / 8 < 2 && f / 4 % 2 = 0) { vs with a := .scalar }
  | 0x55 => when (f < 4) { engine := .m, d := .unused, a := .unused, b := .unused }
  | 0x56 => when (f < 4) vs
  | 0x57 =>
    match f with
    | 0 => some vs
    | 1 => some { engine := .m, d := .unused, a := .unused, b := .scalar }
    | 2 => some { engine := .m, d := .v, a := .unused, b := .scalar, result := true }
    | _ => none
  | 0x58 =>
    match f with
    | 0 => some { vs with a := .scalar }
    | 1 => some { engine := .m, d := .x, a := .unused, b := .scalar, result := true }
    | _ => none
  | 0x59 => when (f < 3) { engine := .m, d := .v, a := .unused, b := .scalar, result := true }
  | 0x5A => when (f % 16 = 0 || f % 16 = 2) vs
  | 0x5B =>
    match f % 16 with
    | 0 => some { engine := .m, d := .unused, a := .unused, b := .scalar }
    | 1 => some { vs with a := .scalar }
    | 2 => some vs
    | _ => none
  | 0x60 => when (f < 16) kk
  | 0x61 => when (f < 8) kk
  | 0x62 => when (f = 0) kk
  | 0x63 => when (f = 0) { kk with third := .xPair }
  | 0x64 => when (f = 0 || f = 8) { engine := .k, d := .x, a := .scalar, b := .unused, result := true, hOk := true }
  | 0x65 => when (f < 12) { engine := .k, d := .x, a := .unused, b := .unused, result := true }
  | 0x66 => when (f ≠ 0) { engine := .k, d := .unused, a := .unused, b := .unused }
  | _ => none

/-- R234, with the F values of R235, R244, R245, R253 and R254. -/
def formY (op : Nat) (f : Nat) : Option Form :=
  let when (c : Bool) (x : Form) : Option Form := if c then some x else none
  let sc (a b : Kind) (h : Bool) : Form := { engine := .y, d := .x, a := a, b := b, result := true, hOk := h }
  match op with
  | 0x68 => if f < 2 then some (sc .scalar .field true) else when (f = 2) (sc .unused .field false)
  | 0x69 => if f = 0 then some (sc .scalar .field true) else when (f = 1) (sc .unused .field false)
  | 0x6A => when (f = 0) (sc .scalar .field true)
  | 0x6B => when (f = 0) { engine := .y, d := .unused, a := .scalar, b := .unused, hOk := true }
  | 0x6C => if f = 3 then some (sc .scalar .field true) else when (f < 5) (sc .unused .field false)
  | 0x6D => when (f = 0) { engine := .y, d := .unused, a := .vector, b := .scalar, hOk := true }
  | 0x6E => when (f = 0) { engine := .y, d := .v, a := .unused, b := .field }
  | 0x6F => when (f = 0) (sc .unused .field false)
  | 0x70 => when (f = 0 || f = 8) (sc .scalar .unused true)
  | 0x71 => if f = 0 then some (sc .unused .unused false) else when (f = 1) (sc .scalar .unused true)
  | 0x72 => when (f = 0) (sc .scalar .unused true)
  | 0x73 => when (f = 0) (sc .unused .field false)
  | _ => none

/-- The opcode map (R69): is the opcode assigned to an engine? -/
def opAssigned (op : Nat) : Bool :=
  (0x08 ≤ op && op ≤ 0x1D) || (0x20 ≤ op && op ≤ 0x2E) || (0x30 ≤ op && op ≤ 0x47) || (0x50 ≤ op && op ≤ 0x5B)
    || (0x60 ≤ op && op ≤ 0x66) || (0x68 ≤ op && op ≤ 0x73)

/-- The form a slot has: its opcode, F, whether a literal is attached, and HI = A[5] for MOVI (R86). -/
def form (op : BitVec 7) (w : Slot) (lit : Bool) : Option Form :=
  let o := op.toNat
  let f := w.f.toNat
  if o < 0x20 then formX o f lit w.a.msb
  else if o < 0x30 then formG o f
  else if o < 0x50 then formV o f
  else if o < 0x68 then formMK o f
  else formY o f

/-- The class of R211. FENCE, MWT, PREQ and PREF are among the slots with a memory access (log entry 65). -/
def slotClass (op : BitVec 7) : SlotClass :=
  let o := op.toNat
  if 0x15 ≤ o && o ≤ 0x19 then .control
  else if o = 0x1A || o = 0x1B then .service
  else if o = 0x1D || (0x20 ≤ o && o < 0x30) || (0x42 ≤ o && o ≤ 0x44) || 0x50 ≤ o then .deferred
  else .plain

/-- A stream port s0 to s15 (R54). -/
def isPort (code : BitVec 6) : Bool := 48 ≤ code.toNat

/-- Does the slot read a stream port? -/
def readsPort (fm : Form) (w : Slot) : Bool :=
  ((fm.a = .scalar || fm.a = .vector) && isPort w.a) || ((fm.b = .scalar || fm.b = .vector) && isPort w.b)

/-- R54, R55: may a position of this kind hold this code? A code 44 to 46 is K-002's and passes here. -/
def kindAccepts (k : Kind) (code : BitVec 6) : Bool :=
  let c := code.toNat
  match k with
  | .scalar => !(36 ≤ c && c ≤ 41)
  | .vector => !(32 ≤ c && c ≤ 35) && c ≠ 42 && c ≠ 43
  | .field => true
  | .unused => c = 0

/-- The numbers of R28 and R216, with the right to write. -/
def sysRegWritable (num : Nat) : Option Bool :=
  if num = 0x000 || num = 0x001 || num = 0x002 || num = 0x020 || num = 0x021 || num = 0x022 || num = 0x030 then some false
  else if num = 0x008 || num = 0x009 || (0x010 ≤ num && num ≤ 0x015) || (0x018 ≤ num && num ≤ 0x01D) || num = 0x031
      || num = 0x032 then some true
  else none

/-- The number a CSRR or CSRW names (R100). -/
def Slot.sysReg (w : Slot) : Nat := w.b.toNat * 32 + w.f.toNat

/-- Ratio of a VCVT pair: the wider element width over the narrower (R141). -/
def vcvtRatio (f : Nat) : Nat :=
  match f with
  | 0 | 1 | 2 | 3 | 10 | 11 | 12 | 13 | 18 | 19 => 2
  | 6 | 7 | 8 | 9 | 16 | 17 | 20 | 21 | 22 | 24 | 26 | 27 => 4
  | 23 | 25 => 8
  | _ => 1

/-- Ratio of a VQNT target (R143). -/
def vqntRatio (t : Nat) : Nat :=
  match t with
  | 1 => 8
  | 2 => 16
  | _ => 4

/-- An assigned MODE code (R133). -/
def modeOk (m : Nat) : Bool := m = 0 || 4 ≤ m

/-- The check codes that the engine chapters give a slot beyond its operand kinds: K-003 for VCMP's type, K-034,
K-050 to K-054, K-060, K-061, K-070, K-072, K-080 to K-083, and the K-013 cases named for single opcodes. -/
def chapterChecks (op : BitVec 7) (w : Slot) (lit : Option (BitVec 24)) : List Nat :=
  let o := op.toNat
  let f := w.f.toNat
  let b := w.b.toNat
  let a := w.a.toNat
  let d := w.d.toNat
  let l := (lit.getD 0).toNat
  let check (k : Nat) (bad : Bool) : List Nat := if bad then [k] else []
  match o with
  | 0x1C => check 34 (sysRegWritable w.sysReg).isNone
  | 0x1D => check 34 (sysRegWritable w.sysReg ≠ some true)
  | 0x20 => check 13 (16 ≤ d)
  | 0x21 => check 13 (f % 8 = 7 && 16 ≤ d)
  | 0x22 => memChecks (f / 8) a lit.isSome l ++ check 11 (l / 2 ^ 21 % 2 = 1 && lit.isSome && d = a && d ≠ 0)
  | 0x23 => memChecks (f / 8) b lit.isSome l
  | 0x24 => memChecks (f / 8) a lit.isSome l
  | 0x25 => memChecks (f / 8) b lit.isSome l
  | 0x35 => check 13 (f / 16 = 1 && (31 < a || 31 < b))
  | 0x37 => check 60 (!modeOk (b % 8) || vcvtRatio f ≤ b / 8)
  | 0x38 =>
    let t := f / 4
    let rounds := f % 4 = 0 && t < 3
    check 60 (!modeOk (b % 8) || 16 ≤ b || (b / 8 = 1 && !(f % 4 = 0 && (t = 1 || t = 2 || t = 4)))
      || (!rounds && b % 8 ≠ 4))
  | 0x39 => check 60 (!modeOk (b % 8) || 8 ≤ b)
  | 0x3A => check 60 (!modeOk (b % 8) || 8 ≤ b)
  | 0x3B => check 60 (!modeOk (b % 8) || 8 ≤ b)
  | 0x3C => check 3 (4 < l % 8) ++ check 61 (8 ≤ l)
  | 0x40 => check 61 (8 ≤ l)
  | 0x41 => check 60 (vqntRatio (f / 4) ≤ l % 16) ++ check 61 (16 ≤ l)
  | 0x42 => check 13 (31 < a)
  | 0x45 => check 13 ((f / 4 = 1 || f / 4 = 3) && 31 < a) ++ check 60 (f / 4 = 4 && 31 < b)
  | 0x53 => check 70 (f % 8 ≠ 7)
  | 0x63 => check 72 (d % 2 = 1 || d = 0)
  | 0x68 => check 80 (23 < b)
  | 0x69 => check 80 (23 < b)
  | 0x6A => check 80 (23 < b)
  | 0x6C => check 81 (15 < b)
  | 0x6E => check 82 (7 < b)
  | 0x6F => check 82 (7 < b)
  | 0x73 => check 83 (b = 7 || 9 < b)
  | _ => []
where
  /-- R112: K-050, K-051 and K-054 of a load or store's literal. -/
  memChecks (sp base : Nat) (has : Bool) (l : Nat) : List Nat :=
    if has then
      (if l / 2 ^ 21 % 2 = 1 && (sp = 3 || base = 0 || 31 < base) then [50] else [])
        ++ (if l / 2 ^ 22 ≠ 0 && sp ≠ 0 then [51] else [])
        ++ (if l / 2 ^ 20 % 2 = 1 then [54] else [])
    else []

/-- K-013 of the common fields: D, N, H, and A or B in an unused position (R55 to R58). -/
def fieldChecks (fm : Form) (w : Slot) : List Nat :=
  if (fm.d = .unused && w.d ≠ 0) || (w.n && (!fm.result || w.d ≠ 0)) || (w.h && !fm.hOk)
      || (fm.a = .unused && w.a ≠ 0) || (fm.b = .unused && w.b ≠ 0) then [13] else []

/-- K-002: a reserved operand code 44 to 46 in a position of a source kind (R54). -/
def reservedCode (k : Kind) (code : BitVec 6) : Bool :=
  (k = .scalar || k = .vector) && 44 ≤ code.toNat && code.toNat ≤ 46

/-- An F that the opcode's chapter assigns and that gives A and B the kinds they have whatever F holds elsewhere: the field
tables of R78, R103, R132, R178 and R234. Where the part of F that names the form is itself unassigned, it is that of a form
without an A, so that B keeps the kind it has in every form (MCAL, MSMP, MACS). -/
def kindsF (op : Nat) (f : BitVec 5) : BitVec 5 :=
  if op = 0x13 then f
  else if op < 0x20 || op = 0x35 then f &&& 16
  else if op = 0x36 then 12
  else if op = 0x3F || op = 0x46 then f &&& 7
  else if op = 0x40 then f &&& 1
  else if op = 0x45 then f &&& 0x1C
  else if op = 0x57 then if f &&& 3 = 3 then 1 else f &&& 3
  else if op = 0x58 then if 2 ≤ (f &&& 3).toNat then 1 else f &&& 3
  else if op = 0x5B then if f &&& 3 = 3 then 0 else f &&& 3
  else 0

/-- The codes of a slot whose F its opcode does not assign: K-003, and K-002 where a source position holds a reserved code. -/
def unassignedF (op : BitVec 7) (w : Slot) (lit : Bool) : List Nat :=
  match form op { w with f := kindsF op.toNat w.f } lit with
  | some fm => if reservedCode fm.a w.a || reservedCode fm.b w.b then [2, 3] else [3]
  | none => [3]

/-- All check codes that one engine slot breaks, whatever the image's kind. -/
def slotChecks (op : BitVec 7) (w : Slot) (lit : Option (BitVec 24)) : List Nat :=
  if !opAssigned op.toNat then [1]
  else match form op w lit.isSome with
    | none => unassignedF op w lit.isSome
    | some fm =>
      (if reservedCode fm.a w.a || reservedCode fm.b w.b then [2] else [])
        ++ (if lit.isSome && !fm.lit then [8] else [])
        ++ (if (fm.a ≠ .unused && !kindAccepts fm.a w.a) || (fm.b ≠ .unused && !kindAccepts fm.b w.b) then [12] else [])
        ++ fieldChecks fm w ++ chapterChecks op w lit

/-- The check codes that depend on the image's kind: K-047, K-048 and K-071. -/
def imageKindChecks (service : Bool) (op : BitVec 7) (w : Slot) : List Nat :=
  let o := op.toNat
  let f := w.f.toNat
  let check (k : Nat) (bad : Bool) : List Nat := if bad then [k] else []
  match o with
  | 0x1A => check 47 (if f = 2 then !service else service)
  | 0x1B => check 47 service
  | 0x1C => check 48 (!service && 0x030 ≤ w.sysReg && w.sysReg ≤ 0x032)
  | 0x1D => check 48 (!service && 0x030 ≤ w.sysReg && w.sysReg ≤ 0x032)
  | 0x57 => check 71 (!service && f < 2)
  | 0x58 => check 71 (!service && f = 0)
  | _ => []

/-- The bits an engine slot's word has (R52). -/
def Slot.word (w : Slot) (op : BitVec 7) : BitVec 32 :=
  BitVec.ofBool w.stop ++ op ++ BitVec.ofBool w.n ++ BitVec.ofBool w.h ++ w.d ++ w.a ++ w.b ++ w.f

/-- Why a word is no slot of a sealed image. -/
inductive Reject where
  /-- a check code K-nnn refuses it (R71, R307); the number is nnn, the lowest that applies -/
  | checkCode (number : Nat)
deriving DecidableEq, Repr

/-- The fields of an engine slot's word (R52). -/
def Slot.ofWord (w : BitVec 32) : Slot where
  stop := w.getLsbD 31
  n := w.getLsbD 23
  h := w.getLsbD 22
  d := w.extractLsb' 17 5
  a := w.extractLsb' 11 6
  b := w.extractLsb' 5 6
  f := w.extractLsb' 0 5

/-- The constructor an engine slot's opcode and F name; MOVI's forms also by HI and the literal (R86). -/
def decodeSlot (lit : Bool) (op : Nat) (w : Slot) : Option Instr :=
  match op with
  | 0x08 => some (.add w)
  | 0x09 => some (.sub w)
  | 0x0a => some (.and w)
  | 0x0b => some (.or w)
  | 0x0c => some (.xor w)
  | 0x0d => some (.shf w)
  | 0x0e => some (.mul w)
  | 0x0f => some (.div w)
  | 0x10 => some (.mnx w)
  | 0x11 => some (.cmp w)
  | 0x12 =>
    if !w.a.msb then some (.movi w)
    else if w.a.msb && !lit then some (.moviTop w)
    else if w.a.msb && lit then some (.moviUpper w)
    else none
  | 0x13 =>
    if w.f == 0 then some (.movx w)
    else if w.f &&& 0x1c == 0 && w.f ≠ 0 then some (.movxSignExtend w)
    else if w.f &&& 0x1c == 4 then some (.movxZeroExtend w)
    else if w.f == 8 then some (.movxSif w)
    else if w.f == 9 then some (.movxUif w)
    else if w.f == 10 then some (.movxFsi w)
    else if w.f == 11 then some (.movxFui w)
    else if w.f == 16 then some (.movxVlane w)
    else if w.f == 17 then some (.movxIdx w)
    else if w.f == 18 then some (.movxCnt w)
    else none
  | 0x14 => some (.sel w)
  | 0x15 =>
    if w.f &&& 0x10 == 0 then some (.br w)
    else if w.f &&& 0x10 == 16 then some (.brNot w)
    else none
  | 0x16 => some (.jmp w)
  | 0x17 => some (.bru w)
  | 0x18 =>
    if w.f == 0 then some (.loop w)
    else if w.f == 16 then some (.loopN w)
    else none
  | 0x19 => some (.next w)
  | 0x1a =>
    if w.f == 0 then some (.svcCall w)
    else if w.f == 1 then some (.svcTrap w)
    else if w.f == 2 then some (.svcTret w)
    else none
  | 0x1b =>
    if w.f == 0 then some (.halt w)
    else if w.f == 1 then some (.haltFail w)
    else none
  | 0x1c => some (.csrr w)
  | 0x1d => some (.csrw w)
  | 0x20 => some (.strm w)
  | 0x21 =>
    if w.f &&& 7 ≠ 7 then some (.strx w)
    else if w.f &&& 0x7 == 7 then some (.strxOff w)
    else none
  | 0x22 =>
    if w.f == 30 then some (.ldQe w)
    else some (.ld w)
  | 0x23 =>
    if w.f == 30 then some (.stQe w)
    else some (.st w)
  | 0x24 => some (.vld w)
  | 0x25 => some (.vst w)
  | 0x26 => some (.gath w)
  | 0x27 => some (.amo w)
  | 0x28 => some (.mon w)
  | 0x29 => some (.mwt w)
  | 0x2a => some (.fence w)
  | 0x2b =>
    if w.f == 0 then some (.preq w)
    else if w.f == 1 then some (.preqW w)
    else none
  | 0x2c =>
    if w.f == 0 then some (.qpsh w)
    else if w.f == 1 then some (.qpshV w)
    else none
  | 0x2d =>
    if w.f == 0 then some (.qpop w)
    else if w.f == 1 then some (.qpopV w)
    else none
  | 0x2e => some (.pref w)
  | 0x30 => some (.vadd w)
  | 0x31 => some (.vsub w)
  | 0x32 => some (.vmul w)
  | 0x33 => some (.vfma w)
  | 0x34 => some (.vmnx w)
  | 0x35 =>
    if w.f &&& 0x18 == 0 then some (.vlog w)
    else if w.f &&& 0x10 == 16 then some (.vlogP w)
    else none
  | 0x36 => some (.vshf w)
  | 0x37 => some (.vcvt w)
  | 0x38 => some (.vred w)
  | 0x39 => some (.vexp w)
  | 0x3a => some (.vrcp w)
  | 0x3b =>
    if w.f &&& 0x3 == 0 then some (.vrsq w)
    else if w.f &&& 0x3 == 1 then some (.vsqrt w)
    else none
  | 0x3c => some (.vcmp w)
  | 0x3d => some (.vsel w)
  | 0x3e => some (.vprm w)
  | 0x3f =>
    if w.f &&& 0x1c == 0 then some (.vbrd w)
    else if w.f &&& 0x1c == 4 then some (.vbrdImm w)
    else none
  | 0x40 => some (.vsca w)
  | 0x41 => some (.vqnt w)
  | 0x42 => some (.vmps w)
  | 0x43 => some (.vmiv w)
  | 0x44 => some (.vmpp w)
  | 0x45 =>
    if w.f == 0 then some (.vmov w)
    else if w.f &&& 0x1c == 4 then some (.vmovFp w)
    else if w.f &&& 0x1c == 8 then some (.vmovTp w)
    else if w.f &&& 0x1c == 12 then some (.vmovExp w)
    else if w.f == 16 then some (.vmovIns w)
    else none
  | 0x46 => some (.viot w)
  | 0x47 => some (.vrmx w)
  | 0x50 => some (.mmv8 w)
  | 0x51 => some (.mmv4 w)
  | 0x52 => some (.mmv2 w)
  | 0x53 => some (.mmvb w)
  | 0x54 => some (.mwld w)
  | 0x55 => some (.mwsl w)
  | 0x56 => some (.mwup w)
  | 0x57 =>
    if w.f == 0 then some (.mcalW w)
    else if w.f == 1 then some (.mcalInv w)
    else if w.f == 2 then some (.mcalR w)
    else none
  | 0x58 =>
    if w.f == 0 then some (.msmpSet w)
    else if w.f == 1 then some (.msmpRd w)
    else none
  | 0x59 =>
    if w.f == 0 then some (.macrV w)
    else if w.f == 1 then some (.macrB w)
    else if w.f == 2 then some (.macrP w)
    else none
  | 0x5a =>
    if w.f &&& 0xf == 0 then some (.macwV w)
    else if w.f &&& 0xf == 2 then some (.macwP w)
    else none
  | 0x5b =>
    if w.f &&& 0xf == 0 then some (.macsZ w)
    else if w.f &&& 0xf == 1 then some (.macsS w)
    else if w.f &&& 0xf == 2 then some (.macsV w)
    else none
  | 0x60 => some (.copy w)
  | 0x61 => some (.mcst w)
  | 0x62 => some (.get w)
  | 0x63 => some (.put w)
  | 0x64 => some (.job w)
  | 0x65 =>
    if w.f &&& 0x1c == 0 then some (.wptrP w)
    else if w.f &&& 0x1c == 4 then some (.wptrS w)
    else if w.f &&& 0x1c == 8 then some (.wptrT w)
    else none
  | 0x66 => some (.ksyn w)
  | 0x68 =>
    if w.f == 0 then some (.rvin w)
    else if w.f == 1 then some (.rvinB w)
    else if w.f == 2 then some (.rvinRd w)
    else none
  | 0x69 =>
    if w.f == 0 then some (.arv w)
    else if w.f == 1 then some (.arvOne w)
    else none
  | 0x6a => some (.rvwt w)
  | 0x6b => some (.give w)
  | 0x6c =>
    if w.f == 0 then some (.bmapAlloc w)
    else if w.f == 1 then some (.bmapAllocz w)
    else if w.f == 2 then some (.bmapFree w)
    else if w.f == 3 then some (.bmapShare w)
    else if w.f == 4 then some (.bmapRd w)
    else none
  | 0x6d => some (.send w)
  | 0x6e => some (.recv w)
  | 0x6f => some (.mprb w)
  | 0x70 => some (.task w)
  | 0x71 =>
    if w.f == 0 then some (.timeNow w)
    else if w.f == 1 then some (.timeUntil w)
    else none
  | 0x72 => some (.yld w)
  | 0x73 => some (.hlth w)
  | _ => none

/-- The lowest check code of a list (R71: the lowest-numbered code is reported). -/
def lowestCode (codes : List Nat) : Nat := codes.foldl min 999

/-- A prefix slot's word (R60): what it decodes to, or its refusal by K-010, K-009 or K-014. -/
def decodePrefix (op : Nat) (w : BitVec 32) : Except Reject Instr :=
  match op with
  | 0 => if w.extractLsb' 0 24 = 0 then .ok (.nop (w.getLsbD 31)) else .error (.checkCode 14)
  | 1 => if w.getLsbD 31 then .error (.checkCode 8) else .ok (.lit (w.extractLsb' 0 24))
  | 2 =>
    if w.getLsbD 31 then .error (.checkCode 8)
    else if w.extractLsb' 8 8 = 0 then .error (.checkCode 9)
    else if w.getLsbD 23 || w.extractLsb' 0 7 ≠ 0 then .error (.checkCode 14)
    else .ok (.guard (w.extractLsb' 16 7) (w.extractLsb' 8 8) (w.getLsbD 7))
  | 3 =>
    if w.getLsbD 31 then .error (.checkCode 8)
    else if 6 ≤ (w.extractLsb' 0 5).toNat then .error (.checkCode 10)
    else if w.extractLsb' 5 19 ≠ 0 then .error (.checkCode 14)
    else .ok (.scope (w.extractLsb' 0 5))
  | _ => .error (.checkCode 1)

/-- Decode one 32-bit word, with the literal of the LIT that stands directly before it, if any (R62). -/
def decode (lit : Option (BitVec 24)) (w : BitVec 32) : Except Reject Instr :=
  let op := (w.extractLsb' 24 7).toNat
  if op < 4 then decodePrefix op w
  else
    let s := Slot.ofWord w
    match slotChecks (w.extractLsb' 24 7) s lit with
    | [] =>
      match decodeSlot lit.isSome op s with
      | some i => .ok i
      | none => .error (.checkCode 3)
    | codes => .error (.checkCode (lowestCode codes))

/-- The words of a step: the one 32-bit word of a slot; an event has none. -/
def encode : Instr → List (BitVec 32)
  | .nop stop => [BitVec.ofBool stop ++ 0#31]
  | .lit l => [0x01#8 ++ l]
  | .guard p m o => [0x02#8 ++ 0#1 ++ p ++ m ++ BitVec.ofBool o ++ 0#7]
  | .scope c => [0x03#8 ++ 0#19 ++ c]
  | i =>
    match i.slot? with
    | some (op, w) => [w.word op]
    | none => []

/-- The instruction the decoder reads from a table row's word: every row with bits has 32 of them, one slot word, and
no LIT stands before it. -/
def decodeTableWord (nbits w : Nat) : Option Instr :=
  if nbits = 32 then
    match decode none (BitVec.ofNat 32 w) with
    | .ok i => some i
    | .error _ => none
  else none

end Sys2Proof
end

