-- ==== Sys2Proof/Machine/Float.lean ====
section
/-! DEFINITION. Number formats, rounding and exact arithmetic (spec 02 R33 to R46, R50). Values are exact dyadic numbers;
every operation computes exactly and rounds once at the end. -/

namespace Sys2Proof.Machine

/-- A floating format (R33): exponent and mantissa widths, and whether E all ones holds infinities (R34). -/
structure Fmt where
  ebits : Nat
  mbits : Nat
  ieee : Bool
deriving DecidableEq, Repr

def fp32 : Fmt := ⟨8, 23, true⟩
def bf16 : Fmt := ⟨8, 7, true⟩
def fp16 : Fmt := ⟨5, 10, true⟩
def e5m2 : Fmt := ⟨5, 2, true⟩
def e4m3 : Fmt := ⟨4, 3, false⟩

namespace Fmt
def bias (f : Fmt) : Int := 2 ^ (f.ebits - 1) - 1
def width (f : Fmt) : Nat := f.ebits + f.mbits + 1
/-- Exponent of the smallest subnormal. -/
def emin (f : Fmt) : Int := 1 - f.bias - f.mbits
/-- The pattern of +∞, for the formats that have one. -/
def infBits (f : Fmt) : Nat := (2 ^ f.ebits - 1) * 2 ^ f.mbits
/-- The pattern of the largest finite value (R33, R34). -/
def maxBits (f : Fmt) : Nat := if f.ieee then f.infBits - 1 else f.infBits + 2 ^ f.mbits - 2
/-- The canonical quiet NaN (R34). -/
def nanBits (f : Fmt) : Nat := if f.ieee then f.infBits + 2 ^ (f.mbits - 1) else f.infBits + 2 ^ f.mbits - 1
def signBit (f : Fmt) : Nat := 2 ^ (f.ebits + f.mbits)
end Fmt

/-- Rounding modes, in the encoding of sr.round (R28, R41). -/
inductive Rnd where
  | nearest | zero | up | down
deriving DecidableEq, Repr

def Rnd.ofCode (n : Nat) : Rnd :=
  match n % 4 with
  | 0 => .nearest
  | 1 => .zero
  | 2 => .up
  | _ => .down

/-- An exact value: a NaN, an infinity, or ±m × 2^e. -/
inductive Val where
  | nan (signalling : Bool)
  | inf (neg : Bool)
  | fin (neg : Bool) (m : Nat) (e : Int)
deriving DecidableEq, Repr

/-- Read a pattern (R33, R34). -/
def Val.read (f : Fmt) (p : Nat) : Val :=
  let neg := decide (f.signBit ≤ p)
  let q := p % f.signBit
  let ex := q / 2 ^ f.mbits
  let m := q % 2 ^ f.mbits
  if f.ieee && f.infBits ≤ q then
    if m = 0 then .inf neg else .nan (decide (m < 2 ^ (f.mbits - 1)))
  else if !f.ieee && q = f.nanBits then .nan false
  else if ex = 0 then .fin neg m f.emin
  else .fin neg (2 ^ f.mbits + m) (f.emin + ex - 1)

def Val.ofInt (i : Int) : Val := .fin (decide (i < 0)) i.natAbs 0

def Val.isNan : Val → Bool
  | .nan _ => true
  | _ => false

def Val.isInf : Val → Bool
  | .inf _ => true
  | _ => false

def Val.isFinite : Val → Bool
  | .fin _ _ _ => true
  | _ => false

def Val.isZero : Val → Bool
  | .fin _ m _ => m = 0
  | _ => false

def Val.negative : Val → Bool
  | .nan _ => false
  | .inf n => n
  | .fin n m _ => n && m ≠ 0

def Val.neg : Val → Val
  | .nan s => .nan s
  | .inf n => .inf (!n)
  | .fin n m e => .fin (!n) m e

def Val.abs : Val → Val
  | .nan s => .nan s
  | .inf _ => .inf false
  | .fin _ m e => .fin false m e

/-- Invalid for a signalling operand (R34). -/
def Val.sigFlag : Val → Flags
  | .nan true => Flags.invalid
  | _ => 0

def bitLen (n : Nat) : Nat := if n = 0 then 0 else n.log2 + 1

/-- m × 2^sh with a negative sh dropping low bits. -/
def shiftNat (m : Nat) (sh : Int) : Nat := if 0 ≤ sh then m * 2 ^ sh.toNat else m / 2 ^ (-sh).toNat

/-- Does a magnitude round up in a mode, given the parity of the kept part and what was cut off? -/
def roundsUp (mode : Rnd) (neg odd : Bool) (rem half : Nat) (sticky : Bool) : Bool :=
  match mode with
  | .nearest => half < rem || (rem = half && (sticky || odd))
  | .zero => false
  | .up => !neg && (rem ≠ 0 || sticky)
  | .down => neg && (rem ≠ 0 || sticky)

/-- m × 2^e (a little more when sticky) rounded to a multiple of 2^qe: the count of multiples, and was it inexact. -/
def roundTo (mode : Rnd) (neg : Bool) (m : Nat) (e : Int) (sticky : Bool) (qe : Int) : Nat × Bool :=
  if qe ≤ e then (m * 2 ^ (e - qe).toNat, sticky)
  else
    let sh := (qe - e).toNat
    let q := m / 2 ^ sh
    let rem := m % 2 ^ sh
    let up := roundsUp mode neg (q % 2 = 1) rem (2 ^ (sh - 1)) sticky
    (if up then q + 1 else q, rem ≠ 0 || sticky)

/-- Is the value, rounded with an unbounded exponent, below the smallest normal (R35: tininess after rounding)? -/
def isTiny (f : Fmt) (mode : Rnd) (neg : Bool) (m : Nat) (e : Int) (sticky : Bool) : Bool :=
  let top := e + bitLen m
  let norm := f.emin + f.mbits
  if norm < top then false
  else
    let p := f.mbits + 1
    let r := (roundTo mode neg m e sticky (top - p)).1
    !(top = norm && r = 2 ^ p)

/-- What overflow delivers (R42). -/
def overflowBits (f : Fmt) (mode : Rnd) (neg : Bool) : Nat :=
  let toInf := match mode with
    | .nearest => true
    | .zero => false
    | .up => !neg
    | .down => neg
  if toInf then f.infBits else f.maxBits

/-- The magnitude pattern a finite value rounds to with the exponent range unbounded above, and inexactness. -/
def roundMag (f : Fmt) (mode : Rnd) (neg : Bool) (m : Nat) (e : Int) (sticky : Bool) : Nat × Bool :=
  let qe := max (e + bitLen m - (f.mbits + 1)) f.emin
  let r := roundTo mode neg m e sticky qe
  ((qe - f.emin).toNat * 2 ^ f.mbits + r.1, r.2)

def withSign (f : Fmt) (neg : Bool) (mag : Nat) : Nat := if neg then f.signBit + mag else mag

/-- Round an exact value into a format with R42's and R35's flags; sticky says a nonzero tail was cut off. -/
def roundSticky (f : Fmt) (mode : Rnd) (v : Val) (sticky : Bool) : Nat × Flags :=
  match v with
  | .nan _ => (f.nanBits, 0)
  | .inf n => (withSign f n f.infBits, 0)
  | .fin n m e =>
    if m = 0 && !sticky then (withSign f n 0, 0)
    else
      let r := roundMag f mode n m e sticky
      if f.maxBits < r.1 then (withSign f n (overflowBits f mode n), Flags.overflow ||| Flags.inexact)
      else (withSign f n r.1,
        flagIf r.2 Flags.inexact ||| flagIf (r.2 && isTiny f mode n m e sticky) Flags.underflow)

/-- Round an exact value into a format (R42, R35, R34). -/
def Val.round (f : Fmt) (mode : Rnd) (v : Val) : Nat × Flags := roundSticky f mode v false

/-- Exact product (R34: 0 × ∞ is invalid). -/
def Val.mul (a b : Val) : Val × Flags :=
  match a, b with
  | .nan _, _ => (.nan false, a.sigFlag ||| b.sigFlag)
  | _, .nan _ => (.nan false, a.sigFlag ||| b.sigFlag)
  | .inf n, .inf k => (.inf (n != k), 0)
  | .inf n, .fin k m _ => if m = 0 then (.nan false, Flags.invalid) else (.inf (n != k), 0)
  | .fin n m _, .inf k => if m = 0 then (.nan false, Flags.invalid) else (.inf (n != k), 0)
  | .fin n m e, .fin k p g => (.fin (n != k) (m * p) (e + g), 0)

def sgn (neg : Bool) (m : Nat) : Int := if neg then -(m : Int) else m

/-- Exact sum; an exact zero takes its sign under R35. -/
def Val.add (mode : Rnd) (a b : Val) : Val × Flags :=
  match a, b with
  | .nan _, _ => (.nan false, a.sigFlag ||| b.sigFlag)
  | _, .nan _ => (.nan false, a.sigFlag ||| b.sigFlag)
  | .inf n, .inf k => if n = k then (.inf n, 0) else (.nan false, Flags.invalid)
  | .inf n, .fin _ _ _ => (.inf n, 0)
  | .fin _ _ _, .inf k => (.inf k, 0)
  | .fin n m e, .fin k p g =>
    let lo := min e g
    let s := sgn n (m * 2 ^ (e - lo).toNat) + sgn k (p * 2 ^ (g - lo).toNat)
    if s = 0 then
      if m = 0 && p = 0 && n = k then (.fin n 0 lo, 0) else (.fin (mode = .down) 0 lo, 0)
    else (.fin (decide (s < 0)) s.natAbs lo, 0)

def Val.sub (mode : Rnd) (a b : Val) : Val × Flags := a.add mode b.neg

/-- One product and one addition, exact (R51: fused). -/
def Val.fma (mode : Rnd) (a b c : Val) : Val × Flags :=
  let p := a.mul b
  let s := p.1.add mode c
  (s.1, p.2 ||| s.2)

/-- Order of two values without NaN: a < b as real numbers, -0 equal to +0. -/
def Val.lt (a b : Val) : Bool :=
  match a, b with
  | .nan _, _ => false
  | _, .nan _ => false
  | .inf n, .inf k => n && !k
  | .inf n, .fin _ _ _ => n
  | .fin _ _ _, .inf k => !k
  | .fin n m e, .fin k p g =>
    let lo := min e g
    decide (sgn n (m * 2 ^ (e - lo).toNat) < sgn k (p * 2 ^ (g - lo).toNat))

def Val.eqv (a b : Val) : Bool := !a.isNan && !b.isNan && !a.lt b && !b.lt a

/-- The pattern an operation delivers, with all its flags. -/
def finish (f : Fmt) (mode : Rnd) (r : Val × Flags) : Nat × Flags :=
  let q := r.1.round f mode
  (q.1, r.2 ||| q.2)

def fAdd (f : Fmt) (mode : Rnd) (a b : Nat) : Nat × Flags := finish f mode ((Val.read f a).add mode (Val.read f b))
def fSub (f : Fmt) (mode : Rnd) (a b : Nat) : Nat × Flags := finish f mode ((Val.read f a).sub mode (Val.read f b))
def fMul (f : Fmt) (mode : Rnd) (a b : Nat) : Nat × Flags := finish f mode ((Val.read f a).mul (Val.read f b))
def fFma (f : Fmt) (mode : Rnd) (a b c : Nat) : Nat × Flags :=
  finish f mode (Val.fma mode (Val.read f a) (Val.read f b) (Val.read f c))

/-- VMNX on floating types (R137): canonical NaN when either is one; -0 below +0; the operand unchanged. -/
def fMinMax (f : Fmt) (isMax : Bool) (a b : Nat) : Nat × Flags :=
  let x := Val.read f a
  let y := Val.read f b
  if x.isNan || y.isNan then (f.nanBits, x.sigFlag ||| y.sigFlag)
  else
    let less : Bool := x.lt y || (!y.lt x && decide (f.signBit ≤ a) && decide (b < f.signBit))
    if less = isMax then (b, 0) else (a, 0)

/-- Quotient to more bits than any format holds, with a sticky tail. -/
def Val.div (a b : Val) : Val × Bool × Flags :=
  match a, b with
  | .nan _, _ => (.nan false, false, a.sigFlag ||| b.sigFlag)
  | _, .nan _ => (.nan false, false, a.sigFlag ||| b.sigFlag)
  | .inf _, .inf _ => (.nan false, false, Flags.invalid)
  | .inf n, .fin k _ _ => (.inf (n != k), false, 0)
  | .fin n _ _, .inf k => (.fin (n != k) 0 0, false, 0)
  | .fin n m e, .fin k p g =>
    if p = 0 then
      if m = 0 then (.nan false, false, Flags.invalid) else (.inf (n != k), false, Flags.divZero)
    else
      let sh := 64 + bitLen p
      let num := m * 2 ^ sh
      (.fin (n != k) (num / p) (e - g - sh), decide (num % p ≠ 0), 0)

def fDiv (f : Fmt) (mode : Rnd) (a b : Nat) : Nat × Flags :=
  let q := (Val.read f a).div (Val.read f b)
  let r := roundSticky f mode q.1 q.2.1
  (r.1, q.2.2 ||| r.2)

/-- Integer square root, one result bit per step from bit k - 1 down. -/
def isqrtFrom (n : Nat) : Nat → Nat → Nat
  | 0, r => r
  | k + 1, r =>
    let t := r + 2 ^ k
    isqrtFrom n k (if t * t ≤ n then t else r)

def isqrt (n : Nat) : Nat := isqrtFrom n (bitLen n / 2 + 1) 0

/-- √(m × 2^e) of a nonzero m: a long mantissa, its exponent, and whether a tail was cut off. -/
def sqrtParts (m : Nat) (e : Int) : Nat × Int × Bool :=
  let m' := if e % 2 = 0 then m else 2 * m
  let e' := if e % 2 = 0 then e else e - 1
  let n := m' * 2 ^ 128
  let r := isqrt n
  (r, e' / 2 - 64, r * r ≠ n)

/-- √a (R146). -/
def fSqrt (f : Fmt) (mode : Rnd) (a : Nat) : Nat × Flags :=
  match Val.read f a with
  | .nan s => (f.nanBits, (Val.nan s).sigFlag)
  | .inf n => if n then (f.nanBits, Flags.invalid) else (f.infBits, 0)
  | .fin n m e =>
    if m = 0 then (withSign f n 0, 0)
    else if n then (f.nanBits, Flags.invalid)
    else
      let r := sqrtParts m e
      roundSticky f mode (.fin false r.1 r.2.1) r.2.2

/-- 1 ÷ √a (R146). -/
def fRsqrt (f : Fmt) (mode : Rnd) (a : Nat) : Nat × Flags :=
  match Val.read f a with
  | .nan s => (f.nanBits, (Val.nan s).sigFlag)
  | .inf n => if n then (f.nanBits, Flags.invalid) else (0, 0)
  | .fin n m e =>
    if m = 0 then (withSign f n f.infBits, Flags.divZero)
    else if n then (f.nanBits, Flags.invalid)
    else
      -- 1 ÷ √(m' 2^e') with e' even is isqrt(2^(2k) ÷ m') × 2^(-k - e'/2)
      let m' := if e % 2 = 0 then m else 2 * m
      let e' := if e % 2 = 0 then e else e - 1
      let k := 96 + bitLen m'
      let q := 2 ^ (2 * k) / m'
      let r := isqrt q
      roundSticky f mode (.fin false r (-k - e' / 2)) (decide (r * r * m' ≠ 2 ^ (2 * k)))

/-- 1 ÷ a (R146). -/
def fRecip (f : Fmt) (mode : Rnd) (a : Nat) : Nat × Flags :=
  let q := (Val.fin false 1 0).div (Val.read f a)
  let r := roundSticky f mode q.1 q.2.1
  (r.1, q.2.2 ||| r.2)

/-! ### Exponentials -/

/-- ln 2 in fixed point with prec bits, from the series of 1 ÷ (i 2^i); at most prec units below. -/
def ln2Fixed (prec : Nat) : Nat → Nat
  | 0 => 0
  | i + 1 => ln2Fixed prec i + 2 ^ prec / ((i + 1) * 2 ^ (i + 1))

/-- The Taylor terms of e^t for t in fixed point. -/
def expTaylor (prec t : Nat) : Nat → Nat → Nat → Nat
  | 0, _, _ => 0
  | fuel + 1, i, term => term + expTaylor prec t fuel (i + 1) (term * t / (2 ^ prec * (i + 1)))

/-- base^x for a finite nonzero x that is not an exact power, to prec bits: mantissa and exponent, or none when the
guard bits do not settle the mantissa. -/
def expAt (baseE : Bool) (neg : Bool) (m : Nat) (e : Int) (prec : Nat) : Option (Nat × Int) :=
  let ln2 := ln2Fixed prec prec
  let mag := shiftNat m (e + prec)
  let x : Int := sgn neg mag
  let k : Int := if baseE then x / (ln2 : Int) else x / (2 ^ prec : Nat)
  let r : Int := if baseE then x - k * ln2 else (x - k * (2 ^ prec : Nat)) * ln2 / (2 ^ prec : Nat)
  let v := expTaylor prec r.toNat (prec / 2 + 8) 0 (2 ^ prec)
  let g : Nat := 64
  let lo := (v - 2 ^ 40) / 2 ^ g
  if lo = (v + 2 ^ 40) / 2 ^ g then some (lo, k - prec + g) else none

/-- base^x with a growing precision; the last resort keeps the longest mantissa. -/
def expSearch (baseE neg : Bool) (m : Nat) (e : Int) : Nat → Nat → Nat × Int
  | 0, _ => (1, 0)
  | fuel + 1, prec =>
    match expAt baseE neg m e prec with
    | some r => r
    | none => expSearch baseE neg m e fuel (2 * prec)

/-- base^v rounded once (R146, R147): base e or 2. -/
def expVal (f : Fmt) (mode : Rnd) (baseE : Bool) (v : Val) : Nat × Flags :=
  match v with
  | .nan s => (f.nanBits, (Val.nan s).sigFlag)
  | .inf n => if n then (0, 0) else (f.infBits, 0)
  | .fin n m e =>
    let top := e + bitLen m
    if m = 0 then roundSticky f mode (.fin false 1 0) false
    else if 12 < top then roundSticky f mode (.fin false 1 (if n then -8192 else 8192)) (decide (n = true))
    else if !baseE && 0 ≤ e then roundSticky f mode (.fin false 1 (sgn n (m * 2 ^ e.toNat))) false
    else if !baseE && m % 2 ^ (-e).toNat = 0 then
      roundSticky f mode (.fin false 1 (sgn n (m / 2 ^ (-e).toNat))) false
    else if top < -256 then
      if n then roundSticky f mode (.fin false (2 ^ 100 - 1) (-100)) true
      else roundSticky f mode (.fin false (2 ^ 100) (-100)) true
    else
      let r := expSearch baseE n m e 4 640
      roundSticky f mode (.fin false r.1 r.2) true

def fExp (f : Fmt) (mode : Rnd) (baseE : Bool) (a : Nat) : Nat × Flags := expVal f mode baseE (Val.read f a)

/-- VRMX (R147): 1 when a ≥ b, else base^(a - b), the difference exact. -/
def fRescale (f : Fmt) (mode : Rnd) (baseE : Bool) (a b : Nat) : Nat × Flags :=
  let x := Val.read f a
  let y := Val.read f b
  if x.isNan || y.isNan then (f.nanBits, x.sigFlag ||| y.sigFlag)
  else if !x.lt y then (roundSticky f mode (.fin false 1 0) false)
  else expVal f mode baseE (x.sub mode y).1

/-! ### Conversions (R44) -/

/-- To a float of R42, or one of the two FP8 formats, which saturate. -/
def cvtFloat (dst : Fmt) (mode : Rnd) (v : Val) : Nat × Flags :=
  let fl := v.sigFlag
  if dst = e5m2 || dst = e4m3 then
    match v with
    | .nan _ => (dst.nanBits, fl)
    | .inf n => if dst = e5m2 then (withSign dst n dst.infBits, 0)
                else (withSign dst n dst.maxBits, Flags.overflow ||| Flags.inexact)
    | .fin n m e =>
      let r := roundMag dst mode n m e false
      if m ≠ 0 && dst.maxBits < r.1 then (withSign dst n dst.maxBits, Flags.overflow ||| Flags.inexact)
      else v.round dst mode
  else
    let r := v.round dst mode
    (r.1, fl ||| r.2)

/-- To an integer in [lo, hi]: the integer and R44's flags. -/
def cvtInt (lo hi : Int) (mode : Rnd) (v : Val) : Int × Flags :=
  match v with
  | .nan _ => (0, Flags.invalid)
  | .inf n => (if n then lo else hi, Flags.saturation)
  | .fin n m e =>
    let r := roundTo mode n m e false 0
    let c := clampInt lo hi (sgn n r.1)
    (c.1, c.2 ||| flagIf r.2 Flags.inexact)

/-- FP32 to X8 (R44). -/
def cvtX8 (v : Val) : Nat × Flags :=
  match v with
  | .nan _ => (0xFF, Flags.invalid)
  | .inf _ => (0xFE, Flags.overflow ||| Flags.inexact)
  | .fin _ m e =>
    let lg : Int := e + bitLen m - 1
    let pow := m ≠ 0 && m = 2 ^ (bitLen m - 1)
    if m = 0 || lg < -127 then (0, Flags.underflow ||| flagIf (!pow) Flags.inexact)
    else ((127 + lg).toNat, flagIf (!pow) Flags.inexact)

/-- The value of an X8 scale byte (R40); 0xFF is a scale of +0 with reserved data. -/
def readX8 (b : Nat) : Val × Flags :=
  if b = 0xFF then (.fin false 0 0, Flags.reservedData) else (.fin false 1 ((b : Int) - 127), 0)

/-- One element of an I4X pair (R38): the decoded integer, and is the pair a double marker? -/
def decodeI4X (byte : Nat) (high : Bool) : Int × Bool :=
  let lo := byte % 16
  let hi := byte / 16 % 16
  let outlier (p : Nat) : Int := sgn (decide (8 ≤ p)) (2 ^ (p % 8 + 3))
  if lo = 8 && hi = 8 then (0, true)
  else if lo = 8 then (if high then 0 else outlier hi, false)
  else if hi = 8 then (if high then outlier lo else 0, false)
  else (signedOf 4 (if high then hi else lo), false)

/-- An I2 code (R39): its value, and is it the reserved code 10? -/
def decodeI2 (code : Nat) : Int × Bool :=
  match code % 4 with
  | 0 => (0, false)
  | 1 => (1, false)
  | 2 => (0, true)
  | _ => (-1, false)

/-! ### Sums -/

/-- One level of the pairwise tree: element i plus element i + m/2 (R50). -/
def treeLevel {α : Type} (op : α → α → α) (l : List α) : List α :=
  let h := l.length / 2
  List.zipWith op (l.take h) (l.drop h)

/-- The pairwise tree of R50 over 2^levels inputs. -/
def tree {α : Type} (op : α → α → α) (d : α) : Nat → List α → α
  | 0, l => l.headD d
  | n + 1, l => tree op d n (treeLevel op l)

/-- An FP32 tree sum in a mode, with its flags (R50, R51). -/
def treeAdd (mode : Rnd) (levels : Nat) (l : List Nat) : Nat × Flags :=
  tree (fun x y => let r := fAdd fp32 mode x.1 y.1; (r.1, x.2 ||| y.2 ||| r.2)) (0, 0) levels (l.map (fun n => (n, 0)))

/-! ### Accumulator lanes (R45 to R48) -/

/-- FP32 bits of +∞. -/
def infBits32 : Nat := 0x7F800000

/-- R46: half an ulp of the delivered FP32 result when its rounding was inexact, else zero, as FP32 bits. -/
def halfUlp (inexact : Bool) (y : Nat) : Nat :=
  if !inexact then 0
  else
    let ex : Nat := y / 2 ^ 23 % 256
    -- ulp = 2^(ex - 150) for normal y, 2^-149 below; half of it
    let e : Int := if ex = 0 then -150 else (ex : Int) - 151
    ((Val.fin false 1 e).round fp32 .up).1

def addUp (a b : Nat) : Nat := (fAdd fp32 .up a b).1

def isNanBits (p : Nat) : Bool := (Val.read fp32 p).isNan
def notFinite32 (p : Nat) : Bool := !(Val.read fp32 p).isFinite

/-- An accumulator lane: value and bound as FP32 bits (R45). -/
structure Lane where
  value : BitVec 32
  bound : BitVec 32
deriving DecidableEq, Repr

/-- Lane n occupies 8 bytes: value in bytes 0-3, bound in bytes 4-7 (R45). -/
def Lane.toWord (l : Lane) : Word := l.bound ++ l.value
def Lane.ofWord (w : Word) : Lane := ⟨w.extractLsb' 0 32, w.extractLsb' 32 32⟩

/-- The third invariant of R45. -/
def Lane.settle (value bound : Nat) : Lane :=
  ⟨BitVec.ofNat 32 value, BitVec.ofNat 32 (if notFinite32 value then infBits32 else bound)⟩

/-- R47: enter a sum S with bound beta (FP32 bits) into a lane; the flags of its two roundings. -/
def laneAccumulate (lane : Lane) (s : Val) (beta : Nat) (aip : Bool) : Lane × Flags :=
  let r1 := s.round fp32 .nearest
  let h1 := halfUlp (r1.2 &&& Flags.inexact ≠ 0) r1.1
  let keep : Flags := Flags.overflow ||| Flags.inexact ||| Flags.invalid
  if aip then
    let r2 := fAdd fp32 .nearest lane.value.toNat r1.1
    let h2 := halfUlp (r2.2 &&& Flags.inexact ≠ 0) r2.1
    let b := addUp (addUp (addUp lane.bound.toNat beta) h1) h2
    (Lane.settle r2.1 (if beta = infBits32 then infBits32 else b), (r1.2 ||| r2.2) &&& keep)
  else
    let b := addUp beta h1
    (Lane.settle r1.1 (if beta = infBits32 then infBits32 else b), r1.2 &&& keep)

/-- MACW's bound rule (R48): a negative bound is replaced by its magnitude, a NaN by +∞. A bound of −0 counts as negative and
becomes +0 (log entry 63). -/
def Lane.written (value bound : Nat) : Lane :=
  Lane.settle value (if isNanBits bound then infBits32 else bound % 2 ^ 31)

/-- MACS scale by f (R48): a zero factor takes a finite value's bound to +0. -/
def Lane.scale (lane : Lane) (f : Nat) : Lane × Flags :=
  let y := fMul fp32 .nearest lane.value.toNat f
  let h := halfUlp (y.2 &&& Flags.inexact ≠ 0) y.1
  let fv := Val.read fp32 f
  let scaled := if fv.isZero then 0 else (fMul fp32 .up (f % 2 ^ 31) lane.bound.toNat).1
  let b := addUp scaled h
  (Lane.settle y.1 (if isNanBits b then infBits32 else b), y.2)

end Sys2Proof.Machine
end

