-- ==== Sys2Proof/Machine/Table.lean ====
section
/-! DEFINITION. Sparse tables and byte memories as sorted lists in one canonical form. -/

namespace Sys2Proof.Machine

/-- A sparse table by key, keys strictly rising. -/
abbrev Tab (α : Type) := List (Nat × α)

/-- The entry of a key. -/
def tabFind {α : Type} (k : Nat) : Tab α → Option α
  | [] => none
  | (j, v) :: t => if j = k then some v else tabFind k t

/-- The entry of a key, or the value that an unlisted key has. -/
def tabGet {α : Type} (d : α) (k : Nat) (t : Tab α) : α := (tabFind k t).getD d

/-- Put an entry in its place. -/
def tabPut {α : Type} (k : Nat) (v : α) : Tab α → Tab α
  | [] => [(k, v)]
  | (j, w) :: t => if k < j then (k, v) :: (j, w) :: t else if j = k then (k, v) :: t else (j, w) :: tabPut k v t

/-- Remove the entry of a key. -/
def tabDel {α : Type} (k : Nat) (t : Tab α) : Tab α := t.filter (fun e => e.1 ≠ k)

/-- A byte memory: address and byte, addresses strictly rising, no byte equal to what an unlisted address reads as. -/
abbrev Memory := List Host.Cell

/-- What an unlisted address reads as (log entry 1: the spec gives no power-on contents). -/
def unlisted : Byte := 0

/-- One byte of a memory. -/
def readByte (a : Nat) : Memory → Byte
  | [] => unlisted
  | (b, v) :: t => if b = a then v else readByte a t

/-- Write one byte; the value an unlisted address reads as removes the entry. -/
def writeByte (a : Nat) (v : Byte) : Memory → Memory
  | [] => if v = unlisted then [] else [(a, v)]
  | (b, w) :: t =>
    if a < b then (if v = unlisted then (b, w) :: t else (a, v) :: (b, w) :: t)
    else if b = a then (if v = unlisted then t else (a, v) :: t)
    else (b, w) :: writeByte a v t

/-- Bytes from an address on, lowest first. -/
def readBytes (m : Memory) (a n : Nat) : List Byte := (List.range n).map (fun i => readByte (a + i) m)

/-- Write bytes from an address on. -/
def writeBytes (a : Nat) : List Byte → Memory → Memory
  | [], m => m
  | b :: bs, m => writeBytes (a + 1) bs (writeByte a b m)

/-- Set n bytes to what an unlisted address reads as. -/
def clearBytes (m : Memory) (a n : Nat) : Memory := m.filter (fun c => c.1 < a || a + n ≤ c.1)

/-- Keys strictly rising above a floor, and no entry an unlisted address would read as. -/
def Memory.wfFrom (lo : Nat) : Memory → Bool
  | [] => true
  | (a, v) :: t => decide (lo ≤ a) && decide (v ≠ unlisted) && Memory.wfFrom (a + 1) t

/-- The canonical form of a byte memory. -/
def Memory.wf (m : Memory) : Bool := Memory.wfFrom 0 m

/-- Keys strictly rising above a floor. -/
def tabWfFrom {α : Type} (lo : Nat) : Tab α → Bool
  | [] => true
  | (a, _) :: t => decide (lo ≤ a) && tabWfFrom (a + 1) t

def tabWf {α : Type} (t : Tab α) : Bool := tabWfFrom 0 t

end Sys2Proof.Machine
end

