-- ==== Sys2Proof/Machine/State.lean ====
section
/-! DEFINITION. The state of the whole part as plain data: sequencers, cores, clusters, dies, pseudo-channels, the package's
host port and management controller, memory, and the agenda that says who moves next; the reasons a step stops; reset. -/

namespace Sys2Proof.Machine

/-! ### Why a step stops -/

/-- The reasons a step faults. The part raises its own causes as traps, which are next states; these stand only for what
a sealed image cannot hold. -/
inductive Fault where
  /-- Raised by every engine slot and by fetch for a slot that sealing refuses with the check code K-number (R5, R10: it
  does not occur in a sealed image and has no run-time behaviour). Safe: the machine stops where the spec gives no effect. -/
  | notSealed (number : Nat)
  /-- Raised by fetch at a VPC past the last bundle of the code body, which K-049 refuses (R97). Safe. -/
  | pastEnd
deriving DecidableEq, Repr

/-- The reasons a step is refused. -/
inductive Refusal where
  /-- Raised by an arm of exec whose instruction has no meaning yet. Safe. -/
  | notModelled (mnemonic : String)
deriving DecidableEq, Repr

/-- A cause code (R220). -/
abbrev Cause := BitVec 10

/-- The scopes of R65, narrowest first. -/
inductive Scope where
  | core | cluster | die | package | fabric | system
deriving DecidableEq, Repr

def Scope.rank : Scope → Nat
  | .core => 0 | .cluster => 1 | .die => 2 | .package => 3 | .fabric => 4 | .system => 5

def Scope.ofCode (c : BitVec 5) : Scope :=
  match c.toNat with
  | 0 => .core | 1 => .cluster | 2 => .die | 3 => .package | 4 => .fabric | _ => .system

/-- The wider of two scopes. -/
def Scope.max (a b : Scope) : Scope := if a.rank ≤ b.rank then b else a

/-! ### Sequencer -/

/-- A loop stack entry (R14). -/
structure LoopEntry where
  endV : BitVec 32 := 0
  start : BitVec 32 := 0
  count : BitVec 32 := 0
  index : BitVec 32 := 0
deriving DecidableEq, Repr

/-- One dimension of a stream (R105). -/
structure Dim where
  stride : BitVec 32 := 0
  extent : BitVec 24 := 0
  en : Bool := false
  wrap : Bool := false
  level : BitVec 3 := 0
deriving DecidableEq, Repr

/-- A stream descriptor (R19, R105). -/
structure Stream where
  base : Word := 0
  zx : Bool := false
  space : BitVec 2 := 0
  esz : BitVec 2 := 0
  dims : Vector Dim 4 := Vector.replicate 4 {}
deriving DecidableEq, Repr

/-- A sticky record (R26). -/
structure Sticky where
  firstVpc : BitVec 32 := 0
  firstSlot : BitVec 3 := 0
  valid : Bool := false
  cause : Flags := 0
  stamp : Word := 0
deriving DecidableEq, Repr

/-- The registers of a sequencer (R11). -/
structure Regs where
  vpc : BitVec 32 := 0
  lpc : BitVec 32 := 0
  /-- entry 0, the outermost loop, first -/
  loops : List LoopEntry := []
  x : Vector Word 32 := Vector.replicate 32 0
  v : Vector Vec 32 := Vector.replicate 32 0
  p : Vector Pred 128 := Vector.replicate 128 0
  /-- the mask stack, top first -/
  masks : List Pred := []
  streams : Vector Stream 16 := Vector.replicate 16 {}
  lx : Vector Word 2 := Vector.replicate 2 0
  lg : Vector Word 2 := Vector.replicate 2 0
  lv : Vector Vec 4 := Vector.replicate 4 0
  lm : Vector Vec 2 := Vector.replicate 2 0
  lk : Word := 0
  ly : Word := 0
  /-- held operands of X, G, V, M, K, Y; a 64-bit value fills the low 8 bytes -/
  held : Vector Vec 6 := Vector.replicate 6 0
  sticky : Vector Sticky 6 := Vector.replicate 6 {}
  /-- sr.round (R28) -/
  round : BitVec 2 := 0
  /-- sr.mmode (R162) -/
  mmode : Word := 0x01000001
  /-- sr.peer.sel (R216) -/
  peerSel : Word := 0
deriving DecidableEq, Repr

/-- A replay entry (R215). -/
structure ReplayEntry where
  vpc : BitVec 32 := 0
  slot : BitVec 3 := 0
  engine : Engine := .x
  /-- 0 not performed, 1 faulted, 2 result held, 3 discard -/
  state : BitVec 2 := 0
  xcpt : BitVec 9 := 0
  cause : Cause := 0
  lit : Option (BitVec 24) := none
  word : BitVec 32 := 0
  addr : Word := 0
  opa : Vec := 0
  opb : Vec := 0
  third : Vec := 0
deriving DecidableEq, Repr

/-- How a rank fails: cause, program status, and its watermark (R289). -/
structure FailInfo where
  cause : Cause
  pstatus : BitVec 16
  unit : BitVec 2
  wmark : Nat
  /-- the event stamp of the failure (R289) -/
  stamp : Word := 0
deriving DecidableEq, Repr

/-- HALT or SVC standing in the current bundle, performed once every slot of it has completed (R98, R99, R211). -/
inductive Ending where
  | halt (failed : Option FailInfo)
  | call (n : BitVec 16)
  | trap (n : BitVec 16)
  | tret
deriving DecidableEq, Repr

/-- The trapping slot of the current bundle (R210). -/
structure TrapPoint where
  slot : Nat
  cause : Cause
  addr : Word
  detail : BitVec 16
deriving DecidableEq, Repr

/-- Everything a trap needs: the trapping slot, its entries, and where execution continues (R210 to R215). -/
structure TrapData where
  point : TrapPoint
  vpc : BitVec 32
  entries : List ReplayEntry
  resume : BitVec 32
  boundary : Bool
  /-- the loop stack that the trapping bundle read -/
  loops : List LoopEntry
deriving DecidableEq, Repr

/-- The replay of a trap frame (R218): the entries still to perform, and where execution continues. -/
structure Replay where
  entries : List ReplayEntry
  resume : BitVec 32
  /-- the loop stack that the trapping bundle read, for its stream ports -/
  loops : List LoopEntry
deriving DecidableEq, Repr

/-- A request that waits for its response: the cycle at which it was sent, and was that the second time (R348, R411)? -/
structure Sent where
  since : Nat
  again : Bool
deriving DecidableEq, Repr

/-- The bundle in progress: what its prefixes said and what its slots have done so far. -/
structure Bundle where
  /-- position of the next slot, prefixes counted (R26) -/
  pos : Nat := 0
  /-- LITERAL of the LIT directly before the next slot (R62) -/
  lit : Option (BitVec 24) := none
  scope : Scope := .core
  /-- the GUARD's outcome and MASK (R63) -/
  guard : Option (Bool × BitVec 8) := none
  /-- where the bundle's control slot sends the sequencer, if not to the next bundle in sequence -/
  target : Option (BitVec 32) := none
  /-- did a NEXT of this bundle reach an iteration boundary (R96)? -/
  boundary : Bool := false
  /-- exceptions this bundle has recorded: engine, cause bits, slot (R26) -/
  raised : List (Fin 6 × Flags × BitVec 3) := []
  trap : Option TrapPoint := none
  entries : List ReplayEntry := []
  ending : Option Ending := none
  /-- the slot of that HALT or SVC as a replay entry in state 0 (R211) -/
  endEntry : ReplayEntry := {}
  replay : Option Replay := none
  /-- the event stamp of the bundle's issue (R29) -/
  issued : Word := 0
  /-- the cycle of the bundle's issue, or of its replay (R99, R155, R218) -/
  opened : Nat := 0
  /-- the set that an MWSL of this bundle selects (R189) -/
  mwsl : Option (BitVec 2) := none
  /-- was the request of the slot that waits already sent a second time (R348, R411)? -/
  resent : Bool := false
  /-- a trap whose frame cannot be written at once: it is taken when the area lets it (R285) -/
  pendingTrap : Option TrapData := none
  /-- a request for the trap frame that has no response yet (R348, R411) -/
  frameSent : Option Sent := none
deriving DecidableEq, Repr

/-- The states of a group (R156). -/
inductive Phase where
  | empty | ready | running | service
deriving DecidableEq, Repr

/-- The task a group runs: its die, serial number, rank and size of its team, context area, LONG. -/
structure TaskRef where
  die : Fin 4
  serial : Nat
  rank : Nat
  size : Nat
  ctx : Word
  long : Bool
  args : Word
deriving DecidableEq, Repr

/-- The code a group runs: a variant of an image slot, or the die's trap service image. -/
structure CodeRef where
  die : Fin 4
  slot : Option Nat
  kernel : Nat
deriving DecidableEq, Repr

/-- What a waiting slot waits for. -/
inductive WaitKind where
  | mwt | preq | queue | ksyn | rvwt | drain | send | recv | time | yld | halt | room | network | fabric
  /-- stopped at a NEXT for a hard pre-emption (R282) -/
  | stopped
  /-- the trap frame cannot be written or read back yet (R285) -/
  | frame
deriving DecidableEq, Repr

/-- A slot that waits in its bundle, since a cycle. -/
structure Wait where
  kind : WaitKind
  op : BitVec 7
  w : Slot
  since : Nat
  /-- the address whose access has no answer yet (R348, R411) -/
  addr : Word := 0
  /-- its operands as read at issue -/
  opA : Vec := 0
  opB : Vec := 0
  third : Vec := 0
  /-- has a point of the team completed a phase, and has a flit entered a queue of the cluster, since it waits (R255)? -/
  phase : Bool := false
  flit : Bool := false
deriving DecidableEq, Repr

/-- An armed monitor (R123): its 128 B line by address, and its fired state. -/
structure Monitor where
  line : Nat
  fired : Bool := false
deriving DecidableEq, Repr

/-- A transfer in progress on a copy channel (R197). -/
structure Transfer where
  src : Word
  dst : Word
  len : Nat
  srcA : Bool
  dstA : Bool
  rv : Nat
  split : Bool
  /-- destination team ranks of an MCST; empty for COPY -/
  dests : List Nat
  mcst : Bool
  scope : Scope
  /-- the cores whose A space it writes, and the team on whose points it makes its arrivals, as at acceptance -/
  cores : List Nat := []
  team : Option (Fin 4 × Nat) := none
  /-- its request that has no response yet -/
  sent : Option Sent := none
deriving DecidableEq, Repr

/-- A copy channel (R195). -/
structure Channel where
  ptr : Word := 0
  done : BitVec 24 := 0
  reported : Bool := false
  failed : Bool := false
  busy : Bool := false
  kind : BitVec 2 := 0
  cause : Cause := 0
  stamp : Word := 0
  transfer : Option Transfer := none
  /-- scope of the latest transfer's bundle (R202) -/
  scope : Scope := .core
  /-- logical time (R330) -/
  time : Nat := 0
deriving DecidableEq, Repr

/-- A sequencer: the registers as the bundle's slots leave them, the registers as the preceding bundles left them
(R66: what every slot reads), the bundle in progress, and what belongs to the group. -/
structure Seq where
  now : Regs := {}
  before : Regs := {}
  bundle : Bundle := {}
  phase : Phase := .empty
  task : Option TaskRef := none
  code : Option CodeRef := none
  wait : Option Wait := none
  monitor : Option Monitor := none
  channels : Vector Channel 4 := Vector.replicate 4 {}
  /-- logical time T (R327) -/
  time : Nat := 0
  /-- the latest write time that an access at core or cluster scope met; an event of R322 that raises the access to die
  scope or wider raises T to it -/
  seen : Nat := 0
deriving DecidableEq, Repr

/-- What the part keeps of a trap frame (R213, R214): the fields the handler cannot write, and the group's latches. -/
structure Frame where
  vpc : BitVec 32
  slot : BitVec 3
  cause : Cause
  stamp : Word
  addr : Word
  detail : BitVec 16
  resume : BitVec 32
  lpc : BitVec 32
  /-- the trapped group -/
  group : Fin 2
  /-- its registers at trap entry: the copy of latches, held operands and loop entries -/
  regs : Regs
  entries : List ReplayEntry
  /-- did the trapping bundle hold a NEXT that took effect? -/
  boundary : Bool
  /-- the loop stack that the trapping bundle read -/
  loops : List LoopEntry
deriving DecidableEq, Repr

/-! ### Core -/

/-- A result the gleaner picked, column by column: the delivered S, the exact sum, the bound (R175). -/
structure Pick where
  d : Nat
  rho : Nat
  stamp : Word
  columns : List (Nat × Val × Val × BitVec 32)
deriving DecidableEq, Repr

/-- A weight macro: its calibration and gleaner (R168, R175, R192). -/
structure Macro where
  /-- the calibration Sirxon last wrote, 0 for none; explicit offsets of mcal.w lie over it -/
  calibration : Nat := 0
  offsets : Tab (BitVec 8) := []
  valid : BitVec 128 := 0
  sampling : Bool := false
  exponent : Nat := 0
  seed : Nat := 0
  skipped : Nat := 0
  violations : Nat := 0
  sequence : Nat := 0
  picks : List Pick := []
  recalibrations : Nat := 0
deriving DecidableEq, Repr

/-- The marks and side path of a weight set (R170 to R172, R187). -/
structure WeightSet where
  loading : Bool := false
  failed : Bool := false
  overflow : BitVec 16 := 0
  nonfinite : BitVec 128 := 0
  /-- block exponents e_w by column -/
  exps : Tab Int := []
  /-- outliers: row, column, value -/
  side : List (Nat × Nat × Int) := []
deriving DecidableEq, Repr

/-- A weight load in progress (R187): its target set, source, and who issued it where. -/
structure WeightLoad where
  mac : Nat
  set : Nat
  fmt : BitVec 2
  aSpace : Bool
  src : Word
  /-- for an A-space source, its place in the cluster's bin bytes as the load was accepted (R233) -/
  place : Nat := 0
  who : SeqId
  serial : Option Nat
  vpc : BitVec 32
  slot : BitVec 3
  stamp : Word
  scope : Scope
  /-- its request that has no response yet -/
  sent : Option Sent := none
deriving DecidableEq, Repr

/-- A bank-map entry (R230). -/
structure Window where
  att : Bool := false
  shr : Bool := false
  inc : Bool := false
  drn : Bool := false
  bin : Fin 64 := 0
deriving DecidableEq, Repr

/-- A message flit as it stands in a queue (R248), with the sender's logical time (R330). -/
structure Flit where
  payload : BitVec 256
  src : Word
  stamp : Word
  time : Nat
deriving DecidableEq, Repr

/-- An injected flit on its way to a queue of its cluster, and the router it comes from (R249, R347). -/
structure Inbound where
  queue : Fin 8
  flit : Flit
  origin : Nat
deriving DecidableEq, Repr

/-- The send register's flit and its destination (R249). -/
structure Outgoing where
  flit : Flit
  pkg : BitVec 12
  cluster : Fin 128
  queue : Fin 8
  /-- the group that sent it -/
  group : Fin 2 := 0
deriving DecidableEq, Repr

/-- A write on its way to its home: address, bytes, writer's logical time, hint, and the sequencer that issued it (R252, R326). -/
structure PendingWrite where
  va : Nat
  data : List Byte
  time : Nat
  hint : BitVec 2
  who : SeqId
  /-- has an agent of another core read it (R319, R335)? -/
  shown : Bool := false
  /-- has an uncorrectable error struck it, so that it reaches its home as a poisoned write (R252)? -/
  spoilt : Bool := false
  /-- its request that has no response yet (R348, R411) -/
  sent : Option Sent := none
deriving DecidableEq, Repr

/-! ### Agents (R316) -/

/-- The card engines of a die and the units of its towers, each an agent of its own. -/
inductive CardUnit where
  | copy | collective | migration
  | bankMac (tower : Fin 8)
  | attention (tower : Fin 8)
  | row (tower : Fin 8)
deriving DecidableEq, Repr

/-- Who accesses memory: the agents of R316; the scheduler of a die for its completion records and context areas, at the
scheduler time of R330; a cluster cache that passes a write home; and an agent of another package, by its number there. -/
inductive Agent where
  | seq (w : SeqId)
  | channel (w : SeqId) (c : Fin 4)
  | engine (die : Nat) (unit : CardUnit)
  | scheduler (die : Nat)
  | host
  | sirxon
  | cache (cluster : Nat)
  | remote (pkg agent : Nat)
deriving DecidableEq, Repr

/-- Why a request waits at its slice: it needs the DRAM of a pseudo-channel in a compute phase (R367), a card step holds its
row (R372), or an earlier request to its line waits. -/
inductive QueueCause where
  | phase | held | behind
deriving DecidableEq, Repr

/-- A request that waits in a slice's queue (R367): who asks, for which line of a home and of the VA space, the number of
the attempt, which tells a request that still stands from one whose slot or piece is over, and why it waits. -/
structure Request where
  who : Agent
  line : Nat
  vaLine : Nat
  ticket : Nat
  cause : QueueCause
deriving DecidableEq, Repr

/-- What HLTH tells a core of its cluster and of the part, which changes only between tasks on it (R161, R256): live cores,
bins in service, the package health word. -/
structure Discovered where
  cores : Nat
  bins : Nat
  health : Word
deriving DecidableEq, Repr

/-- A core (R155 to R160). -/
structure Core where
  g0 : Seq := {}
  g1 : Seq := {}
  issuing : Option (Fin 2) := none
  /-- macros by physical position -/
  macros : Tab Macro := []
  /-- weight sets by 4 × physical macro + set -/
  sets : Tab WeightSet := []
  /-- W space bytes by physical macro, set, offset (R158) -/
  wspace : Memory := []
  /-- C space lanes: value and bound (R45) -/
  lanes : Tab Word := []
  /-- the live-tile map (R160) -/
  live : BitVec 512 := 0
  windows : Vector Window 16 := Vector.replicate 16 {}
  sendReg : Option Outgoing := none
  writePath : List PendingWrite := []
  loads : List WeightLoad := []
  frame : Option Frame := none
  /-- live macros by physical position (R161) -/
  liveMacros : BitVec 8 := 0xFF
  retired : Bool := false
  /-- the task the core is reserved for (R279) -/
  reserved : Option Nat := none
  /-- the discovered quantities that hold for the task on the core -/
  told : Option Discovered := none
deriving DecidableEq, Repr

/-! ### Cluster -/

/-- The states of a bin (R226). -/
inductive BinState where
  | free
  | owned (core : Fin 512) (window : Fin 16)
  | parked (serial rank : Nat) (window : Fin 16)
  | spare
  | retired
deriving DecidableEq, Repr

/-- A bin: its state, and is it marked for retirement (R259)? -/
structure Bin where
  state : BinState := .spare
  marked : Bool := false
deriving DecidableEq, Repr

/-- A rendezvous point (R242), with its time TP (R330). -/
structure Point where
  init : Bool := false
  byteMode : Bool := false
  phase : Bool := false
  early : Bool := false
  overrun : Bool := false
  expected : BitVec 28 := 0
  count : BitVec 28 := 0
  time : Nat := 0
deriving DecidableEq, Repr

/-- A team slot of the sync unit (R241): its task, its members' cores by rank, its points. -/
structure Team where
  die : Fin 4
  serial : Nat
  cores : List (Fin 512)
  points : Vector Point 24 := Vector.replicate 24 {}
deriving DecidableEq, Repr

/-- A copy of a line in a cluster cache (R327, R328). -/
structure Copy where
  line : Nat
  data : List Byte
  wts : Nat
  rts : Nat
  fetched : Nat
  hint : BitVec 2
deriving DecidableEq, Repr

/-- A cluster: granary, sync unit, message queues, cluster cache. -/
structure Cluster where
  bins : Vector Bin 64 := Vector.replicate 64 {}
  /-- bin bytes by bin × 128 KiB + offset -/
  mem : Memory := []
  /-- poisoned 8-byte units of the bins (R229) -/
  poison : List Nat := []
  queues : Vector (List Flit) 8 := Vector.replicate 8 []
  /-- injected flits whose entry is reserved and that have not arrived, in the order of their injection (R249) -/
  inbound : List Inbound := []
  /-- sequencers whose RECV waits, in the order they began to wait (R250) -/
  receivers : Vector (List SeqId) 8 := Vector.replicate 8 []
  teams : Vector (Option Team) 4 := Vector.replicate 4 none
  copies : List Copy := []
  /-- the cluster cache's write queue, oldest first -/
  pending : List PendingWrite := []
  /-- FREE bins that a reservation holds, by the serial number of its task (R279) -/
  held : List (Nat × Fin 64) := []
  /-- reservations of pre-empted tasks: serial number, and the bins needed in all (R279) -/
  claims : List (Nat × Nat) := []
  /-- the cluster's error record: corrected errors counted (R229, R252) -/
  errors : Nat := 0
deriving DecidableEq, Repr

/-! ### Die -/

/-- A footprint region (R270). -/
structure Region where
  base : Nat
  size : Nat
  rd : Bool
  wr : Bool
deriving DecidableEq, Repr

/-- A task record's fields (R269). -/
structure TaskRec where
  handle : BitVec 32
  args : Word
  ctx : Word
  long : Bool
  team : Nat
deriving DecidableEq, Repr

/-- How an entry ended (R287). -/
structure EndInfo where
  /-- STATE: 1 complete, 2 failed, 3 partial, 4 cancelled, 5 refused -/
  state : BitVec 4
  cause : Cause
  unit : BitVec 2
  wmark : Nat
  pstatus : BitVec 16
  whereC : BitVec 10
  stamp : Word
deriving DecidableEq, Repr

/-- The structural fields of a saved rank that the table entry keeps (R417). -/
structure SavedRank where
  vpc : BitVec 32
  depth : Nat
  rank : Nat
  cluster : Nat
  loops : List (BitVec 32 × BitVec 32)
  windows : List Word
  bins : List (Fin 64 × Fin 16)
  wmark : Nat
  /-- did the rank have loop depth 0 (R289)? -/
  flat : Bool
  /-- EVICT of the context header (R286) -/
  evict : Word
deriving DecidableEq, Repr

/-- Where an entry of the dependency table stands. -/
inductive EntryStatus where
  /-- unissued; ready once it has no predecessor left -/
  | waiting
  /-- a task preloaded on cores, by rank -/
  | placed (cores : List (Fin 512))
  /-- a task running on cores, by rank -/
  | running (cores : List (Fin 512))
  /-- a task hard pre-empted and saved, parked in a cluster -/
  | saved (cluster : Fin 128) (evicted : Bool)
  /-- a card issued to its engine -/
  | issued
  /-- ended; its record is not yet written -/
  | ended (how : EndInfo)
deriving DecidableEq, Repr

/-- One entry of the dependency table (R268, R269, R272). -/
structure Entry where
  serial : Nat
  graph : Nat
  /-- KIND of a card, none for a task -/
  card : Option (BitVec 8)
  /-- the 64 bytes of a card's BODY -/
  body : List Byte
  task : TaskRec
  prio : Nat
  compl : Nat
  regions : List Region
  /-- serial numbers of the predecessors still in the table (R275) -/
  preds : List Nat
  /-- did a predecessor end with STATE 2 to 4 (R288)? -/
  cancelled : Bool
  status : EntryStatus
  start : Word
  /-- stamp of the first issue or latest resume (R282) -/
  since : Word
  /-- ranks that have halted -/
  halted : List Nat
  /-- the earliest failure: how the entry will end -/
  failure : Option EndInfo
  /-- is a hard pre-emption requested (R282)? -/
  preempt : Bool
  /-- ranks stopped at their NEXT -/
  stopped : List Nat
  saved : List SavedRank
  /-- stamp at which the task was first passed over (R279) -/
  passedAt : Option Nat
  /-- the cluster that ran it, whose writes its completion record waits for (R288) -/
  ranOn : Option Nat
  /-- bytes that a card in progress has done -/
  doneBytes : Nat := 0
  /-- the result of a collective, once every member's input has been read (R414) -/
  gathered : Option (List Byte) := none
  /-- PAs of the destination and source pages that an issued row card has still to do, and the rows done of the first (R381) -/
  pages : List (Nat × Nat) := []
  rows : List Nat := []
  /-- pseudo-channels on which an issued row card has begun (R369) -/
  begun : List Nat := []
  /-- the cycle from which a migration that withdrew pages may be reported complete (R352) -/
  due : Nat := 0
  /-- its request that has no response yet (R348, R411) -/
  sent : Option Sent := none
deriving DecidableEq, Repr

/-- A graph's place in the scheduler (R278, R281). -/
structure Graph where
  /-- levels the aging clock has added -/
  raised : Nat := 0
  /-- stamp at which the aging clock started -/
  clock : Option Nat := none
  /-- set while a higher graph is served (R281) -/
  stopped : Bool := false
  /-- ns on the aging clock when the graph was stopped -/
  elapsed : Nat := 0
deriving DecidableEq, Repr

/-- One variant of a loaded kernel (R297, R306). -/
structure Variant where
  code : List (BitVec 32)
  lits : List (BitVec 32)
deriving DecidableEq, Repr

/-- A kernel of a loaded image with its selected variant (R295, R302). -/
structure Kernel where
  team : Nat
  long : Bool
  variant : Variant
  /-- index of that variant in its object (R297) -/
  index : Nat := 0
deriving DecidableEq, Repr

/-- A sealed image (R306). -/
structure Image where
  kernels : List Kernel
  /-- the digest of its seal (R306) -/
  digest : List Byte := []
  failed : Bool := false
  /-- set by UNLOAD: the result address to write when the unload completes (R312) -/
  unloading : Option Nat := none
  /-- the request of that result that has no response yet (R348, R411) -/
  sent : Option Sent := none
deriving DecidableEq, Repr

/-- An image slot: its generation and what it holds (R301). -/
structure ImageSlot where
  generation : Nat := 0
  image : Option Image := none
deriving DecidableEq, Repr

/-- A crib entry's key: the seal's digest (empty for the trap service image), the variant's index, the block's start VPC
(R308). -/
structure CribKey where
  digest : List Byte
  index : Nat
  vpc : BitVec 32
deriving DecidableEq, Repr

/-- A sealed word that could not be read at a lowering: of the bundle at a VPC, or the literal word at an LPC (R315). -/
inductive LostWord where
  | code (vpc : BitVec 32)
  | literal (lpc : BitVec 32)
deriving DecidableEq, Repr

/-- A block in the crib, and the word of it that could not be read, if any. -/
structure CribEntry where
  key : CribKey
  lost : Option LostWord
deriving DecidableEq, Repr

/-- A line held in a last-level cache slice (R327, R332), by PA ÷ 128. -/
structure SliceLine where
  line : Nat
  wts : Nat
  rts : Nat
  dirty : Bool
  hint : BitVec 2
deriving DecidableEq, Repr

/-- A leaf held in the TLB of a slice port (R351): the first offset it covers, its level, the entry's PA and its word. -/
structure TlbEntry where
  base : Nat
  level : Nat
  entryPa : Nat
  word : Word
deriving DecidableEq, Repr

/-- An error record (R360). -/
structure ErrorRec where
  stamp : Word
  word1 : Word
  pa : Word
  va : Word
deriving DecidableEq, Repr

/-- A die: scheduler, thresher, page table, slices. -/
structure Die where
  table : List Entry := []
  nextSerial : Nat := 1
  graphs : Tab Graph := []
  /-- sequencers whose TASK or JOB waits for room, in order, with what they submit (R204, R268) -/
  roomQueue : List (SeqId × Entry) := []
  /-- the graph that last received room (R268) -/
  roomLast : Nat := 63
  /-- the graph served last (R279) -/
  serveLast : Nat := 63
  /-- the graph whose card went to an engine last (R279) -/
  cardLast : Nat := 63
  /-- the scheduler time (R330) -/
  schedTime : Nat := 0
  images : Tab ImageSlot := []
  service : Option Variant := none
  crib : List CribEntry := []
  fallbacks : Nat := 0
  /-- PA of the root table, which Sirxon sets (R349) -/
  root : Nat := 0
  /-- the TLBs of the 32 slice ports (R351) -/
  tlbs : Tab (List TlbEntry) := []
  /-- logical times of the card engines and tower units, by number of the unit (R316, R327) -/
  unitTimes : Tab Nat := []
  /-- the free pool of 64 KiB frames: first frame and count -/
  frames : List (Nat × Nat) := []
  /-- the reserved pool: PAs of free 4 KiB blocks of table space (R353) -/
  tables : List Nat := []
  /-- FLOOR of each of the 32 slices (R328) -/
  floors : Vector Nat 32 := Vector.replicate 32 0
  /-- lines held by the slices, most recently used first (R332) -/
  lines : List SliceLine := []
  /-- poisoned lines by PA ÷ 128 (R359) -/
  poison : List Nat := []
  /-- the error ring, oldest first (R360) -/
  errors : List ErrorRec := []
  /-- Sirxon's residency queue: pages by VA ÷ 64 KiB (R354) -/
  residency : List Nat := []
  /-- residency requests that failed -/
  residencyFailed : List Nat := []
  /-- compressed pages by descriptor PA: the frame and the KiB used (R355) -/
  compressed : Tab (Nat × Nat) := []
  /-- host address that an evict migration named, by VA ÷ 64 KiB (R354) -/
  evicted : Tab Nat := []
  /-- spare rows used, by subarray (R361) -/
  spares : Tab Nat := []
  /-- rows sent to a spare: row key and spare number (R361) -/
  remap : Tab Nat := []
  /-- corrected errors counted by row, and rows in which an uncorrectable error showed (R361) -/
  corrected : Tab Nat := []
  failedRows : List Nat := []
  /-- frames withdrawn (R361) -/
  withdrawn : List Nat := []
  /-- card engines retired: card KINDs (R273) -/
  retiredEngines : List (BitVec 8) := []
  /-- fallback rows of row cards, by tower of the die (R381) -/
  fallbackRows : Tab Nat := []
  /-- does a checkpoint keep the die's graphs from issuing (R399)? -/
  paused : Bool := false
deriving DecidableEq, Repr

/-! ### Towers -/

/-- The power states of a pseudo-channel (R376). -/
inductive Power where
  | on | selfRefresh | powerDown
deriving DecidableEq, Repr

/-- The attention sequencer's registers (R364); its staged block table lies in a reserved row (R365). -/
structure AttnState where
  m : BitVec 32 := 0
  l : BitVec 32 := 0
  o : Tab (BitVec 32) := []
deriving DecidableEq, Repr

/-- A row that a card step holds in its slice (R372): are reads held too, or writes only? -/
structure HeldRow where
  bank : Nat
  row : Nat
  reads : Bool
deriving DecidableEq, Repr

/-- A pseudo-channel (R364, R366). -/
structure Pc where
  compute : Bool := false
  /-- the card whose steps hold the compute phase: die and serial number -/
  card : Option (Fin 4 × Nat) := none
  /-- did a yield stop the card step (R368)? -/
  yielded : Bool := false
  /-- cycle at which the first normal request was queued in this compute phase (R368) -/
  queuedAt : Option Nat := none
  /-- cycle at which the yield's normal phase began -/
  normalAt : Option Nat := none
  /-- requests queued at the slice for this pseudo-channel, in the order they arrived (R367) -/
  queue : List Request := []
  /-- rows that the card step of this compute phase reads or writes (R372) -/
  held : List HeldRow := []
  /-- bank-unit registers by 16 × bank + register: 32 bytes -/
  regs : Tab (BitVec 256) := []
  /-- accumulators by 64 × bank + accumulator -/
  acc : Tab (BitVec 32) := []
  attn : AttnState := {}
  live : Bool := false
  lost : Bool := false
  power : Power := .on
  /-- does the unit state stand in the spill rows (R376)? -/
  spilled : Bool := false
  /-- compute units retired after a parity error (R383) -/
  retired : Bool := false
  /-- a bank unit or the sequencer shows a parity error in the card now running (R383) -/
  parity : Bool := false
deriving DecidableEq, Repr

/-! ### Package -/

/-- A host submission queue (R391). -/
structure HostQueue where
  base : Word := 0
  en : Bool := false
  lgn : BitVec 4 := 0
  die : BitVec 2 := 0
  head : BitVec 32 := 0
  /-- the tail the part has been notified of -/
  tail : BitVec 32 := 0
  /-- a request of its entry's service that has no response yet (R348, R411) -/
  sent : Option Sent := none
  /-- the cycle from which its command, which withdrew pages or their read permission, may be reported complete (R352) -/
  due : Option Nat := none
  /-- has its command withdrawn a page's read permission (R352)? -/
  withdrew : Bool := false
  /-- pages that its load has opened, with the rights they had: VA, RD, W (R302) -/
  opened : List (Nat × Bool × Bool) := []
deriving DecidableEq, Repr

/-- A host access through BAR2 that waits for an answer: its data if it writes, and its request without a response (R348,
R411). -/
structure HostAccess where
  offset : Nat
  length : Nat
  data : Option (List Byte)
  sent : Option Sent := none
  /-- a notify that may not pass the writes before it: queue and tail (R394) -/
  notify : Option (Fin 64 × BitVec 32) := none
deriving DecidableEq, Repr

/-- BAR0 and the boot ROM (R391, R395). -/
structure HostPort where
  bootState : Nat := 0
  bootCause : Cause := 0
  imageLength : Nat := 0
  apbase : Word := 0
  hrbase : Word := 0
  hrEn : Bool := false
  hrLost : BitVec 16 := 0
  hrLgn : BitVec 4 := 0
  hrTail : BitVec 32 := 0
  hrHead : BitVec 32 := 0
  queues : Vector HostQueue 64 := Vector.replicate 64 {}
  /-- completions of host reads through BAR2, oldest first: status (0 data, 1 Unsupported Request, 2 Completer Abort),
  EP bit, data (R396) -/
  replies : List (Nat × Bool × List Byte) := []
  /-- accesses through BAR2 that wait, in the order they arrived (R316) -/
  waiting : List HostAccess := []
  /-- has the host's next notify relaxed ordering set (R394)? -/
  relaxed : Bool := false
  /-- logical time of the host as an agent (R316, R327) -/
  time : Nat := 0
deriving DecidableEq, Repr

/-- A health record (R402). -/
structure HealthRec where
  stamp : Word
  kind : BitVec 8
  loc : BitVec 56
  value : Word
deriving DecidableEq, Repr

/-- An entry of the health ring: a health record, or a die's error record (R403). -/
inductive RingRec where
  | health (r : HealthRec)
  | error (die : Fin 4) (r : ErrorRec)
deriving DecidableEq, Repr

/-- A parked bin that Sirxon evicted to its own memory (R283): the task's die and serial number, rank, window, bytes, and the
poisoned 8-byte units among them. -/
structure EvictedBin where
  die : Fin 4
  serial : Nat
  rank : Nat
  window : Nat
  bytes : List Host.Cell
  poison : List Nat
deriving DecidableEq, Repr

/-- Sirxon's registers: health word, records, quantities and settings (R400, R401, R403). -/
structure Sirxon where
  started : Bool := false
  package : BitVec 12 := 0
  reason : BitVec 8 := 0
  macrosRetired : Nat := 0
  coresRetired : Nat := 0
  binsRetired : Nat := 0
  lanesSpared : Nat := 0
  deadPackages : Nat := 0
  /-- health and error records not yet in the ring, oldest first -/
  records : List RingRec := []
  /-- digital_macro_cap (R165) -/
  cap : Nat := Config.nominalCap
  /-- supply in mV (R400) -/
  millivolts : Nat := 600
  throttled : Bool := false
  stopped : Bool := false
  /-- the rate correction of the stamp clock in ppm (R398) -/
  ppm : Int := 0
  /-- aging interval of each level in ns (R278) -/
  aging : Vector Nat 4 := Vector.replicate 4 Config.agingNs
  /-- the recalibration threshold (R176) -/
  threshold : Nat := 0
  /-- corrected errors of a row at which Sirxon spares it, 0 while it has set none (R361) -/
  rowThreshold : Nat := 0
  /-- logical time of the management controller as an agent (R316, R327) -/
  time : Nat := 0
  /-- calibrations written so far (R168, R176) -/
  calibrations : Nat := 0
  /-- frames withdrawn over the package in 64 KiB pages (R401 bit 3) -/
  withdrawn : Nat := 0
  /-- has any task issued since bring-up (R399)? -/
  anyIssued : Bool := false
  /-- the bins of evicted parked tasks (R283) -/
  evictions : List EvictedBin := []
  /-- SHA-512 digest of the Sirxon image that the boot ROM verified (R395, R397) -/
  digest : List Byte := []
  /-- the host queue whose checkpoint command is in progress (R399) -/
  checkpoint : Option (Fin 64) := none
deriving DecidableEq, Repr

/-- The response to a request: a cause, or the bytes with the line's WTS and RTS (R411, R412). -/
structure Response where
  pkg : Nat
  agent : Nat
  number : Nat
  cause : Option Cause
  data : List Byte
  wts : Nat
  rts : Nat
deriving DecidableEq, Repr

/-- The traffic classes of the two networks (R347, R409). -/
inductive TrafficClass where
  | request | response | multicast
deriving DecidableEq, Repr

/-- A flit on a link: its number there, the package it goes to, its traffic class and the fabric hop it makes, which name the
virtual channel it takes, its source agent's sequence number toward the destination die, and what a response carries (R406,
R409, R410). -/
structure LinkFlit where
  number : Nat := 0
  pkg : Nat
  hop : Nat
  cls : TrafficClass
  source : Agent
  sequence : Nat
  reply : Option Response := none
deriving DecidableEq, Repr

/-- A fabric link (R406, R407). -/
structure Link where
  /-- failed lanes: 0 to 7 carry data, 8 is the spare -/
  failed : List (Fin 9) := []
  retraining : Bool := false
  down : Bool := false
  /-- will the next flit fail its check? -/
  corrupt : Bool := false
  /-- flits in the sender's replay buffer that have not been delivered, oldest first -/
  waiting : List LinkFlit := []
  nextFlit : Nat := 0
deriving DecidableEq, Repr

/-- What an agent of another package asks of this one (R411, R412, R249). -/
inductive RemoteOp where
  /-- read bytes within a line -/
  | read (va n : Nat)
  | write (va : Nat) (data : List Byte)
  /-- an AMO of operation F on n bytes with B and D (R122) -/
  | amo (f : Nat) (va n b d : Nat)
  | preq (va : Nat)
  | flit (cluster : Fin 128) (queue : Fin 8) (payload : BitVec 256) (src stamp : Word)
deriving DecidableEq, Repr

/-- A packet of an agent of another package, by its number there, with its sequence number toward a die of this one, the
agent's logical time, and the link it comes in by (R410, R412). -/
structure RemoteRequest where
  pkg : Nat
  agent : Nat
  die : Fin 4
  number : Nat
  time : Nat
  link : Fin 18
  op : RemoteOp
deriving DecidableEq, Repr

/-- A request to another package that has no result yet: whose it is, its VA, the number of the attempt, the sequence number
that it keeps over every retry, and when it was sent (R410, R411). -/
structure FarRequest where
  who : Agent
  va : Nat
  ticket : Nat
  number : Nat
  sent : Sent
deriving DecidableEq, Repr

/-- The two networks (R343 to R348, R406 to R412). -/
structure Nets where
  /-- have the routers' tables been written (R346)? -/
  written : Bool := false
  /-- entries that differ from the routes of log entry 9, by 128 × router + destination; none is V = 0 -/
  routes : Tab (Option RouteEntry) := []
  failedRouters : List (Fin 128) := []
  /-- the routers' error records: packets dropped at an invalid entry, by router (R346) -/
  drops : Tab Nat := []
  /-- the fabric routing table, of which every hub holds a copy (R408) -/
  fabric : Tab (BitVec 16) := []
  links : Vector Link 18 := Vector.replicate 18 {}
  /-- the hubs' error records: packets dropped at a ninth fabric hop, by die (R409) -/
  hubDrops : Tab Nat := []
  /-- packages that give no response (R411) -/
  silent : List Nat := []
  /-- sequence numbers that agents of this package have used, by agent and destination die (R410) -/
  sent : List ((Agent × Nat) × Nat) := []
  /-- requests of this package that are out -/
  asking : List FarRequest := []
  /-- the next sequence number of a remote agent toward a die, by package, agent and die (R410) -/
  expected : List ((Nat × Nat × Nat) × Nat) := []
  /-- packets of other packages that have arrived and have not been applied -/
  arrived : List RemoteRequest := []
  /-- responses that have left this package, oldest first -/
  responses : List Response := []
  /-- the answers to the packets applied, by die, for a second send of a request (R411) -/
  answers : List (Nat × Response) := []
  /-- logical times of remote agents as last seen, by 65,536 × package + agent (R412) -/
  times : Tab Nat := []
  /-- pages of other packages, by VA ÷ 64 KiB, whose residency this one has asked for, and those asked for in vain (R127,
  R354) -/
  asked : List Nat := []
  refused : List Nat := []
deriving DecidableEq, Repr

/-- A collective member of another package, as its contribution arrived: package and die, tag, list, operation, length, its
SRC bytes, and did it fail (R414, R415)? -/
structure RemoteMember where
  pkg : Nat
  die : Nat
  tag : Nat
  list : List Nat
  op : Nat
  len : Nat
  data : List Byte
  failed : Bool
deriving DecidableEq, Repr

/-- The compressed pages that a checkpoint wrote to a store, whose format is the part's own (R355, R399, log entry 7): the
store's address, each die's descriptors, and the pages' bytes. -/
structure StoredPages where
  store : Nat
  dies : List (Tab (Nat × Nat))
  cells : Memory
deriving DecidableEq, Repr

/-- One entry of the agenda: who moves next. The events are the rows of spec/opcode_table.json that no program issues;
the others carry what the spec leaves to time and to agents outside the part. -/
inductive Action where
  /-- an autonomous event happens -/
  | event (i : Instr)
  /-- the issuing group of a core executes its next slot -/
  | issue (core : Fin 512)
  /-- time passes: cycles and nanoseconds -/
  | elapse (cycles ns : Nat)
  /-- a busy copy channel delivers its next bytes, not the last ones (R198) -/
  | deliver (who : SeqId) (channel : Fin 4) (count : Nat)
  /-- a collective contribution of another package arrives -/
  | contribute (m : RemoteMember)
  /-- a packet of another package for this one comes in by a link (R410 to R412, R249) -/
  | remoteRequest (r : RemoteRequest)
  /-- a packet of another package passes through this one, with the fabric hops it has made, its class, and the number that
  it carries (R408 to R410) -/
  | transit (link : Fin 18) (pkg : BitVec 12) (hops : Nat) (cls : TrafficClass) (source : Agent) (sequence : Nat)
  /-- the next flit on a link fails its check (R406) -/
  | flitError (link : Fin 18)
  /-- the host reads a BAR0 register (R391) -/
  | registerRead (offset : BitVec 16)
  /-- the host sets relaxed ordering on its next notify (R394) -/
  | relaxNotify
  /-- accesses of the host and of other packages that wait try again -/
  | serveWaiting
  /-- the host writes its own memory -/
  | hostStore (addr : Nat) (data : List Byte)
  /-- an agent of another package writes that package's memory, or reads a line of it, as accesses of this one will see it -/
  | remoteStore (pkg agent va : Nat) (data : List Byte)
  | remoteLoad (pkg agent va : Nat)
  /-- another package's home die begins to answer accesses to a 64 KiB page with a cause of class 0x3 or 0x9, or no longer
  does (R411) -/
  | remoteFault (page : Nat) (cause : Option Cause)
  /-- another package's 64 KiB page migrates (R124) -/
  | remoteMove (page : Nat)
  /-- another package's residency request for a 64 KiB page fails (R127) -/
  | remoteRefusal (page : Nat)
  /-- another package falls silent, or answers again -/
  | silence (pkg : Nat) (off : Bool)
  /-- a parity error shows in a pseudo-channel's units (R383) -/
  | unitParity (pc : PcId)
  /-- an access of a SOURCE finds an error in a line, in the slice's copy or in DRAM (R359, R360) -/
  | lineError (die : Fin 4) (line : Fin 1073741824) (found : LineCheck) (source : Fin 7) (va : Nat)
  /-- an error shows in an 8-byte unit of a bin, by bin × 16,384 + unit (R229) -/
  | binError (cluster : Fin 128) (unit : Fin 1048576) (found : LineCheck)
  /-- a parity error shows in a cluster cache's copy of a line (R252) -/
  | copyParity (cluster : Fin 128) (line : Nat)
  /-- an uncorrectable error shows in a queued write of a cluster cache (R252) -/
  | queueError (cluster : Fin 128) (index : Nat)
  /-- Sirxon sets the aging interval of each level (R278) -/
  | setAging (ns : Vector Nat 4)
  /-- Sirxon requests replacement for a reason of its own (R401) -/
  | sirxonReason
  /-- Sirxon merges the table of leaves below an offset of a die into one leaf of 2 MiB, or of 1 GiB (R353) -/
  | sirxonMerge (die : Fin 4) (offset : Nat) (big : Bool)
  /-- an uncorrectable error shows in a crib entry (R311) -/
  | cribError (die : Fin 4) (entry : Nat)
  /-- Sirxon invalidates a die's crib, or the entries of one image (R311) -/
  | sirxonInvalidate (die : Fin 4) (slot : Option (Fin 4096))
deriving DecidableEq, Repr

/-- The part. -/
structure State where
  /-- the sequencer whose slot is being executed -/
  focus : SeqId := ⟨0, 0⟩
  cores : Tab Core := []
  clusters : Tab Cluster := []
  dies : Tab Die := []
  pcs : Tab Pc := []
  /-- DRAM bytes by die × 2^37 + PA (R341); the slices' dirty lines are held here too -/
  dram : Memory := []
  /-- host memory, behind the host window and the host port -/
  hostMem : Memory := []
  /-- memory of other packages by VA, as this package's accesses see it -/
  remote : Memory := []
  /-- write times and leases of other packages' lines, by VA ÷ 128 (R412) -/
  remoteLines : List SliceLine := []
  /-- causes with which other packages' home dies answer, by VA ÷ 64 KiB (R411) -/
  remoteFaults : Tab Cause := []
  contributions : List RemoteMember := []
  /-- the compressed pages that lie in stores (R399) -/
  stores : List StoredPages := []
  host : HostPort := {}
  sirxon : Sirxon := {}
  nets : Nets := {}
  /-- cycles of the core clock (R7) -/
  cycle : Nat := 0
  /-- the event stamp (R8) -/
  stamp : Word := 0
  /-- who moves next, in order; empty: the sequencer in focus free-runs (log entry 2) -/
  agenda : List Action := []
  /-- the MODEL's own counter of free values drawn so far (log entry 2) -/
  free : Nat := 0
deriving DecidableEq, Repr

/-- The machine right after reset: power-up, every field at the value the spec or the log names (R395 step 1). -/
def State.reset : State := {}

end Sys2Proof.Machine
end

