-- ==== Sys2Proof/Machine/Access.lean ====
section
/-! DEFINITION. Reads and updates of the parts of State through their numbers, and the computation type of a slot body: what
it answers, or why it stops, with the state as it then stands. -/

namespace Sys2Proof.Machine

/-! ### Parts by number -/

def State.core (s : State) (c : Nat) : Core := tabGet {} c s.cores
def State.setCore (s : State) (c : Nat) (k : Core) : State := { s with cores := tabPut c k s.cores }
def State.cluster (s : State) (c : Nat) : Cluster := tabGet {} c s.clusters
def State.setCluster (s : State) (c : Nat) (k : Cluster) : State := { s with clusters := tabPut c k s.clusters }
def State.die (s : State) (d : Nat) : Die := tabGet {} d s.dies
def State.setDie (s : State) (d : Nat) (k : Die) : State := { s with dies := tabPut d k s.dies }
def pcNum (p : PcId) : Nat := p.tower.val * 32 + p.channel.val
def State.pcAt (s : State) (n : Nat) : Pc := tabGet {} n s.pcs
def State.setPcAt (s : State) (n : Nat) (k : Pc) : State := { s with pcs := tabPut n k s.pcs }

def Core.seq (k : Core) (g : Fin 2) : Seq := if g = 0 then k.g0 else k.g1
def Core.setSeq (k : Core) (g : Fin 2) (q : Seq) : Core := if g = 0 then { k with g0 := q } else { k with g1 := q }
def State.seq (s : State) (w : SeqId) : Seq := (s.core w.core).seq w.group
def State.setSeq (s : State) (w : SeqId) (q : Seq) : State := s.setCore w.core ((s.core w.core).setSeq w.group q)

/-- The cluster and die of a core (R1). -/
def clusterOf (core : Nat) : Nat := core / 4
def dieOf (core : Nat) : Nat := core / 128

def otherGroup (w : SeqId) : SeqId := ⟨w.core, 1 - w.group⟩

/-- All cores' sequencers updated by one function. -/
def State.mapSeqs (s : State) (f : SeqId → Seq → Seq) : State :=
  { s with cores := s.cores.map fun e =>
      (e.1, { e.2 with g0 := f ⟨Fin.ofNat 512 e.1, 0⟩ e.2.g0, g1 := f ⟨Fin.ofNat 512 e.1, 1⟩ e.2.g1 }) }

/-! ### Computations -/

/-- Why a slot body stops short of its effect. -/
inductive Stop where
  /-- the slot raises a cause (R210) with its address and DETAIL -/
  | cause (code : Cause) (addr : Word) (detail : BitVec 16)
  /-- the slot waits in its bundle, for an answer to an access at an address or for something else -/
  | wait (k : WaitKind) (addr : Word)
  /-- the slot meets an unavailable part and tries again -/
  | stall
  /-- the slot meets its sequencer's own unfinished work on the same bytes and tries again; a guarded-false slot stalls too (R64,
  R129) -/
  | hazard
  /-- the slot waits for a busy channel and tries again; a guarded-false slot does not (R205) -/
  | busy
deriving DecidableEq, Repr

/-- A computation over the state. A stop keeps the state as it stands. -/
abbrev M := ExceptT Stop (StateM State)

/-- Run a computation. -/
def M.on {α : Type} (m : M α) (s : State) : Except Stop α × State := StateT.run (ExceptT.run m) s

def raise {α : Type} (code : Nat) (addr : Word := 0) (detail : BitVec 16 := 0) : M α :=
  throw (.cause (BitVec.ofNat 10 code) addr detail)
def waitFor {α : Type} (k : WaitKind) (addr : Word := 0) : M α := throw (.wait k addr)
def stall {α : Type} : M α := throw .stall
def hazard {α : Type} : M α := throw .hazard

/-- Cycles for which a request waits for a response, and the cause that a second one without a response raises (R348, R411). -/
def responseLimit (k : WaitKind) : Nat := if k = .fabric then Config.fabricTimeout else Config.networkTimeout
def responseCause (k : WaitKind) : Nat := if k = .fabric then 0x282 else 0x244

/-- A request without response: it was just sent, still waits, is sent once more, or has failed: none (R348, R411). -/
def askAgain (x : Option Sent) (k : WaitKind) (cycle : Nat) : Option Sent :=
  match x with
  | none => some { since := cycle, again := false }
  | some r =>
    if cycle < r.since + responseLimit k then some r
    else if r.again then none
    else some { since := cycle, again := true }

/-- Raise a cause when a condition holds. -/
def raiseIf (c : Bool) (code : Nat) (addr : Word := 0) (detail : BitVec 16 := 0) : M Unit :=
  if c then raise code addr detail else pure ()

def getCore (c : Nat) : M Core := do return (← get).core c
def modCore (c : Nat) (f : Core → Core) : M Unit := modify fun s => s.setCore c (f (s.core c))
def getCluster (c : Nat) : M Cluster := do return (← get).cluster c
def modCluster (c : Nat) (f : Cluster → Cluster) : M Unit := modify fun s => s.setCluster c (f (s.cluster c))
def getDie (d : Nat) : M Die := do return (← get).die d
def modDie (d : Nat) (f : Die → Die) : M Unit := modify fun s => s.setDie d (f (s.die d))
def getSeq (w : SeqId) : M Seq := do return (← get).seq w
def modSeq (w : SeqId) (f : Seq → Seq) : M Unit := modify fun s => s.setSeq w (f (s.seq w))

/-- Draw a number for a free value (log entry 2). -/
def drawFree : M Nat := do
  let s ← get
  set { s with free := s.free + 1 }
  return s.free

/-! ### Registers of a sequencer -/

/-- x[n]: x0 reads as zero (R11). -/
def Regs.getX (r : Regs) (n : BitVec 5) : Word := if n = 0 then 0 else r.x[n.toFin]
/-- Writes to x0 are discarded (R11). -/
def Regs.setX (r : Regs) (n : BitVec 5) (v : Word) : Regs := if n = 0 then r else { r with x := r.x.set n.toNat v n.isLt }
def Regs.getV (r : Regs) (n : BitVec 5) : Vec := r.v[n.toFin]
def Regs.setV (r : Regs) (n : BitVec 5) (v : Vec) : Regs := { r with v := r.v.set n.toNat v n.isLt }
def Regs.getP (r : Regs) (n : BitVec 7) : Pred := r.p[n.toFin]
def Regs.setP (r : Regs) (n : BitVec 7) (v : Pred) : Regs := { r with p := r.p.set n.toNat v n.isLt }
/-- The residency companion of v[n] (R17). -/
def companion (n : BitVec 5) : BitVec 7 := 3#2 ++ n

/-- The mask-stack top: all ones at depth 0 (R18). -/
def Regs.maskTop (r : Regs) : Pred := r.masks.headD (BitVec.allOnes 256)

/-- Entry of loop level k, 0 the outermost. -/
def Regs.loopAt (r : Regs) (k : Nat) : LoopEntry := r.loops.getD k {}

/-- The engine's held operand (R21). -/
def Regs.setHeld (r : Regs) (e : Engine) (v : Vec) : Regs := { r with held := r.held.set e.idx v }

/-- A latch's shift: the result enters latch 0, older ones move up, the oldest is lost (R20). -/
def Regs.shiftX (r : Regs) (v : Word) : Regs := { r with lx := #v[v, r.lx[0]] }
def Regs.shiftG (r : Regs) (v : Word) : Regs := { r with lg := #v[v, r.lg[0]] }
def Regs.shiftV (r : Regs) (v : Vec) : Regs := { r with lv := #v[v, r.lv[0], r.lv[1], r.lv[2]] }
def Regs.shiftM (r : Regs) (v : Vec) : Regs := { r with lm := #v[v, r.lm[0]] }

/-- The result of an engine enters its latch 0; a narrower value fills the low bits, a wider one gives its low 64. -/
def Regs.latch (r : Regs) (e : Engine) (v : Vec) : Regs :=
  match e with
  | .x => r.shiftX (v.setWidth 64)
  | .g => r.shiftG (v.setWidth 64)
  | .v => r.shiftV v
  | .m => r.shiftM v
  | .k => { r with lk := v.setWidth 64 }
  | .y => { r with ly := v.setWidth 64 }

/-- Exceptions enter a sticky record (R26): cause bits are ORed; a record with VALID = 0 also takes the place and stamp. -/
def Sticky.raise (k : Sticky) (f : Flags) (vpc : BitVec 32) (slot : BitVec 3) (stamp : Word) : Sticky :=
  if f = 0 then k
  else if k.valid then { k with cause := k.cause ||| f }
  else { firstVpc := vpc, firstSlot := slot, valid := true, cause := f, stamp := stamp }

/-- The two words of a sticky record (R26). -/
def Sticky.word (k : Sticky) : Word := k.firstVpc ++ k.firstSlot ++ BitVec.ofBool k.valid ++ 0#12 ++ k.cause

def Regs.raiseSticky (r : Regs) (e : Engine) (f : Flags) (vpc : BitVec 32) (slot : BitVec 3) (stamp : Word) : Regs :=
  { r with sticky := r.sticky.set e.idx ((r.sticky[e.idx]).raise f vpc slot stamp) }

/-! ### Descriptors and entries as words -/

/-- A loop entry as two words, low word first (R14). -/
def LoopEntry.words (e : LoopEntry) : Word × Word := (e.count ++ e.index, e.endV ++ e.start)
def LoopEntry.ofWords (lo hi : Word) : LoopEntry :=
  { index := lo.extractLsb' 0 32, count := lo.extractLsb' 32 32, start := hi.extractLsb' 0 32, endV := hi.extractLsb' 32 32 }

/-- The dimension word (R105). -/
def Dim.word (d : Dim) : Word := d.stride ++ d.extent ++ BitVec.ofBool d.en ++ BitVec.ofBool d.wrap ++ 0#3 ++ d.level
def Dim.ofWord (w : Word) : Dim :=
  { stride := w.extractLsb' 32 32, extent := w.extractLsb' 8 24, en := w.getLsbD 7, wrap := w.getLsbD 6,
    level := w.extractLsb' 0 3 }

/-- The six words of a stream descriptor (R105). -/
def Stream.words (d : Stream) : List Word :=
  [d.base, BitVec.setWidth 64 (BitVec.ofBool d.zx ++ 0#2 ++ d.space ++ 0#1 ++ d.esz), d.dims[0].word, d.dims[1].word,
   d.dims[2].word, d.dims[3].word]

/-- Write one word of a descriptor; reserved bits are ignored (R5). A SPACE of 3 is kept and reads as C space (log entry 63). -/
def Stream.setWord (d : Stream) (k : Nat) (w : Word) : Stream :=
  match k with
  | 0 => { d with base := w }
  | 1 => { d with zx := w.getLsbD 7, space := w.extractLsb' 3 2, esz := w.extractLsb' 0 2 }
  | 2 => { d with dims := d.dims.set 0 (Dim.ofWord w) }
  | 3 => { d with dims := d.dims.set 1 (Dim.ofWord w) }
  | 4 => { d with dims := d.dims.set 2 (Dim.ofWord w) }
  | _ => { d with dims := d.dims.set 3 (Dim.ofWord w) }

/-- The bank-map entry as bmap.rd and the context area show it (R230). -/
def Window.word (e : Window) : Word :=
  place 15 (bit e.att) + place 14 (bit e.shr) + place 13 (bit e.inc) + place 12 (bit e.drn) + BitVec.ofNat 64 e.bin.val

/-- The rendezvous state word (R242). -/
def Point.word (p : Point) : Word :=
  BitVec.ofBool p.init ++ BitVec.ofBool p.byteMode ++ BitVec.ofBool p.phase ++ BitVec.ofBool p.early ++ BitVec.ofBool p.overrun
    ++ 0#3 ++ p.expected ++ p.count
def Point.ofWord (w : Word) : Point :=
  { init := w.getLsbD 63, byteMode := w.getLsbD 62, phase := w.getLsbD 61, early := w.getLsbD 60, overrun := w.getLsbD 59,
    expected := w.extractLsb' 28 28, count := w.extractLsb' 0 28 }

/-- Bytes of a vector, lowest first. -/
def vecBytes (v : Vec) : List Byte := (List.range 256).map fun i => v.extractLsb' (8 * i) 8
/-- The vector that up to 256 bytes hold, zero above them. -/
def vecOf (l : List Byte) : Vec := BitVec.ofNat 2048 (fromLe l)
def wordOf (l : List Byte) : Word := BitVec.ofNat 64 (fromLe l)
def wordBytes (w : Word) : List Byte := leBytes 8 w.toNat

end Sys2Proof.Machine
end

