-- ==== Sys2Proof/Machine/Digest.lean ====
section
/-! DEFINITION. SHA-512 (FIPS 180-4), which R302, R306 and R395 name: the digest of an object, of a sealed image and of the
Sirxon image. The constants are the fractional parts of the cube roots of the first 80 primes and of the square roots of the
first 8. -/

namespace Sys2Proof.Machine

/-! ### Constants -/

def roundWords0 : List Word :=
  [0x428A2F98D728AE22, 0x7137449123EF65CD, 0xB5C0FBCFEC4D3B2F, 0xE9B5DBA58189DBBC,
   0x3956C25BF348B538, 0x59F111F1B605D019, 0x923F82A4AF194F9B, 0xAB1C5ED5DA6D8118,
   0xD807AA98A3030242, 0x12835B0145706FBE, 0x243185BE4EE4B28C, 0x550C7DC3D5FFB4E2,
   0x72BE5D74F27B896F, 0x80DEB1FE3B1696B1, 0x9BDC06A725C71235, 0xC19BF174CF692694,
   0xE49B69C19EF14AD2, 0xEFBE4786384F25E3, 0x0FC19DC68B8CD5B5, 0x240CA1CC77AC9C65]
def roundWords1 : List Word :=
  [0x2DE92C6F592B0275, 0x4A7484AA6EA6E483, 0x5CB0A9DCBD41FBD4, 0x76F988DA831153B5,
   0x983E5152EE66DFAB, 0xA831C66D2DB43210, 0xB00327C898FB213F, 0xBF597FC7BEEF0EE4,
   0xC6E00BF33DA88FC2, 0xD5A79147930AA725, 0x06CA6351E003826F, 0x142929670A0E6E70,
   0x27B70A8546D22FFC, 0x2E1B21385C26C926, 0x4D2C6DFC5AC42AED, 0x53380D139D95B3DF,
   0x650A73548BAF63DE, 0x766A0ABB3C77B2A8, 0x81C2C92E47EDAEE6, 0x92722C851482353B]
def roundWords2 : List Word :=
  [0xA2BFE8A14CF10364, 0xA81A664BBC423001, 0xC24B8B70D0F89791, 0xC76C51A30654BE30,
   0xD192E819D6EF5218, 0xD69906245565A910, 0xF40E35855771202A, 0x106AA07032BBD1B8,
   0x19A4C116B8D2D0C8, 0x1E376C085141AB53, 0x2748774CDF8EEB99, 0x34B0BCB5E19B48A8,
   0x391C0CB3C5C95A63, 0x4ED8AA4AE3418ACB, 0x5B9CCA4F7763E373, 0x682E6FF3D6B2B8A3,
   0x748F82EE5DEFB2FC, 0x78A5636F43172F60, 0x84C87814A1F0AB72, 0x8CC702081A6439EC]
def roundWords3 : List Word :=
  [0x90BEFFFA23631E28, 0xA4506CEBDE82BDE9, 0xBEF9A3F7B2C67915, 0xC67178F2E372532B,
   0xCA273ECEEA26619C, 0xD186B8C721C0C207, 0xEADA7DD6CDE0EB1E, 0xF57D4F7FEE6ED178,
   0x06F067AA72176FBA, 0x0A637DC5A2C898A6, 0x113F9804BEF90DAE, 0x1B710B35131C471B,
   0x28DB77F523047D84, 0x32CAAB7B40C72493, 0x3C9EBE0A15C9BEBC, 0x431D67C49C100D4C,
   0x4CC5D4BECB3E42B6, 0x597F299CFC657E2A, 0x5FCB6FAB3AD6FAEC, 0x6C44198C4A475817]

/-- One constant for each of the 80 rounds. -/
def roundWords : List Word := roundWords0 ++ roundWords1 ++ roundWords2 ++ roundWords3

/-- The eight words of a hash. -/
structure Hash where
  a : Word := 0x6A09E667F3BCC908
  b : Word := 0xBB67AE8584CAA73B
  c : Word := 0x3C6EF372FE94F82B
  d : Word := 0xA54FF53A5F1D36F1
  e : Word := 0x510E527FADE682D1
  f : Word := 0x9B05688C2B3E6C1F
  g : Word := 0x1F83D9ABFB41BD6B
  h : Word := 0x5BE0CD19137E2179
deriving DecidableEq, Repr

/-! ### Rounds -/

def smallSigma0 (x : Word) : Word := x.rotateRight 1 ^^^ x.rotateRight 8 ^^^ (x >>> 7)
def smallSigma1 (x : Word) : Word := x.rotateRight 19 ^^^ x.rotateRight 61 ^^^ (x >>> 6)
def bigSigma0 (x : Word) : Word := x.rotateRight 28 ^^^ x.rotateRight 34 ^^^ x.rotateRight 39
def bigSigma1 (x : Word) : Word := x.rotateRight 14 ^^^ x.rotateRight 18 ^^^ x.rotateRight 41

/-- One round with its constant and message word. -/
def hashRound (k w : Word) (x : Hash) : Hash :=
  let t1 := x.h + bigSigma1 x.e + ((x.e &&& x.f) ^^^ (~~~x.e &&& x.g)) + k + w
  let t2 := bigSigma0 x.a + ((x.a &&& x.b) ^^^ (x.a &&& x.c) ^^^ (x.b &&& x.c))
  { a := t1 + t2, b := x.a, c := x.b, d := x.c, e := x.d + t1, f := x.e, g := x.f, h := x.g }

/-- The rounds from the constants still to come and the window of the next 16 message words. -/
def hashRounds : List Word → List Word → Hash → Hash
  | [], _, x => x
  | k :: ks, ws, x =>
    let next := smallSigma1 (ws.getD 14 0) + ws.getD 9 0 + smallSigma0 (ws.getD 1 0) + ws.getD 0 0
    hashRounds ks (ws.tail ++ [next]) (hashRound k (ws.getD 0 0) x)

/-- Big-endian bytes of a number, and back. -/
def beBytes (n v : Nat) : List Byte := (leBytes n v).reverse
def fromBe (l : List Byte) : Nat := fromLe l.reverse

/-- The 16 words of a block. -/
def blockWords (b : List Byte) : List Word := (List.range 16).map fun i => BitVec.ofNat 64 (fromBe ((b.drop (8 * i)).take 8))

/-- One block of 128 bytes into a hash. -/
def hashBlock (x : Hash) (b : List Byte) : Hash :=
  let y := hashRounds roundWords (blockWords b) x
  { a := x.a + y.a, b := x.b + y.b, c := x.c + y.c, d := x.d + y.d, e := x.e + y.e, f := x.f + y.f, g := x.g + y.g,
    h := x.h + y.h }

def hashBlocks : Nat → List Byte → Hash → Hash
  | 0, _, x => x
  | n + 1, l, x => hashBlocks n (l.drop 128) (hashBlock x (l.take 128))

/-- The message with its end mark and its length in bits. -/
def padded (m : List Byte) : List Byte :=
  m ++ [0x80] ++ List.replicate ((239 - m.length % 128) % 128) 0 ++ beBytes 16 (8 * m.length)

def Hash.bytes (x : Hash) : List Byte := [x.a, x.b, x.c, x.d, x.e, x.f, x.g, x.h].flatMap fun w => beBytes 8 w.toNat

/-- SHA-512 of a message: 64 bytes. -/
def sha512 (m : List Byte) : List Byte := (hashBlocks ((padded m).length / 128) (padded m) {}).bytes

end Sys2Proof.Machine
end

