-- ==== Sys2Proof/Machine/Network.lean ====
section
/-! DEFINITION. The on-package network's routes (spec 17 R343 to R348) and reachability of other packages (spec 20 R408,
R411). A packet's delay is timing and is left out; what is modelled is whether a request gets through. -/

namespace Sys2Proof.Machine

/-! ### GF(8) with ξ³ = ξ + 1 (R343) -/

/-- Addition, and subtraction. -/
def gfAdd (a b : Nat) : Nat := a ^^^ b
/-- The exponents of ξ: 1, 2, 4, 3, 6, 7, 5. -/
def gfPow : List Nat := [1, 2, 4, 3, 6, 7, 5]
def gfLog (a : Nat) : Nat := gfPow.idxOf a
def gfMul (a b : Nat) : Nat := if a = 0 || b = 0 then 0 else gfPow.getD ((gfLog a + gfLog b) % 7) 0
/-- a ÷ b for b ≠ 0. -/
def gfDiv (a b : Nat) : Nat := if a = 0 then 0 else gfPow.getD ((gfLog a + 7 - gfLog b) % 7) 0

/-- X and X′ in port order (R344). -/
def portSet (s : Nat) : List Nat := if s = 0 then [1, 4, 6, 5] else [2, 3, 7, 1]

/-- The router behind a network port (R344). -/
def neighbour (r port : Nat) : Nat :=
  let s := r / 64
  let x := r / 8 % 8
  let y := r % 8
  if port < 4 then 64 * s + 8 * x + gfAdd y ((portSet s).getD port 0)
  else
    let o := port - 4
    64 * (1 - s) + 8 * o + gfAdd (gfMul o x) y

/-- The ports of a router, in order. -/
def allPorts : List Nat := List.range 12

/-- Does a router work? -/
def Nets.live (n : Nets) (r : Nat) : Bool := !(n.failedRouters.any fun f => f.val = r)

/-- A router reaches another in two hops through one that works. -/
def twoHops (n : Nets) (r dst : Nat) : Option Nat :=
  allPorts.find? fun p => n.live (neighbour r p) && allPorts.any fun q => neighbour (neighbour r p) q = dst

/-- The entry that Sirxon writes for a destination: a direct link where there is one, else the lowest port whose neighbour
works and has one, else, with ESC, the lowest port whose neighbour has a two-hop route (R345, R346, R348; which of several
routes Sirxon writes is the model's choice, log entry 9). -/
def chosenRoute (n : Nets) (r dst : Nat) : Option (Nat × Bool) :=
  if !n.live dst then none
  else match allPorts.find? fun p => neighbour r p = dst with
    | some p => some (p, false)
    | none => match twoHops n r dst with
      | some p => some (p, false)
      | none => (allPorts.find? fun p => n.live (neighbour r p) && (twoHops n (neighbour r p) dst).isSome).map fun p => (p, true)

/-- The routing table entry of a destination at a router, PORT and ESC (R346): none is V = 0, as every entry is until Sirxon
writes the tables. -/
def routeAt (n : Nets) (r dst : Nat) : Option (Nat × Bool) :=
  if !n.written then none
  else match tabFind (128 * r + dst) n.routes with
    | some (some e) => if e.v then some (e.port.val, e.esc) else none
    | some none => none
    | none => chosenRoute n r dst

/-- What becomes of a packet. -/
inductive Passage where
  | arrives
  /-- it met an entry with V = 0 at a router, which counts it (R346) -/
  | dropped (router : Nat)
  /-- a failed router held it, or its route has more than three hops (R347, R348) -/
  | lost
deriving DecidableEq, Repr

/-- The way of a packet from router r to router dst, with the hops it may still make. -/
def passage (n : Nets) (dst : Nat) : Nat → Nat → Passage
  | 0, r => if r = dst && n.live r then .arrives else .lost
  | hops + 1, r =>
    if !n.live r then .lost
    else if r = dst then .arrives
    else match routeAt n r dst with
      | none => .dropped r
      | some (p, _) => passage n dst hops (neighbour r p)

/-- The routers that a packet passes. -/
def passed (n : Nets) (dst : Nat) : Nat → Nat → List Nat
  | 0, r => [r]
  | hops + 1, r =>
    if r = dst then [r]
    else match routeAt n r dst with
      | none => [r]
      | some (p, _) => r :: passed n dst hops (neighbour r p)

/-- The router that serves slice index k of a die: its own, or its partner's once it has failed (R343, R348). -/
def sliceRouter (n : Nets) (die k : Nat) : Nat :=
  let own := 32 * die + k
  if n.live own then own else 32 * die + (k ^^^ 1)

/-- A packet goes from one router to another. A network with its tables as Sirxon wrote them at bring-up, and no failed router,
always delivers. -/
def oneWay (n : Nets) (a b : Nat) : Passage :=
  if n.written && n.routes.isEmpty && n.failedRouters.isEmpty then .arrives else passage n b 3 a

/-- A request goes from one router to another, and its response comes back. -/
def roundTrip (n : Nets) (a b : Nat) : Passage :=
  match oneWay n a b with
  | .arrives => oneWay n b a
  | x => x

/-- Does a request of a cluster reach slice index k of a die, and does the response come back? -/
def sliceReachable (n : Nets) (router die k : Nat) : Passage := roundTrip n router (sliceRouter n die k)

/-- Count a packet that an invalid entry dropped (R346). -/
def Nets.countDrop (n : Nets) : Passage → Nets
  | .dropped r => { n with drops := tabPut r (tabGet 0 r n.drops + 1) n.drops }
  | _ => n

/-- The router of global cluster c is router c: die 2s + ⌊x ÷ 4⌋ with cluster 8 × (x mod 4) + y is 64s + 8x + y (R343). -/
def routerOf (cluster : Nat) : Nat := cluster

/-- The router by which a die's own units enter the network: the lowest that works (the model's choice, log entry 9). -/
def Nets.dieRouter (n : Nets) (die : Nat) : Nat := ((List.range 32).find? fun k => n.live (32 * die + k)).elim (32 * die) fun k => 32 * die + k

/-- The router by which an agent enters the network. -/
def Nets.entry (n : Nets) : Agent → Nat
  | .seq w => routerOf (w.core.val / 4)
  | .channel w _ => routerOf (w.core.val / 4)
  | .cache c => routerOf c
  | .engine d _ => n.dieRouter d
  | .scheduler d => n.dieRouter d
  | .host => n.dieRouter 0
  | .sirxon => n.dieRouter 0
  | .remote _ _ => n.dieRouter 0

/-- The fabric link toward a package (R408): none is V = 0. -/
def fabricLink (n : Nets) (pkg : Nat) : Option Nat :=
  let e := tabGet 0#16 pkg n.fabric
  if e.getLsbD 7 then some (e.toNat % 32) else none

/-- The die whose I/O hub a link attaches to (R406). -/
def hubDie (link : Nat) : Nat := link % 4

/-- Does a request for another package get a response (R411)? It crosses the on-package network to the die that holds the
link (R408). -/
def fabricResponds (n : Nets) (router pkg : Nat) : Bool :=
  match fabricLink n pkg with
  | none => false
  | some l =>
    !(n.silent.contains pkg) && roundTrip n router (n.dieRouter (hubDie l)) = .arrives &&
      (if h : l < 18 then !(n.links[l]).down else false)

/-- Flits for a package wait behind a link that retrains or replays (R406, R407). -/
def fabricWaits (n : Nets) (pkg : Nat) : Bool :=
  match fabricLink n pkg with
  | none => false
  | some l => if h : l < 18 then (n.links[l]).retraining || !(n.links[l]).waiting.isEmpty else false

/-- Flits that a link delivers: the responses among them have left the package. -/
def Nets.deliver (n : Nets) (fs : List LinkFlit) : Nets := { n with responses := n.responses ++ fs.filterMap LinkFlit.reply }

/-- A flit takes its link's next number. While the link retrains, while earlier flits wait, or when its check fails, it
stays in the replay buffer (R406, R407); a link that is down takes none. -/
def Nets.sendFlit (n : Nets) (f : LinkFlit) : Nets :=
  match fabricLink n f.pkg with
  | none => n
  | some k =>
    if h : k < 18 then
      let l := n.links[k]
      let f := { f with number := l.nextFlit }
      if l.down then n
      else if l.retraining || !l.waiting.isEmpty || l.corrupt then
        { n with links := n.links.set k { l with waiting := l.waiting ++ [f], corrupt := false, nextFlit := l.nextFlit + 1 } }
      else ({ n with links := n.links.set k { l with nextFlit := l.nextFlit + 1 } } : Nets).deliver [f]
    else n

/-- The virtual channel of a flit on its link: each traffic class has 8, one for each fabric hop (R409). -/
def LinkFlit.channel (f : LinkFlit) : TrafficClass × Nat := (f.cls, f.hop)

/-- The next sequence number of an agent toward a die of a package (R410). -/
def Nets.numberOf (n : Nets) (a : Agent) (target : Nat) : Nat := ((n.sent.find? fun e => e.1 = (a, target)).map Prod.snd).getD 0

/-- A packet of an agent takes its sequence number (R410). -/
def Nets.stampSent (n : Nets) (a : Agent) (target : Nat) : Nets :=
  { n with sent := ((a, target), n.numberOf a target + 1) :: n.sent.filter fun e => e.1 ≠ (a, target) }

/-- A packet of an agent for a die of a package leaves: it takes the next sequence number and the first fabric hop. -/
def Nets.sendNew (n : Nets) (a : Agent) (target : Nat) : Nets :=
  (n.sendFlit { pkg := target / 4, hop := 0, cls := .request, source := a, sequence := n.numberOf a target }).stampSent a target

/-- The request of an agent that is out, for a VA of another package. -/
def Nets.requestOf (n : Nets) (a : Agent) (va ticket : Nat) : Option FarRequest :=
  n.asking.find? fun r => r.who = a && r.va = va && r.ticket = ticket

/-- The die of another package that a VA names, by 4 × package + die. -/
def farDie (va : Nat) : Nat := va / 2 ^ 50

/-- A request of an agent goes out, once for every access, however often the access is tried; without a response within the
limit it is sent once more, with the same number (R410, R411). An agent's requests of an earlier attempt are over. -/
def Nets.ask (n : Nets) (a : Agent) (va ticket cycle : Nat) : Nets :=
  match n.requestOf a va ticket with
  | some r =>
    if r.sent.again || cycle < r.sent.since + Config.fabricTimeout then n
    else
      let n := { n with asking := n.asking.map fun x => if x = r then { x with sent := { since := cycle, again := true } } else x }
      n.sendFlit { pkg := farDie va / 4, hop := 0, cls := .request, source := a, sequence := r.number }
  | none =>
    let r : FarRequest := { who := a, va := va, ticket := ticket, number := n.numberOf a (farDie va),
                            sent := { since := cycle, again := false } }
    { n with asking := r :: n.asking.filter fun x => x.who ≠ a || x.ticket = ticket }.sendNew a (farDie va)

/-- Does the flit of an agent's request for a VA still wait in its link's replay buffer? -/
def Nets.requestWaits (n : Nets) (a : Agent) (va ticket : Nat) : Bool :=
  match n.requestOf a va ticket, fabricLink n (farDie va / 4) with
  | some r, some k =>
    if h : k < 18 then
      !(n.links[k]).down && (n.links[k]).waiting.any fun f => f.source = a && f.sequence = r.number && f.cls = .request
    else false
  | _, _ => false

/-- A sequencer's and a channel's attempts have numbers of their own (State.ticket); the other agents' have not, and their
requests end with the access. -/
def Agent.numbered : Agent → Bool
  | .seq _ => true
  | .channel _ _ => true
  | _ => false

/-- The requests of an agent that a condition names are over. -/
def Nets.endRequests (n : Nets) (a : Agent) (p : FarRequest → Bool) : Nets :=
  { n with asking := n.asking.filter fun r => r.who ≠ a || !p r }

end Sys2Proof.Machine
end

