-- ==== Sys2Proof/Machine/Translate.lean ====
section
/-! DEFINITION. Translation at the home die (spec 17 R349 to R351): the page table held in the die's DRAM, its walk, and the
checks of an access against its leaf, and the TLBs of the slice ports, which hold copies of leaves. -/

namespace Sys2Proof.Machine

/-- The place of a die's PA in State.dram. -/
def dramKey (die pa : Nat) : Nat := die * 2 ^ 37 + pa

def State.readPa (s : State) (die pa n : Nat) : List Byte := readBytes s.dram (dramKey die pa) n
def State.putPa (s : State) (die pa : Nat) (l : List Byte) : State :=
  { s with dram := writeBytes (dramKey die pa) l s.dram }

/-- The lines that n bytes from a PA on cover whole hold no poison mark: a write of all 128 bytes clears it (R359). -/
def State.scrub (s : State) (die pa n : Nat) : State :=
  if (s.die die).poison.isEmpty then s
  else s.setDie die { s.die die with poison := (s.die die).poison.filter fun x => !(pa ≤ 128 * x && 128 * x + 128 ≤ pa + n) }

/-- Bytes written to a die's DRAM by a unit of the die or by the host port. -/
def State.writePa (s : State) (die pa : Nat) (l : List Byte) : State := (s.putPa die pa l).scrub die pa l.length

/-- Fields of a table entry (R350). -/
def pteV (e : Word) : Bool := e.getLsbD 63
def pteLeaf (e : Word) : Bool := e.getLsbD 62
def pteRes (e : Word) : Bool := e.getLsbD 61
def pteW (e : Word) : Bool := e.getLsbD 60
def pteRd (e : Word) : Bool := e.getLsbD 59
def pteCmp (e : Word) : Bool := e.getLsbD 58
def pteMig (e : Word) : Bool := e.getLsbD 57
def pteSpl (e : Word) : Bool := e.getLsbD 56
def pteAddr (e : Word) : Nat := field e 36 8 * 256

/-- A leaf's word. -/
def mkLeaf (res w rd cmp mig spl : Bool) (addr : Nat) : Word :=
  place 63 1 + place 62 1 + place 61 (bit res) + place 60 (bit w) + place 59 (bit rd) + place 58 (bit cmp)
    + place 57 (bit mig) + place 56 (bit spl) + place 0 (addr % 2 ^ 37 / 256 * 256)

/-- A pointer's word. -/
def mkPointer (addr : Nat) : Word := place 63 1 + place 0 (addr % 2 ^ 37 / 256 * 256)

/-- First offset bit of a level's index, which is log2 of a leaf's size there (R349). -/
def levelShift (level : Nat) : Nat :=
  match level with
  | 0 => 16
  | 1 => 21
  | 2 => 30
  | _ => 39

def levelEntries (level : Nat) : Nat :=
  match level with
  | 0 => 32
  | 3 => 2048
  | _ => 512

/-- Alignment of the table of a level (R349). -/
def tableAlign (level : Nat) : Nat :=
  match level with
  | 0 => 256
  | 3 => 16384
  | _ => 4096

/-- The malformed entries of R350; the ADDR of a non-resident leaf is ignored. -/
def pteMalformed (level : Nat) (e : Word) : Bool :=
  field e 55 37 ≠ 0 || field e 7 0 ≠ 0
    || (pteLeaf e && level = 3) || (!pteLeaf e && level = 0)
    || (pteLeaf e && pteCmp e && level ≠ 0)
    || (pteLeaf e && pteRes e && !pteCmp e && pteAddr e % 2 ^ levelShift level ≠ 0)
    || (!pteLeaf e && pteAddr e % tableAlign (level - 1) ≠ 0)

/-- What a walk finds. -/
inductive Walk where
  /-- no valid entry on the path -/
  | unmapped
  | malformed
  /-- an entry lies in an uncorrectable line -/
  | unreadable (pa : Nat)
  /-- SPL: the walk waits -/
  | splintering
  | leaf (level entryPa : Nat) (word : Word)
deriving DecidableEq, Repr

/-- The walk from the table at PA t of a level down (R349, R351). -/
def walkFrom (s : State) (die off : Nat) : Nat → Nat → Walk
  | level, t =>
    let pa := t + 8 * (off / 2 ^ levelShift level % levelEntries level)
    if (s.die die).poison.contains (pa / 128) then .unreadable pa
    else
      let e := wordOf (s.readPa die pa 8)
      if !pteV e then .unmapped
      else if pteMalformed level e then .malformed
      else if pteLeaf e then (if pteSpl e then .splintering else .leaf level pa e)
      else match level with
        | 0 => .malformed
        | l + 1 => walkFrom s die off l (pteAddr e)

/-- The walk of an offset in a die's space. -/
def walk (s : State) (die off : Nat) : Walk := walkFrom s die off 3 (s.die die).root

/-- The PAs of the entries that a walk reads, in order. -/
def walkPas (s : State) (die off : Nat) : Nat → Nat → List Nat
  | level, t =>
    let pa := t + 8 * (off / 2 ^ levelShift level % levelEntries level)
    let e := wordOf (s.readPa die pa 8)
    if (s.die die).poison.contains (pa / 128) || !pteV e || pteMalformed level e || pteLeaf e then [pa]
    else match level with
      | 0 => [pa]
      | l + 1 => pa :: walkPas s die off l (pteAddr e)

/-- Does a TLB entry cover an offset? -/
def TlbEntry.covers (t : TlbEntry) (off : Nat) : Bool := t.base ≤ off && off < t.base + 2 ^ levelShift t.level

/-- Entries of a slice port's TLB (R351). -/
def tlbSize : Nat := 4096

/-- A leaf enters a TLB; which entry leaves a full one the spec does not say: a free value (log entry 10). -/
def tlbInsert (draw : Nat) (e : TlbEntry) (l : List TlbEntry) : List TlbEntry :=
  if l.length < tlbSize then e :: l else e :: l.eraseIdx (Config.tlbVictim draw % tlbSize)

/-- Write a table entry: the leaf is invalidated in all 32 TLBs of the die (R352). -/
def State.writeEntry (s : State) (die pa : Nat) (w : Word) : State :=
  let d := s.die die
  (s.setDie die { d with tlbs := d.tlbs.map fun t => (t.1, t.2.filter fun e => e.entryPa ≠ pa) }).putPa die pa (wordBytes w)

/-- Where the bytes of a compressed page are kept: the format is the part's own, so the model keeps the page's bytes under
its descriptor (R355, log entry 7). -/
def compressedPa (die desc : Nat) : Nat := 2 ^ 60 + die * 2 ^ 56 + desc * 65536

/-- The PA of an offset under its leaf. -/
def leafPa (die off level : Nat) (e : Word) : Nat :=
  if pteCmp e then compressedPa die (pteAddr e) + off % 65536 else pteAddr e + off % 2 ^ levelShift level

/-- The ways an access may use a byte. -/
structure Use where
  read : Bool
  write : Bool
deriving DecidableEq, Repr

def Use.r : Use := ⟨true, false⟩
def Use.w : Use := ⟨false, true⟩
def Use.rw : Use := ⟨true, true⟩

/-- The first failing check of a leaf, in the order of R351. -/
def leafCause (u : Use) (e : Word) : Option Nat :=
  if u.read && !pteRd e then some 0x0C6
  else if u.write && !pteW e then some 0x0C2
  else if !pteRes e then some 0x0C3
  else none

/-- Where the bytes of a VA live. -/
inductive Place where
  | host (addr : Nat)
  | home (die off : Nat)
  | remote (pkg va : Nat)
deriving DecidableEq, Repr

/-- Die 3 of package 4,095, which no global address reaches (R342). -/
def absentDie (va : Nat) : Bool := va / 2 ^ 50 % 2 ^ 14 = 0x3FFF

/-- The host window of the issuing package is named by 0x3FFF in bits [63:50], before any home (R342). -/
def placeOf (s : State) (va : Nat) : Place :=
  if va / 2 ^ 50 % 2 ^ 14 = 0x3FFF then .host (va % 2 ^ 50)
  else if va / 2 ^ 52 % 2 ^ 12 = s.sirxon.package.toNat then .home (va / 2 ^ 50 % 4) (va % 2 ^ 50)
  else .remote (va / 2 ^ 52 % 2 ^ 12) (va % 2 ^ 64)

/-- The slice index of an offset or PA (R341, R351). -/
def sliceOf (off : Nat) : Nat := off / 512 % 32

/-- The pseudo-channel that holds a PA of a die (R340, R341). -/
def pcOf (die pa : Nat) : Nat := (2 * die + pa / 2 ^ 13 % 2) * 32 + 2 * (pa / 2 ^ 9 % 16) + pa / 2 ^ 16 % 2

end Sys2Proof.Machine
end

