-- ==== Sys2Proof/Machine/Memory.lean ====
section
/-! DEFINITION. Global memory: agents and homes, logical time at the home slices, the last-level cache's lines, the slices'
queues in compute phases, the core write paths and the cluster caches, and reads and writes at each scope (spec 15, spec 17
R359, R360, spec 18 R366 to R368, spec 11 R252). -/

namespace Sys2Proof.Machine

/-! ### Agents and homes (R316) -/

def Agent.core? : Agent → Option (Fin 512)
  | .seq w => some w.core
  | .channel w _ => some w.core
  | _ => none

/-- The sequencer behind a write at core or cluster scope. -/
def Agent.issuer : Agent → SeqId
  | .seq w => w
  | .channel w _ => w
  | _ => ⟨0, 0⟩

/-- SOURCE of an error record (R360). -/
def srcCore : Nat := 0
def srcCopy : Nat := 1
def srcCard : Nat := 2
def srcPatrol : Nat := 3
def srcWalk : Nat := 4
def srcEviction : Nat := 5
def srcHost : Nat := 6

/-- SOURCE of an agent's error records; for the agents that R360 does not name it is log entry 70's. -/
def Agent.source : Agent → Nat
  | .seq _ => srcCore
  | .channel _ _ => srcCopy
  | .engine _ _ => srcCard
  | .scheduler _ => srcCard
  | .host => srcHost
  | .sirxon => srcCard
  | .cache _ => srcCore
  | .remote _ _ => srcCore

/-- The number of a card engine or tower unit among those of its die. -/
def CardUnit.number : CardUnit → Nat
  | .copy => 0
  | .collective => 1
  | .migration => 2
  | .bankMac t => 3 + t.val
  | .attention t => 11 + t.val
  | .row t => 19 + t.val

/-- The key of a remote agent's time. -/
def remoteKey (pkg agent : Nat) : Nat := 65536 * pkg + agent

/-- The agent's logical time T (R327); the scheduler's is the time of R330. A cache passes each write on at the time of its
writer, and has none of its own. -/
def State.timeOf (s : State) : Agent → Nat
  | .seq w => (s.seq w).time
  | .channel w c => ((s.seq w).channels[c]).time
  | .engine d u => tabGet 0 u.number (s.die d).unitTimes
  | .scheduler d => (s.die d).schedTime
  | .host => s.host.time
  | .sirxon => s.sirxon.time
  | .cache _ => 0
  | .remote p a => tabGet 0 (remoteKey p a) s.nets.times

def State.setTime (s : State) (t : Nat) : Agent → State
  | .seq w => s.setSeq w { s.seq w with time := t }
  | .channel w c => s.setSeq w { s.seq w with channels := (s.seq w).channels.set c { (s.seq w).channels[c] with time := t } }
  | .engine d u => s.setDie d { s.die d with unitTimes := tabPut u.number t (s.die d).unitTimes }
  | .scheduler d => s.setDie d { s.die d with schedTime := t }
  | .host => { s with host := { s.host with time := t } }
  | .sirxon => { s with sirxon := { s.sirxon with time := t } }
  | .cache _ => s
  | .remote p a => { s with nets := { s.nets with times := tabPut (remoteKey p a) t s.nets.times } }

/-- A card starts: its unit's T becomes the scheduler time (R330), and stays above it while another card of the unit runs. -/
def State.startUnit (s : State) (die : Nat) (u : CardUnit) : State :=
  s.setTime (max (s.timeOf (.engine die u)) (s.die die).schedTime) (.engine die u)

/-- A card ends: the scheduler time covers its unit's T (R330, R334), and no request of it waits at a slice any more. -/
def State.endUnit (s : State) (die : Nat) (u : CardUnit) : State :=
  let s := { s with pcs := s.pcs.map fun (e : Nat × Pc) => (e.1, { e.2 with queue := e.2.queue.filter fun r => r.who ≠ Agent.engine die u }) }
  s.setDie die { s.die die with schedTime := max (s.die die).schedTime (s.timeOf (.engine die u)) }

/-- The home of a byte: host memory, a PA of a die, or another package's byte by VA. -/
inductive Home where
  | host (addr : Nat)
  | dram (die pa : Nat)
  | far (va : Nat)
deriving DecidableEq, Repr

/-- The number of the home line of a byte. -/
def Home.line : Home → Nat
  | .host a => 2 ^ 71 + a / 128
  | .dram d pa => dramKey d pa / 128
  | .far va => 2 ^ 70 + va / 128

def Home.plus (h : Home) (n : Nat) : Home :=
  match h with
  | .host a => .host (a + n)
  | .dram d pa => .dram d (pa + n)
  | .far va => .far (va + n)

/-- A VA range cut into pieces that lie in one 128 B line each; addresses wrap at 2^64. -/
def lineSpans (va n : Nat) : List (Nat × Nat) :=
  if n = 0 then []
  else (List.range ((va % 128 + n + 127) / 128)).map fun i =>
    let lo := if i = 0 then va else (va / 128 + i) * 128
    let hi := min (va + n) ((va / 128 + i + 1) * 128)
    (lo % 2 ^ 64, hi - lo)

/-! ### Frames and poison (R355, R359) -/

/-- The frame that holds a compressed page's bytes, with the KiB used (R355). -/
def State.compressedFrame (s : State) (die pa : Nat) : Option (Nat × Nat) :=
  tabFind (pa % 2 ^ 56 / 65536) (s.die die).compressed

/-- Does a PA lie under a compressed page's descriptor? -/
def isCompressed (pa : Nat) : Bool := 2 ^ 60 ≤ pa

/-- The PA whose pseudo-channel serves a byte: its own, or for a compressed page the place of the byte in the frame. -/
def State.framePa (s : State) (die pa : Nat) : Nat :=
  if isCompressed pa then (s.compressedFrame die pa).elim 0 (fun f => f.1 * 65536 + pa % 65536) else pa

/-- The poisoned line that a read of a byte meets: its own, or any of those that hold its compressed page, which cannot be
decompressed without it (log entry 7). -/
def State.poisonAt (s : State) (die pa : Nat) : Option Nat :=
  if isCompressed pa then
    match s.compressedFrame die pa with
    | some (f, n) => (s.die die).poison.find? fun x => f * 512 ≤ x && x < f * 512 + 8 * n
    | none => none
  else if (s.die die).poison.contains (pa / 128) then some (pa / 128) else none

/-! ### Error records (R359, R360) -/

/-- Is the line of a PA held in its slice? -/
def State.inSlice (s : State) (die pa : Nat) : Bool := (s.die die).lines.any fun l => l.line == pa / 128

/-- Word 1 of an error record for a line of a die; SLC says that the error was found in a slice's copy. -/
def errorWord (die pa : Nat) (slc : Bool) (source kind : Nat) : Word :=
  let pc := pcOf die pa
  place 61 (pc / 32) + place 56 (if slc then pa / 2 ^ 9 % 16 else pc % 32) + place 52 (pa / 2 ^ 17 % 16)
    + place 36 (pa / 2 ^ 21 % 65536) + place 32 (pa / 2 ^ 14 % 4 * 4 + pa / 128 % 4) + place 16 (bit slc)
    + place 8 source + place 0 kind

/-- Write an error record into the die's error ring. -/
def State.addErrorAt (s : State) (slc : Bool) (die pa va source kind : Nat) : State :=
  let pa := pa / 128 * 128
  s.setDie die { s.die die with
    errors := (s.die die).errors ++ [{ stamp := s.stamp, word1 := errorWord die pa slc source kind,
                                       pa := BitVec.ofNat 64 (pa % 2 ^ 37 + die * 2 ^ 37), va := BitVec.ofNat 64 va }] }

/-- An error of an access through the slice: found in its copy where it holds the line. -/
def State.addError (s : State) (die pa va source kind : Nat) : State :=
  s.addErrorAt (s.inSlice die pa) die pa va source kind

/-! ### Last-level cache lines (R116, R327, R328, R332) -/

/-- The lines of a superblock in a list of lines. -/
def superOf (l : SliceLine) : Nat := l.line / 4

def hintOf (n : Nat) : BitVec 2 := BitVec.ofNat 2 n

/-- Distinct superblocks, most recently used first. -/
def supers (ls : List SliceLine) : List Nat := (ls.map superOf).eraseDups

/-- The last member of a list that holds, if any: the least recently used. -/
def lastWith (p : Nat → Bool) (l : List Nat) : Option Nat := (l.filter p).getLast?

/-- The superblock to evict from a full set (R332): one whose lines are all streaming, of these the one used last, which
stands nearest the replacement end (R116); else the least recently used that is not sticky, else the least recently used. -/
def victimOf (ls : List SliceLine) (members : List Nat) : Option Nat :=
  let of (b : Nat) := ls.filter fun l => superOf l = b
  match members.find? (fun b => (of b).all fun l => l.hint == 1) with
  | some b => some b
  | none => match lastWith (fun b => !(of b).any fun l => l.hint == 2) members with
    | some b => some b
    | none => members.getLast?

/-- When sticky superblocks exceed half of a set's 12 ways, the oldest of them is recorded as default (R116; the least recently
used is taken for the oldest, log entry 8). -/
def calmSticky (ls : List SliceLine) (members : List Nat) : List SliceLine :=
  let sticky := members.filter fun b => ls.any fun l => superOf l = b && l.hint == 2
  if 6 < sticky.length then
    match sticky.getLast? with
    | some b => ls.map fun l => if superOf l = b && l.hint == 2 then { l with hint := 0 } else l
    | none => ls
  else ls

/-- Raise FLOOR of a superblock's slice to at least t (R328). -/
def raiseFloor (v : Vector Nat 32) (b t : Nat) : Vector Nat 32 :=
  v.set (b % 32) (max (v[b % 32]'(Nat.mod_lt _ (by decide))) t) (Nat.mod_lt _ (by decide))

/-- The set of a superblock: its slice, and one of the slice's 8,192 sets (R332). -/
def setOf (b : Nat) : Nat × Fin 8192 := (b % 32, Config.sliceSet b)

/-- What a set does once line k stands first in a list of lines: the lines as the sticky limit leaves them, and the
superblock that leaves an over full set of 12 ways. With at most 12 superblocks in the whole die, and at most 6 of them sticky,
neither limit can be passed, whatever the set function is. -/
def replaceIn (ls : List SliceLine) (k : Nat) : List SliceLine × Option Nat :=
  let bs := supers ls
  if bs.length ≤ 12 && (ls.filter fun l => l.hint == 2).length ≤ 6 then (ls, none)
  else
    let members := bs.filter fun b => setOf b == setOf (k / 4)
    let ls := calmSticky ls members
    (ls, if members.length ≤ 12 then none else victimOf ls (members.filter fun b => b ≠ k / 4))

/-- After line k was put first: a superblock leaves an over full set, and FLOOR rises to its leases (R328, R332). -/
def Die.evictFor (d : Die) (k : Nat) : Die :=
  match replaceIn d.lines k with
  | (ls, none) => { d with lines := ls }
  | (ls, some b) =>
    let top := (ls.filter fun l => superOf l = b).foldl (fun m l => max m l.rts) 0
    { d with lines := ls.filter fun l => superOf l ≠ b, floors := raiseFloor d.floors b top }

/-- WTS and RTS of a line: the slice's, or FLOOR for a line to be filled (R328). -/
def State.lineTimes (s : State) : Home → Nat × Nat
  | .host _ => (0, 0)
  | .dram d pa =>
    match (s.die d).lines.find? fun l => l.line == pa / 128 with
    | some l => (l.wts, l.rts)
    | none => let f := (s.die d).floors.toList.getD (sliceOf pa) 0; (f, f)
  | .far va =>
    match s.remoteLines.find? fun l => l.line == va / 128 with
    | some l => (l.wts, l.rts)
    | none => (0, 0)

/-- Put a line first in its slice with its times; it stays dirty once written. -/
def putLine (ls : List SliceLine) (line wts rts : Nat) (dirty : Bool) (hint : BitVec 2) : List SliceLine :=
  let was := match ls.find? fun l => l.line == line with
    | some l => l.dirty
    | none => false
  let rest := ls.filter fun l => l.line ≠ line
  { line := line, wts := wts, rts := rts, dirty := dirty || was, hint := hint } :: rest

/-- Record times and hint of a line at its home. A bypass access allocates as streaming (R116). -/
def State.setLine (s : State) (h : Home) (wts rts : Nat) (dirty : Bool) (hint : BitVec 2) : State :=
  let hint := if hint = 3 then 1 else hint
  match h with
  | .host _ => s
  | .dram d pa =>
    let k := s.die d
    s.setDie d (({ k with lines := putLine k.lines (pa / 128) wts rts dirty hint } : Die).evictFor (pa / 128))
  | .far va => { s with remoteLines := putLine s.remoteLines (va / 128) wts rts dirty hint }

/-! ### Phases and the slices' queues (R366, R367, R372) -/

/-- How a request uses its line: a read, a write, or one that waits for the phase to end even when the slice holds the line:
an AMO, a PUT signal add, a collective's packet. -/
inductive Demand where
  | read | write | atomic
deriving DecidableEq, Repr

/-- The numbers by which a slice tells a sequencer's slot, a channel's piece or an engine's card from the next one. -/
def State.ticket (s : State) : Agent → Nat
  | .seq w =>
    let b := (s.seq w).bundle
    64 * b.issued.toNat + 8 * (b.replay.elim 0 fun r => r.entries.length) + b.pos
  | .channel w c => ((s.seq w).channels[c]).done.toNat
  | _ => 0

/-- Does a queued request still stand? One whose slot is over, whose channel has gone on, or whose engine runs no card has
left the queue; the host, the management controller and others wait while the phase lasts. -/
def State.stands (s : State) (p : Pc) (r : Request) : Bool :=
  r.ticket = s.ticket r.who && match r.who with
    | .seq w => (s.seq w).phase = .running || (s.seq w).phase = .service
    | .channel w c => ((s.seq w).channels[c]).busy
    | .engine d _ => (s.die d).table.any fun e => e.card.isSome && e.status = .issued
    | .cache c => (s.cluster c).pending.any fun x => x.va / 128 = r.vaLine
    | .host => !s.host.waiting.isEmpty
    | .scheduler _ => p.compute || p.normalAt.isSome || !p.held.isEmpty
    | .sirxon => p.compute || p.normalAt.isSome || !p.held.isEmpty
    | .remote _ _ => !s.nets.arrived.isEmpty

/-- The requests that still wait at a pseudo-channel. -/
def State.waitingAt (s : State) (n : Nat) : List Request := (s.pcAt n).queue.filter (s.stands (s.pcAt n))

/-- The requests that the DRAM of a pseudo-channel in a compute phase keeps waiting (R367, R368). -/
def State.owedAt (s : State) (n : Nat) : List Request := (s.waitingAt n).filter fun r => r.cause = .phase

/-- Does an earlier request wait ahead of an agent's: for the line, or, once its own waits in the queue, for the same reason?
Those that a phase or a card step keeps are applied in the order they arrived (R367, R372). -/
def State.queuedAhead (s : State) (n : Nat) (ag : Agent) (line : Nat) : Bool :=
  let q := s.waitingAt n
  let own (r : Request) : Bool := r.who = ag && r.line = line
  let why := (q.find? own).map Request.cause
  (q.takeWhile fun r => !own r).any fun r => r.line = line || (why = some r.cause && r.cause ≠ .behind)

/-- The other pseudo-channel of a slice (R340). -/
def siblingPc (n : Nat) : Nat := n ^^^ 1

/-- Does a card step hold the row of a PA from a demand, in its compute phase or over a yield in it (R372)? -/
def Pc.holds (p : Pc) (pa : Nat) (k : Demand) : Bool :=
  p.held.any fun r => r.bank = pa / 2 ^ 17 % 16 && r.row = pa / 2 ^ 21 % 65536 && (r.reads || k ≠ .read)

/-- The pseudo-channel in a compute phase to which filling a line would send a dirty superblock, if any (R367). -/
def State.evictionWaits (s : State) (die pa : Nat) : Option Nat :=
  let d := s.die die
  match replaceIn (putLine d.lines (pa / 128) 0 0 false 0) (pa / 128) with
  | (ls, some b) =>
    let m := pcOf die (s.framePa die (512 * b))
    if (ls.any fun l => superOf l = b && l.dirty) && (s.pcAt m).compute then some m else none
  | (_, none) => none

/-- The pseudo-channel of a PA. -/
def State.channelOf (s : State) (die pa : Nat) : Nat := pcOf die (s.framePa die pa)

/-- What keeps a request at its home waiting, and at which pseudo-channel: a row that a card step holds, a compute phase it
cannot be served in, an eviction that must wait, or an earlier request. -/
def State.homeBlocked (s : State) (ag : Agent) (h : Home) (k : Demand) : Option (Nat × QueueCause) :=
  match h with
  | .dram d pa =>
    let n := s.channelOf d pa
    let p := s.pcAt n
    if p.holds (s.framePa d pa) k then some (n, .held)
    else if p.compute && (k = .atomic || !s.inSlice d pa) then some (n, .phase)
    else match (if s.inSlice d pa then none else s.evictionWaits d pa) with
      | some m => some (m, .phase)
      | none =>
        if s.queuedAhead n ag h.line || s.queuedAhead (siblingPc n) ag h.line then some (n, if p.compute then .phase else .behind)
        else none
  | _ => none

/-- A request stands in the queue of a pseudo-channel, in the order of arrival, for a reason; the first one that a compute phase
keeps starts the count of R368. One that waits for its turn keeps the reason it came with. -/
def State.queueAt (s : State) (n : Nat) (r : Request) : State :=
  let p := s.pcAt n
  let q := s.waitingAt n
  let same (x : Request) : Bool := x.who = r.who && x.line = r.line
  let turn := !p.compute && r.cause ≠ .held
  let q := if q.any same then (if turn then q else q.map fun x => if same x then { x with cause := r.cause } else x) else q ++ [r]
  s.setPcAt n { p with queue := q,
                       queuedAt := if p.compute && r.cause = .phase && p.queuedAt.isNone then some s.cycle else p.queuedAt }

/-- A request that must wait joins the queue of its pseudo-channel's slice, and an eviction's that of the victim's. -/
def State.enqueue (s : State) (ag : Agent) (h : Home) (va : Nat) (why : Nat × QueueCause) : State :=
  match h with
  | .dram d pa =>
    let n := s.channelOf d pa
    let r : Request := { who := ag, line := h.line, vaLine := va / 128, ticket := s.ticket ag, cause := why.2 }
    if why.1 = n then s.queueAt n r else (s.queueAt n { r with cause := .behind }).queueAt why.1 r
  | _ => s

/-- A request leaves the queue of a pseudo-channel. -/
def State.leaveQueue (s : State) (n : Nat) (ag : Agent) (line : Nat) : State :=
  let p := s.pcAt n
  if p.queue.isEmpty then s else s.setPcAt n { p with queue := p.queue.filter fun r => !(r.who = ag && r.line = line) }

/-- A request that is served leaves the queues of its slice; one that another package has served is over. -/
def State.dequeue (s : State) (ag : Agent) (h : Home) : State :=
  match h with
  | .dram d pa =>
    let n := s.channelOf d pa
    (s.leaveQueue n ag h.line).leaveQueue (siblingPc n) ag h.line
  | .far va => if ag.numbered || s.nets.asking.isEmpty then s else { s with nets := s.nets.endRequests ag fun r => r.va = va }
  | .host _ => s

/-- A collective's packet waits as an AMO does (R367). -/
def Agent.demand (ag : Agent) (k : Demand) : Demand :=
  match ag with
  | .engine _ .collective => .atomic
  | _ => k

/-- A request at its home: it is served, or waits in the slice's queue (R367). -/
def needHome (ag : Agent) (h : Home) (va : Nat) (k : Demand) : M Unit := do
  let k := ag.demand k
  match (← get).homeBlocked ag h k with
  | some why =>
    modify fun s => s.enqueue ag h va why
    stall
  | none => modify fun s => s.dequeue ag h

/-! ### Homes: bytes -/

def State.homeBytes (s : State) (h : Home) (n : Nat) : List Byte :=
  match h with
  | .host a => readBytes s.hostMem a n
  | .dram d pa => readBytes s.dram (dramKey d pa) n
  | .far va => readBytes s.remote va n

/-- A write to a line fires every monitor armed on it (R123). -/
def State.fireMonitors (s : State) (line : Nat) : State :=
  s.mapSeqs fun _ q =>
    match q.monitor with
    | some m => if m.line = line then { q with monitor := some { m with fired := true } } else q
    | none => q

/-- Store bytes at their home. A write of all 128 bytes of a line clears its poison mark (R359). -/
def State.putBytes (s : State) (h : Home) (l : List Byte) : State :=
  match h with
  | .host a => { s with hostMem := writeBytes a l s.hostMem }
  | .dram d pa =>
    let s := { s with dram := writeBytes (dramKey d pa) l s.dram }
    if pa % 128 = 0 && l.length = 128 && (s.die d).poison.contains (pa / 128) then
      s.setDie d { s.die d with poison := (s.die d).poison.filter fun x => x ≠ pa / 128 }
    else s
  | .far va => { s with remote := writeBytes va l s.remote }

/-- home_write of R327 at logical time t, within one line; the answer is the write time. -/
def State.homeWriteAt (s : State) (h : Home) (l : List Byte) (t : Nat) (hint : BitVec 2) : State × Nat :=
  let (_, rts) := s.lineTimes h
  let wts := max (rts + 1) t
  (((s.putBytes h l).setLine h wts wts true hint).fireMonitors h.line, wts)

/-- home_write of R327 by an agent; at die scope or wider its T becomes the write time. -/
def State.homeWrite (s : State) (ag : Agent) (sc : Scope) (h : Home) (l : List Byte) (hint : BitVec 2) : State :=
  match h with
  | .host _ => s.putBytes h l
  | _ =>
    let (s', wts) := s.homeWriteAt h l (s.timeOf ag) hint
    if 2 ≤ sc.rank then s'.setTime wts ag else s'

/-- home_read of R327: the agent's T at die scope or wider, and the line's lease. -/
def State.homeLease (s : State) (ag : Agent) (sc : Scope) (h : Home) (hint : BitVec 2) : State :=
  match h with
  | .host _ => s
  | _ =>
    let (wts, rts) := s.lineTimes h
    let t := if 2 ≤ sc.rank then max (s.timeOf ag) wts else s.timeOf ag
    (s.setTime t ag).setLine h wts (max rts (t + Config.lease)) false hint

/-! ### Compressed pages (R355) -/

/-- Move the bytes of a range, cell by cell; bytes of the target not moved to read as unlisted. -/
def moveCells (m : Memory) (src dst n : Nat) : Memory :=
  let cells := m.filter fun c => src ≤ c.1 && c.1 < src + n
  cells.foldl (fun acc c => writeByte (c.1 - src + dst) c.2 acc) (clearBytes (clearBytes m src n) dst n)

/-- The first frame that would hold a reserved row (R365): rows 65,528 on, the top 16 MiB of the die's PA space. -/
def reservedFrame : Nat := 65528 * 32

/-- Take a 64 KiB frame from the die's free pool, in which no frame of a reserved row stands (R365). -/
def Die.takeFrame (d : Die) : Option (Nat × Die) :=
  match d.frames with
  | [] => none
  | (f, n) :: t =>
    if n ≤ 1 then some (f, { d with frames := t }) else some (f, { d with frames := (f + 1, n - 1) :: t })

def Die.freeFrame (d : Die) (f : Nat) : Die :=
  if d.withdrawn.contains f then d else { d with frames := d.frames ++ [(f, 1)] }

/-- The poison marks of a frame. -/
def Die.framePoison (d : Die) (f : Nat) : List Nat := d.poison.filter fun x => f * 512 ≤ x && x < f * 512 + 512

/-- A frame whose 512 lines are written whole holds no poison mark (R359). -/
def Die.cleanFrame (d : Die) (f : Nat) : Die := { d with poison := d.poison.filter fun x => !(f * 512 ≤ x && x < f * 512 + 512) }

/-- Every line of a frame poisoned. -/
def Die.spoilFrame (d : Die) (f : Nat) : Die :=
  { d with poison := ((List.range 512).map (f * 512 + ·)) ++ (d.cleanFrame f).poison }

/-- The monitors armed on the lines of a page that migrates are lost (R124): the page's 512 lines from a home line on. -/
def State.loseMonitors (s : State) (line : Nat) : State :=
  s.mapSeqs fun _ q =>
    match q.monitor with
    | some m => if line ≤ m.line && m.line < line + 512 then { q with monitor := none } else q
    | none => q

/-- A page's bytes are kept elsewhere in its home without a migration: the monitors armed on its 512 lines go with them. -/
def State.moveMonitors (s : State) (src dst : Nat) : State :=
  s.mapSeqs fun _ q =>
    match q.monitor with
    | some m => if src ≤ m.line && m.line < src + 512 then { q with monitor := some { m with line := m.line - src + dst } } else q
    | none => q

/-- The lines of 64 KiB from a PA on leave the slices, FLOOR rising to their leases (R328, R357). -/
def Die.dropPage (d : Die) (pa : Nat) : Die :=
  let inside (l : SliceLine) : Bool := pa / 128 ≤ l.line && l.line < pa / 128 + 512
  { d with lines := d.lines.filter fun l => !inside l,
           floors := (d.lines.filter inside).foldl (fun v l => raiseFloor v (l.line / 4) l.rts) d.floors }

/-- The frame of a compressed page goes back to the pool. -/
def Die.releaseCompressed (d : Die) (desc : Nat) : Die :=
  match tabFind desc d.compressed with
  | some (g, _) => ({ d with compressed := tabDel desc d.compressed } : Die).freeFrame g
  | none => d

/-- Expand a compressed page into a full frame and clear CMP; none when no frame is free. A page that poison keeps from being
read leaves every line of the frame poisoned (log entry 7). -/
def State.expandPage (s : State) (die entryPa : Nat) (e : Word) : Option State :=
  match (s.die die).takeFrame with
  | none => none
  | some (f, d) =>
    let from_ := compressedPa die (pteAddr e)
    let bad := (s.poisonAt die from_).isSome
    let d := (if bad then d.spoilFrame f else d.cleanFrame f).releaseCompressed (pteAddr e)
    let s := s.setDie die (d.dropPage from_)
    let s := { s with dram := moveCells s.dram (dramKey die from_) (dramKey die (f * 65536)) 65536 }
    let s := s.moveMonitors (dramKey die from_ / 128) (dramKey die (f * 65536) / 128)
    some (s.writeEntry die entryPa (mkLeaf (pteRes e) (pteW e) (pteRd e) false (pteMig e) (pteSpl e) (f * 65536)))

/-- A unit of a die needs the pseudo-channel of a row in DRAM: it waits while a compute phase or a card step keeps it, and while
an earlier request for the line waits (R366, R367). -/
def needRow (ag : Agent) (die pa va : Nat) : M Unit := do
  let s ← get
  let h := Home.dram die pa
  let n := pcOf die pa
  let p := s.pcAt n
  let why : Option QueueCause :=
    if p.holds pa .atomic then some .held
    else if p.compute then some .phase
    else if s.queuedAhead n ag h.line then some .behind
    else none
  match why with
  | some c =>
    set (s.enqueue ag h va (n, c))
    stall
  | none => set (s.dequeue ag h)

def needRows (ag : Agent) (die va : Nat) : List Nat → M Unit
  | [] => return ()
  | pa :: rest => do
    needRow ag die pa va
    needRows ag die va rest

/-- The 32 rows of a frame, one in each of 32 pseudo-channels (R341). -/
def frameRows (f : Nat) : List Nat := (List.range 32).map fun k => f * 65536 + 512 * k

/-- The frame of a leaf's page, compressed or not. -/
def State.leafFrame (s : State) (die : Nat) (e : Word) : Nat :=
  if pteCmp e then ((tabFind (pteAddr e) (s.die die).compressed).map Prod.fst).getD 0 else pteAddr e / 65536

/-- A write or AMO to a compressed page waits while the home die expands it into a full frame, whose rows and the source's have to
be reached (R355, R367). -/
def expandFor (ag : Agent) (die va entryPa : Nat) (e : Word) : M Unit := do
  needRows ag die va (frameRows ((← get).leafFrame die e))
  match ((← get).die die).takeFrame with
  | none => stall
  | some (f, _) =>
    needRows ag die va (frameRows f)
    match (← get).expandPage die entryPa e with
    | none => stall
    | some s => set s

/-! ### Translation at the slice port (R351) -/

/-- A walk's read of an entry is a read through the slice: it fills the line. -/
def walkReads (ag : Agent) (die va : Nat) : List Nat → M Unit
  | [] => return ()
  | pa :: rest => do
    let h := Home.dram die pa
    needHome ag h va .read
    modify fun s =>
      let (w, r) := s.lineTimes h
      if (s.die die).poison.contains (pa / 128) then s else s.setLine h w r false 0
    walkReads ag die va rest

/-- Translate an offset at its slice port: a leaf that the TLB holds, else a walk, whose leaf the TLB then holds. -/
def translate (ag : Agent) (die off va : Nat) : M Walk := do
  let s ← get
  let port := sliceOf off
  match (tabGet [] port (s.die die).tlbs).find? fun t => t.covers off with
  | some t => return .leaf t.level t.entryPa t.word
  | none =>
    let found := walk s die off
    walkReads ag die va (walkPas s die off 3 (s.die die).root)
    match found with
    | .leaf level entryPa e =>
      let s ← get
      let d := s.die die
      let t := tabGet [] port d.tlbs
      let entry : TlbEntry := { base := off / 2 ^ levelShift level * 2 ^ levelShift level, level := level, entryPa := entryPa, word := e }
      set { s.setDie die { d with tlbs := tabPut port (tlbInsert s.free entry t) d.tlbs } with
            free := if t.length < tlbSize then s.free else s.free + 1 }
    | _ => pure ()
    return found

/-! ### Resolving an address for an access (R115, R342, R351, R411) -/

/-- A packet that a route loses is counted where it was dropped, and its access waits for a response (R346, R348). -/
def reachSlice (ag : Agent) (die off va : Nat) : M Unit := do
  let s ← get
  match sliceReachable s.nets (s.nets.entry ag) die (sliceOf off) with
  | .arrives => pure ()
  | fate =>
    set { s with nets := s.nets.countDrop fate }
    waitFor .network (BitVec.ofNat 64 va)

/-- A request leaves for another package, and its home die answers (R408, R411); while its flit waits on the link, it waits. -/
def reachPackage (ag : Agent) (pkg va : Nat) : M Unit := do
  let s ← get
  let a := BitVec.ofNat 64 va
  raiseIf (fabricLink s.nets pkg).isNone 0x281 a
  let n := s.nets.ask ag va (s.ticket ag) s.cycle
  set { s with nets := n }
  if n.requestWaits ag va (s.ticket ag) then stall
  if !fabricResponds n (n.entry ag) pkg then waitFor .fabric a

/-- The causes of classes 0x3 and 0x9 that the home die of an access answers (R351, R359, R411). -/
def farCauses : List Cause := [0x0C1, 0x0C2, 0x0C3, 0x0C6, 0x0C7, 0x241, 0x242, 0x244]

/-- The cause with which another package's home die answers accesses to the page of a VA, if any (R411). -/
def State.farCause (s : State) (va : Nat) : Option Cause := (tabFind (va / 65536) s.remoteFaults).filter farCauses.contains

/-- Agents for which 0x3FFF in VA bits [63:50] names no host window: the host itself, and other packages (R342). -/
def Agent.outside : Agent → Bool
  | .host => true
  | .remote _ _ => true
  | _ => false

/-- Does the cause with which another package's home die answers a page concern a use: 0x0C6 and 0x241 reads, 0x0C2 writes,
every other one both (R351, R359)? The host's poisoned accesses are performed (R396). -/
def remoteRaises (ag : Agent) (use : Use) (c : Cause) : Bool :=
  if c.toNat = 0x241 then use.read && ag ≠ .host
  else if c.toNat = 0x0C6 then use.read
  else if c.toNat = 0x0C2 then use.write
  else true

/-- The home of a VA for a use, with every check of R351 in order, or the cause it raises. A VLD of a non-resident page
finds none (R115). -/
def resolve (ag : Agent) (use : Use) (vld : Bool) (va : Nat) : M (Option Home) := do
  raiseIf (ag.outside && absentDie va) 0x0C4 (BitVec.ofNat 64 va)
  let s ← get
  match placeOf s va with
  | .host a => return some (.host a)
  | .remote pkg va =>
    reachPackage ag pkg va
    match s.farCause va with
    | some c =>
      if !remoteRaises ag use c then return some (.far va)
      modify fun s => s.dequeue ag (.far va)
      if vld && c.toNat = 0x0C3 then return none
      else throw (.cause c (BitVec.ofNat 64 va) 0)
    | none => return some (.far va)
  | .home die off =>
    reachSlice ag die off va
    match ← translate ag die off va with
    | .unmapped => raise 0x0C1 (BitVec.ofNat 64 va)
    | .malformed => raise 0x0C7 (BitVec.ofNat 64 va)
    | .unreadable pa =>
      modify fun s => s.addError die pa va srcWalk 3
      raise 0x242 (BitVec.ofNat 64 va)
    | .splintering => stall
    | .leaf level entryPa e =>
      match leafCause use e with
      | some c => if vld && c = 0x0C3 then return none else raise c (BitVec.ofNat 64 va)
      | none =>
        if use.write && pteMig e then stall
        else if use.write && pteCmp e then
          expandFor ag die va entryPa e
          match walk (← get) die off with
          | .leaf level' _ e' => return some (.dram die (leafPa die off level' e'))
          | _ => stall
        else return some (.dram die (leafPa die off level e))

/-- A read of any byte of a poisoned line raises 0x241 and writes an error record (R359). -/
def checkPoison (ag : Agent) (va : Nat) (h : Home) : M Unit := do
  match h with
  | .dram d pa =>
    match (← get).poisonAt d pa with
    | some x =>
      modify fun s => s.addError d (128 * x) va ag.source 3
      raise 0x241 (BitVec.ofNat 64 va)
    | none => pure ()
  | _ => pure ()

/-- Resolve and check one piece of an access: translation, and poison for what it reads. -/
def checkSpan (ag : Agent) (use : Use) (vld : Bool) (va : Nat) : M (Option Home) := do
  let h ← resolve ag use vld va
  if use.read then
    match h with
    | some h => checkPoison ag va h
    | none => pure ()
  return h

/-! ### Cluster cache copies (R252, R328, R331) -/

/-- Is there a copy of a line in a cluster's cache that may serve? A copy is dropped 65,536 cycles after its fetch, or
once every write of the cluster to it is applied at home, if later (R328). -/
def Cluster.copyOf (k : Cluster) (cycle line : Nat) : Option Copy :=
  k.copies.find? fun c => c.line == line && (cycle < c.fetched + Config.copyLife || k.pending.any fun p => p.va / 128 == line)

def Cluster.dropCopy (k : Cluster) (line : Nat) : Cluster := { k with copies := k.copies.filter fun c => c.line ≠ line }

/-- Overlay of pending writes of a line over its bytes, in order; va is the address of the first byte. -/
def overlay (ps : List PendingWrite) (va : Nat) (l : List Byte) : List Byte :=
  ps.foldl (fun acc p =>
    acc.mapIdx fun i b => if p.va ≤ va + i && va + i < p.va + p.data.length then p.data.getD (va + i - p.va) b else b) l

/-- Do pending writes hold every byte of a range? -/
def covers (ps : List PendingWrite) (va n : Nat) : Bool :=
  (List.range n).all fun i => ps.any fun p => p.va ≤ va + i && va + i < p.va + p.data.length

/-- A write that has been applied at home stands in the cluster's copy of its line, which stays (R331). -/
def Cluster.mergeCopy (k : Cluster) (p : PendingWrite) : Cluster :=
  { k with copies := k.copies.map fun c => if c.line = p.va / 128 then { c with data := overlay [p] (c.line * 128) c.data } else c }

/-- When sticky copies exceed half of a set's 16 ways, the oldest of them is recorded as default (R116). -/
def calmCopies (cs members : List Copy) : List Copy :=
  let sticky := members.filter fun d => d.hint == 2
  if 8 < sticky.length then
    match sticky.getLast? with
    | some d => cs.map fun e => if e.line = d.line then { e with hint := 0 } else e
    | none => cs
  else cs

/-- The copy to evict from an over full set (R116): streaming first, of these the one used last, which stands nearest the
replacement end; then default, then sticky, the least recently used of each. -/
def copyVictim (free : List Copy) : Option Copy :=
  match free.find? (fun d => d.hint == 1) with
  | some d => some d
  | none => match (free.filter fun d => d.hint ≠ 2).getLast? with
    | some d => some d
    | none => free.getLast?

/-- Has a line a write of the cluster that is not yet applied at home? -/
def Cluster.owes (k : Cluster) (line : Nat) : Bool := k.pending.any fun p => p.va / 128 == line

/-- The copies in the set of a line. -/
def Cluster.setOf (k : Cluster) (line : Nat) : List Copy :=
  k.copies.filter fun d => Config.clusterSet d.line == Config.clusterSet line

/-- A set of more than 16 ways evicts under R116, never the copy of one line, nor a copy whose line has a pending write (R331). -/
def Cluster.shrinkSet (line : Nat) (keep : Option Nat) : Nat → Cluster → Cluster
  | 0, k => k
  | n + 1, k =>
    let members := k.setOf line
    if members.length ≤ 16 then k
    else match copyVictim (members.filter fun d => keep ≠ some d.line && !k.owes d.line) with
      | some d => Cluster.shrinkSet line keep n (k.dropCopy d.line)
      | none => k

/-- Put a copy first; its set evicts. With at most 16 copies in the cache, and at most 8 of them sticky, no limit can be passed,
whatever the set function is. -/
def Cluster.addCopy (k : Cluster) (c : Copy) : Cluster :=
  let cs : List Copy := c :: k.copies.filter fun d => d.line ≠ c.line
  if cs.length ≤ 16 && (cs.filter fun d => d.hint == 2).length ≤ 8 then { k with copies := cs }
  else
    let k := { k with copies := cs }
    let k := { k with copies := calmCopies cs (k.setOf c.line) }
    k.shrinkSet c.line (some c.line) cs.length

/-- Copies fetched 65,536 cycles ago or more leave, unless a write of theirs is pending (R328). -/
def Cluster.expire (k : Cluster) (cycle : Nat) : Cluster :=
  { k with copies := k.copies.filter fun c => cycle < c.fetched + Config.copyLife || k.owes c.line }

/-- A pending write has been applied at home: an eviction or a drop that waited for it takes effect (R331). -/
def Cluster.retirePending (k : Cluster) (cycle : Nat) (p : PendingWrite) : Cluster :=
  let k := ({ k with pending := k.pending.erase p } : Cluster).expire cycle
  if k.copies.length ≤ 16 then k else k.shrinkSet (p.va / 128) none k.copies.length

def State.retirePending (s : State) (cluster : Nat) (p : PendingWrite) : State :=
  s.setCluster cluster ((s.cluster cluster).retirePending s.cycle p)

/-- Record the hint of an access in a copy it hits (R116). -/
def Cluster.touch (k : Cluster) (cycle line : Nat) (hint : BitVec 2) : Cluster :=
  match k.copyOf cycle line with
  | some c => k.addCopy { c with hint := hint }
  | none => k

/-! ### Draining narrower writes (R326, R252) -/

/-- The write time that a sequencer's narrower access met is remembered for a later raise (R322). -/
def State.metWrite (s : State) (w : SeqId) (t : Nat) : State :=
  let q := s.seq w
  s.setSeq w { q with seen := max q.seen t }

/-- The home of a write that a cluster cache passes on: it was checked when its slot issued, and a change that withdraws a page
waits for it (R352). It waits for a network, a migration, or a frame to expand into. -/
def pendingHome (cluster : Nat) (va : Nat) : M Home := do
  let s ← get
  let ag := Agent.cache cluster
  match placeOf s va with
  | .host a => return .host a
  | .remote pkg va =>
    reachPackage ag pkg va
    return .far va
  | .home die off =>
    reachSlice ag die off va
    match ← translate ag die off va with
    | .leaf level entryPa e =>
      if pteMig e || !pteRes e then stall
      else if pteCmp e then
        expandFor ag die va entryPa e
        match walk (← get) die off with
        | .leaf level' _ e' => return .dram die (leafPa die off level' e')
        | _ => stall
      else return .dram die (leafPa die off level e)
    | _ => stall

/-- A write that an uncorrectable error struck reaches its home as a poisoned write, which marks the line and writes an error
record (R252, R359). -/
def State.spoilLine (s : State) (h : Home) (va : Nat) : State :=
  match h with
  | .dram d pa =>
    let k := s.die d
    let s := s.setDie d { k with poison := if k.poison.contains (pa / 128) then k.poison else pa / 128 :: k.poison }
    s.addError d pa va srcCore 2
  | _ => s

/-- The bytes that a struck write carries: free values (log entry 67). -/
def spoiltBytes (draw n : Nat) : List Byte := (List.range n).map (Config.spoiltByte draw)

/-- Apply a pending write at its home; the answer is its write time. The cluster's copy keeps the write. -/
def applyWrite (cluster : Nat) (p : PendingWrite) : M Nat := do
  let h ← pendingHome cluster p.va
  match h with
  | .host _ =>
    modify fun s => s.putBytes h p.data
    return 0
  | _ =>
    needHome (.cache cluster) h p.va .write
    let s ← get
    let p := if p.spoilt then { p with data := spoiltBytes s.free p.data.length } else p
    let (s', wts) := s.homeWriteAt h p.data p.time p.hint
    let s' := if p.spoilt then { s'.spoilLine h p.va with free := s'.free + 1 } else s'
    set ((s'.setCluster cluster ((s'.cluster cluster).mergeCopy p)).metWrite p.who wts)
    return wts

/-- The request of a pending write is out. -/
def Cluster.noteSent (k : Cluster) (p : PendingWrite) (r : Sent) : Cluster :=
  { k with pending := k.pending.map fun x => if x = p then { x with sent := some r } else x }

/-- A cluster cache has no request of its own open. -/
def State.endCacheRequest (s : State) (cluster : Nat) (p : PendingWrite) : State :=
  { s with nets := s.nets.endRequests (.cache cluster) fun r => r.va = p.va }

/-- Apply a pending write: the state with what it left, and its write time; none while it must wait. A write whose home can no
longer be reached, at once or after its second send, is lost, and time 0 stands for it (R348, R411, log entry 71). -/
def State.applyPending (s : State) (cluster : Nat) (p : PendingWrite) : State × Option Nat :=
  match (applyWrite cluster p).on s with
  | (.ok t, s') => (s', some t)
  | (.error (.cause _ _ _), s') => (s'.endCacheRequest cluster p, some 0)
  | (.error (.wait kind _), s') =>
    match askAgain p.sent kind s'.cycle with
    | some r => (s'.setCluster cluster ((s'.cluster cluster).noteSent p r), none)
    | none => (s'.endCacheRequest cluster p, some 0)
  | (.error _, s') => (s', none)

/-- The core's write path passes its writes up to the last one of a line to the cluster cache, in order (R326). -/
def State.passPath (s : State) (core line : Nat) : State :=
  let k := s.core core
  match (k.writePath.reverse.findIdx? fun p => p.va / 128 == line) with
  | none => s
  | some i =>
    let n := k.writePath.length - i
    let c := clusterOf core
    let s := s.setCore core { k with writePath := k.writePath.drop n }
    s.setCluster c { s.cluster c with pending := (s.cluster c).pending ++ k.writePath.take n }

/-- The core's write path passes all its writes to the cluster cache, in order (R326). -/
def State.passAll (s : State) (core : Nat) : State :=
  let k := s.core core
  let c := clusterOf core
  if k.writePath.isEmpty then s
  else (s.setCore core { k with writePath := [] }).setCluster c { s.cluster c with pending := (s.cluster c).pending ++ k.writePath }

/-- The cluster cache passes the writes that a condition names to their homes in order. The answer is none once one of them
must wait, those before it being applied, and otherwise the latest write time. -/
def drainPending (cluster : Nat) (which : PendingWrite → Bool) : List PendingWrite → State → Nat → State × Option Nat
  | [], s, t => (s, some t)
  | p :: rest, s, t =>
    if which p then
      match s.applyPending cluster p with
      | (s', none) => (s', none)
      | (s', some wts) =>
        drainPending cluster which rest (s'.retirePending cluster p) (max t wts)
    else drainPending cluster which rest s t

/-- Every write of the core's cluster to a line reaches its home before the core's own access that is performed there (R126,
R326). -/
def drainLine (core line : Nat) : M Unit := do
  modify fun s => s.passPath core line
  let s ← get
  let c := clusterOf core
  match drainPending c (fun p => p.va / 128 == line) (s.cluster c).pending s 0 with
  | (s', some _) => set s'
  | (s', none) =>
    set s'
    stall

/-- Raise every earlier access of a sequencer to a scope (R322, R125): its writes are performed there, and at die scope or
wider its T covers the writes and what its narrower reads met. -/
def raiseEarlier (w : SeqId) (sc : Scope) : M Unit := do
  if 1 ≤ sc.rank then modify fun s => s.passAll w.core
  if 2 ≤ sc.rank then
    let s ← get
    let c := clusterOf w.core
    match drainPending c (fun _ => true) (s.cluster c).pending s 0 with
    | (s', none) =>
      set s'
      stall
    | (s', some t) =>
      set s'
      modSeq w fun q => { q with time := max (max q.time t) q.seen }

/-- The writes of every cluster and core to a range of VAs reach their homes: is it done? A change that withdraws a page, and
a migration that moves one, waits for them (R352, R357). -/
def drainRange (lo n : Nat) : List Nat → State → State × Bool
  | [], s => (s, true)
  | c :: rest, s =>
    let mine (p : PendingWrite) : Bool := lo ≤ p.va && p.va < lo + n
    let s := (List.range 4).foldl (fun (s : State) i =>
      if (s.core (4 * c + i)).writePath.any mine then s.passAll (4 * c + i) else s) s
    match drainPending c mine (s.cluster c).pending s 0 with
    | (s', some _) => drainRange lo n rest s'
    | (s', none) => (s', false)

/-! ### Reads -/

/-- The first byte of a home line. -/
def Home.base (h : Home) (off : Nat) : Home :=
  match h with
  | .host a => .host (a - off)
  | .dram d pa => .dram d (pa - off)
  | .far v => .far (v - off)

/-- The whole line of a byte, read at its home by an agent; kept as a copy unless the access reads through. -/
def fetchLine (ag : Agent) (sc : Scope) (hint : BitVec 2) (keep : Bool) (va : Nat) (h : Home) : M (List Byte) := do
  needHome ag h va .read
  modify fun s => s.homeLease ag sc h hint
  let s ← get
  let data := s.homeBytes (h.base (va % 128)) 128
  match ag.core? with
  | some c =>
    let (wts, rts) := s.lineTimes h
    let k := s.cluster (clusterOf c)
    if keep && hint ≠ 3 then
      set (s.setCluster (clusterOf c)
        (k.addCopy { line := va / 128, data := data, wts := wts, rts := rts, fetched := s.cycle, hint := hint }))
    else set (s.setCluster (clusterOf c) (k.dropCopy (va / 128)))
  | none => pure ()
  return data

/-- What a sequencer's narrower read met is remembered for a later raise (R322). -/
def noteSeen (ag : Agent) (t : Nat) : M Unit := do
  match ag with
  | .seq w => modify fun s => s.metWrite w t
  | _ => pure ()

/-- The queued writes of a line that a read sees: all of them, but for a read at core scope that a free value keeps from those
of other cores which no agent has read yet, where the cache has a copy to serve (R326, R335, log entry 20). Those it sees count
as read. -/
def queuedFor (core : Nat) (sc : Scope) (line : Nat) (copied : Bool) : M (List PendingWrite) := do
  let c := clusterOf core
  let s ← get
  let mine := (s.cluster c).pending.filter fun p => p.va / 128 == line
  let fresh (p : PendingWrite) : Bool := !p.shown && p.who.core.val ≠ core
  if !(mine.any fresh) then return mine
  let hidden := sc = .core && copied && Config.queueHidden s.free
  set { s with free := s.free + 1 }
  if hidden then return mine.filter fun p => !fresh p
  modCluster c fun k => { k with pending := k.pending.map fun p => if p.va / 128 = line then { p with shown := true } else p }
  return mine

/-- A read at cluster scope of a piece of one line (R326): the cluster cache's queue and copy, else the home slice. -/
def clusterRead (ag : Agent) (core : Nat) (sc : Scope) (hint : BitVec 2) (keep : Bool) (va n : Nat) (h : Home) :
    M (List Byte) := do
  let s ← get
  let line := va / 128
  let copy := (s.cluster (clusterOf core)).copyOf s.cycle line
  let mine ← queuedFor core sc line copy.isSome
  if covers mine va n then
    noteSeen ag (mine.foldl (fun t p => max t p.time) 0)
    modCluster (clusterOf core) fun k => k.touch s.cycle line hint
    return overlay mine va (List.replicate n 0)
  match copy with
  | some c =>
    noteSeen ag c.wts
    modCluster (clusterOf core) fun k => k.touch s.cycle line hint
    return overlay mine va ((c.data.drop (va % 128)).take n)
  | none =>
    drainLine core line
    let data ← fetchLine ag .cluster hint keep va h
    noteSeen ag ((← get).lineTimes h).1
    return (data.drop (va % 128)).take n

/-- A read at die, package or fabric scope of a piece of one line (R326, R327): a line with a write of the cluster not yet
applied at home is served from the cluster cache's copy or queue; else a copy whose lease covers the reader, or the home. -/
def leaseRead (ag : Agent) (core : Nat) (sc : Scope) (hint : BitVec 2) (keep : Bool) (va n : Nat) (h : Home) :
    M (List Byte) := do
  let s ← get
  let line := va / 128
  let copy := (s.cluster (clusterOf core)).copyOf s.cycle line
  let mine ← queuedFor core sc line copy.isSome
  if covers mine va n then
    modCluster (clusterOf core) fun k => k.touch s.cycle line hint
    return overlay mine va (List.replicate n 0)
  match copy with
  | some c =>
    if !mine.isEmpty || s.timeOf ag ≤ c.rts then
      modify fun s => s.setTime (max (s.timeOf ag) c.wts) ag
      modCluster (clusterOf core) fun k => k.touch s.cycle line hint
      return overlay mine va ((c.data.drop (va % 128)).take n)
    let data ← fetchLine ag sc hint keep va h
    return (data.drop (va % 128)).take n
  | none =>
    drainLine core line
    let data ← fetchLine ag sc hint keep va h
    return (data.drop (va % 128)).take n

/-- A read of a piece of one line at a scope (R326). -/
def readSpan (ag : Agent) (sc : Scope) (hint : BitVec 2) (keep : Bool) (va n : Nat) (h : Home) : M (List Byte) := do
  match h with
  | .host a => return readBytes (← get).hostMem a n
  | _ =>
    match ag.core? with
    | none =>
      needHome ag h va .read
      modify fun s => s.homeLease ag sc h hint
      return (← get).homeBytes h n
    | some core =>
      let line := va / 128
      match sc with
      | .core =>
        let path := ((← getCore core).writePath).filter fun p => p.va / 128 == line
        if covers path va n then return overlay path va (List.replicate n 0)
        let l ← clusterRead ag core .core hint keep va n h
        return overlay path va l
      | .cluster =>
        modify fun s => s.passPath core line
        clusterRead ag core .cluster hint keep va n h
      | .system =>
        drainLine core line
        let data ← fetchLine ag sc hint false va h
        return (data.drop (va % 128)).take n
      | _ =>
        modify fun s => s.passPath core line
        leaseRead ag core sc hint keep va n h

/-! ### Writes -/

/-- A write of a piece of one line at a scope (R326). A copy that a narrower one hits takes its hint (R116). -/
def writeSpan (ag : Agent) (sc : Scope) (hint : BitVec 2) (va : Nat) (h : Home) (l : List Byte) : M Unit := do
  let s ← get
  match h with
  | .host _ => set (s.putBytes h l)
  | _ =>
    match ag.core? with
    | none =>
      needHome ag h va .write
      modify fun s => s.homeWrite ag .system h l hint
    | some core =>
      let p : PendingWrite := { va := va, data := l, time := s.timeOf ag, hint := hint, who := ag.issuer }
      match sc with
      | .core =>
        modCore core fun k => { k with writePath := k.writePath ++ [p] }
        modCluster (clusterOf core) fun k => k.touch s.cycle (va / 128) hint
      | .cluster =>
        modify fun s => s.passPath core (va / 128)
        modCluster (clusterOf core) fun k => ({ k with pending := k.pending ++ [p] } : Cluster).touch s.cycle (va / 128) hint
      | _ =>
        drainLine core (va / 128)
        needHome ag h va .write
        modify fun s => s.homeWrite ag sc h l hint
        modCluster (clusterOf core) fun k => k.dropCopy (va / 128)

/-! ### Whole accesses -/

/-- Do n bytes from a reach into [lo, hi)? -/
def reaches (a n lo hi : Nat) : Bool := decide (a < hi) && decide (lo < a + n)

/-- Does a later global access of a sequencer wait for its own transfers or weight loads (R188, R198)? -/
def State.globalHazard (s : State) (w : SeqId) (write : Bool) (va n : Nat) : Bool :=
  let q := s.seq w
  (q.channels.toList.any fun c =>
    match c.transfer with
    | some t => c.busy &&
        ((!t.mcst && !t.dstA && reaches va n (t.dst.toNat + c.done.toNat) (t.dst.toNat + t.len))
          || (write && !t.srcA && reaches va n (t.src.toNat + c.done.toNat) (t.src.toNat + t.len)))
    | none => false)
  || (write && (s.core w.core).loads.any fun l =>
    l.who = w && !l.aSpace && reaches va n l.src.toNat (l.src.toNat + 32768))

/-- An access of a sequencer waits while its own background work keeps it from its bytes. -/
def awaitGlobal (ag : Agent) (write : Bool) (va n : Nat) : M Unit := do
  match ag with
  | .seq w => if (← get).globalHazard w write va n then hazard
  | _ => pure ()

/-- Check every piece of a range for a use; the homes in order. -/
def checkSpans (ag : Agent) (use : Use) (vld : Bool) : List (Nat × Nat) → M (List (Nat × Nat × Option Home))
  | [] => return []
  | (va, n) :: rest => do
    awaitGlobal ag use.write va n
    let h ← checkSpan ag use vld va
    let t ← checkSpans ag use vld rest
    return (va, n, h) :: t

/-- A write at a scope that has to reach its home at once waits before any of its bytes is written. -/
def checkBlocked (ag : Agent) (sc : Scope) : List (Nat × Nat × Option Home) → M Unit
  | [] => return ()
  | (va, _, h) :: rest => do
    match h with
    | some h =>
      if 2 ≤ sc.rank then
        match h, ag.core? with
        | .host _, _ => pure ()
        | _, some c => drainLine c (va / 128)
        | _, none => pure ()
        needHome ag h va .write
    | none => pure ()
    checkBlocked ag sc rest

def readAll (ag : Agent) (sc : Scope) (hint : BitVec 2) (keep : Bool) : List (Nat × Nat × Option Home) → M (List Byte)
  | [] => return []
  | (va, n, h) :: rest => do
    let l ← match h with
      | some h => readSpan ag sc hint keep va n h
      | none => pure (List.replicate n 0)
    let t ← readAll ag sc hint keep rest
    return l ++ t

def writeAll (ag : Agent) (sc : Scope) (hint : BitVec 2) : List (Nat × Nat × Option Home) → List Byte → M Unit
  | [], _ => return ()
  | (va, n, h) :: rest, l => do
    match h with
    | some h => writeSpan ag sc hint va h (l.take n)
    | none => pure ()
    writeAll ag sc hint rest (l.drop n)

/-- Read n bytes of global memory: every check first, then the bytes. -/
def readGlobal (ag : Agent) (sc : Scope) (hint : BitVec 2) (va n : Nat) : M (List Byte) := do
  let ps ← checkSpans ag .r false (lineSpans va n)
  readAll ag sc hint true ps

/-- Write bytes to global memory: every check first, then the bytes. -/
def writeGlobal (ag : Agent) (sc : Scope) (hint : BitVec 2) (va : Nat) (l : List Byte) : M Unit := do
  let ps ← checkSpans ag .w false (lineSpans va l.length)
  checkBlocked ag sc ps
  writeAll ag sc hint ps l

end Sys2Proof.Machine
end

