-- ==== Sys2Proof/Machine/Granary.lean ====
section
/-! DEFINITION. A space: the bank map's windows, the bins' bytes and their poison (spec 05 R114, spec 11 R226 to R233), and
C space by byte (spec 05 R108, spec 02 R45). -/

namespace Sys2Proof.Machine

def binSize : Nat := 131072

/-- The checks of every A-space access (R114, R233): 0x083, 0x082, then the window's state. A window whose bin is on its
way makes the access wait. The answer is the place in the cluster's bin bytes. -/
def aCheck (core : Nat) (addr len : Nat) : M Nat := do
  let a := BitVec.ofNat 64 addr
  raiseIf (2 ^ 21 ≤ addr) 0x083 a
  raiseIf (binSize < addr % binSize + len) 0x082 a
  let k ← getCore core
  let w := k.windows[addr / binSize % 16]'(Nat.mod_lt _ (by decide))
  if w.inc then stall
  raiseIf (!w.att || w.drn) 0x081 a
  return w.bin.val * binSize + addr % binSize

/-- The 8-byte units that a range touches. -/
def unitsOf (p len : Nat) : List Nat := (List.range ((p % 8 + len + 7) / 8)).map fun i => p / 8 + i

/-- A read of a poisoned unit raises 0x241 (R229). -/
def aPoison (core : Nat) (addr p len : Nat) : M Unit := do
  let k ← getCluster (clusterOf core)
  raiseIf ((unitsOf p len).any fun u => k.poison.contains u) 0x241 (BitVec.ofNat 64 addr)

/-- Bytes of a bin. -/
def binRead (core : Nat) (p len : Nat) : M (List Byte) := do
  return readBytes ((← getCluster (clusterOf core)).mem) p len

/-- Write bytes of a bin; a unit written whole loses its poison mark (R229). -/
def Cluster.binWrite (k : Cluster) (p : Nat) (l : List Byte) : Cluster :=
  { k with mem := writeBytes p l k.mem,
           poison := k.poison.filter fun u => !(p ≤ 8 * u && 8 * u + 8 ≤ p + l.length) }

def binWrite (core : Nat) (p : Nat) (l : List Byte) : M Unit := modCluster (clusterOf core) fun k => k.binWrite p l

/-- The place of an A-space address in its cluster's bin bytes, as the core's bank map stands. -/
def Core.aPlace (k : Core) (addr : Nat) : Nat :=
  (k.windows[addr / binSize % 16]'(Nat.mod_lt _ (by decide))).bin.val * binSize + addr % binSize

/-- The team slot of a task in a cluster. -/
def Cluster.team (k : Cluster) (die : Fin 4) (serial : Nat) : Option Team :=
  k.teams.toList.findSome? fun e =>
    match e with
    | some e => if e.die = die && e.serial = serial then some e else none
    | none => none

/-- The team of a sequencer's task (R241). -/
def State.teamOf (s : State) (w : SeqId) : Option Team :=
  match (s.seq w).task with
  | none => none
  | some t => (s.cluster (clusterOf w.core)).team t.die t.serial

/-- The core that runs a rank of a sequencer's team. -/
def State.rankCore (s : State) (w : SeqId) (rank : Nat) : Nat :=
  match s.teamOf w with
  | some t => match t.cores[rank]? with
    | some c => c.val
    | none => w.core.val
  | none => w.core.val

/-- Does a later A-space access of the issuing group wait for the group's own transfers or weight loads (R188, R198)? The
range is in the cluster's bin bytes. -/
def State.aHazard (s : State) (w : SeqId) (write : Bool) (p n : Nat) : Bool :=
  let q := s.seq w
  let k := s.core w.core
  (q.channels.toList.any fun c =>
    match c.transfer with
    | some t => c.busy &&
        ((t.cores.any fun d =>
            let b := (s.core d).aPlace t.dst.toNat
            reaches p n (b + c.done.toNat) (b + t.len))
          || (write && t.srcA && reaches p n (k.aPlace t.src.toNat + c.done.toNat) (k.aPlace t.src.toNat + t.len)))
    | none => false)
  || (write && k.loads.any fun l =>
    l.who = w && l.aSpace && reaches p n l.place (l.place + 32768))

/-- An access of the core's issuing group waits while its own background work keeps it from its bytes. -/
def awaitBin (core : Nat) (write : Bool) (p n : Nat) : M Unit := do
  let s ← get
  match (s.core core).issuing with
  | some g => if s.aHazard ⟨Fin.ofNat 512 core, g⟩ write p n then hazard
  | none => pure ()

def aRead (core : Nat) (addr len : Nat) : M (List Byte) := do
  let p ← aCheck core addr len
  aPoison core addr p len
  awaitBin core false p len
  binRead core p len

def aWrite (core : Nat) (addr : Nat) (l : List Byte) : M Unit := do
  let p ← aCheck core addr l.length
  awaitBin core true p l.length
  binWrite core p l

/-! ### C space -/

/-- Byte b of C space: lane n occupies bytes 8n to 8n + 7, value first (R108). -/
def cByte (k : Core) (b : Nat) : Byte := (tabGet 0#64 (b / 8) k.lanes).extractLsb' (8 * (b % 8)) 8

def cRead (k : Core) (addr len : Nat) : List Byte := (List.range len).map fun i => cByte k (addr + i)

/-- The first byte past C space. -/
def cSize : Nat := 0x80000

end Sys2Proof.Machine
end

