-- ==== Sys2Proof/Machine/Operands.lean ====
section
/-! DEFINITION. What a slot reads as its operands: registers, latches, the held operand, stream ports (spec 03 R54 to R58, spec
05 R105 to R108), and the destination value that some slots read (spec 09 R215). -/

namespace Sys2Proof.Machine

/-- The element address of a stream (R106): none is pad. -/
def streamAddr (r : Regs) (d : Stream) : Option Nat :=
  let step (acc : Option Int) (k : Dim) : Option Int :=
    match acc with
    | none => none
    | some a =>
      if k.en && k.level.toNat < r.loops.length then
        let i := (r.loopAt k.level.toNat).index.toNat
        let e := k.extent.toNat
        if e = 0 then some (a + i * k.stride.toInt)
        else if k.wrap then some (a + (i % e : Nat) * k.stride.toInt)
        else if e ≤ i then none
        else some (a + i * k.stride.toInt)
      else some a
  (d.dims.toList.foldl step (some (d.base.toNat : Int))).map fun a => (a % (18446744073709551616 : Int)).toNat

/-- Which engines may read a port of a space (R107). -/
def portAllowed (e : Engine) (space : BitVec 2) : Bool :=
  match space.toNat with
  | 0 => true
  | 1 => e = .g || e = .v || e = .m || e = .k
  | _ => e = .m

/-- Read a port's bytes: 256 in a vector position, one element in a scalar one (R107, R108). -/
def portBytes (w : SeqId) (sc : Scope) (e : Engine) (d : Stream) (r : Regs) (n : Nat) : M (List Byte) := do
  match streamAddr r d with
  | none => return List.replicate n 0
  | some a =>
    raiseIf (!portAllowed e d.space) 0x088
    match d.space.toNat with
    | 0 => readGlobal (.seq w) sc 0 a n
    | 1 => aRead w.core a n
    | _ =>
      raiseIf (a % n ≠ 0 || cSize ≤ a) 0x08B (BitVec.ofNat 64 a)
      return cRead (← getCore w.core) a n

/-- Extend n bytes to 64 bits. -/
def extendBytes (zx : Bool) (l : List Byte) : Word :=
  let v := fromLe l
  if zx || l.length = 8 then BitVec.ofNat 64 v else BitVec.ofInt 64 (signedOf (8 * l.length) v)

/-- A scalar source other than a stream port (R54, R55): x register, 64-bit latch or held. -/
def regScalar (e : Engine) (r : Regs) (code : BitVec 6) : Word :=
  let c := code.toNat
  if c < 32 then r.getX (code.setWidth 5)
  else if c = 32 then r.lx[0]
  else if c = 33 then r.lx[1]
  else if c = 34 then r.lg[0]
  else if c = 35 then r.lg[1]
  else if c = 42 then r.lk
  else if c = 43 then r.ly
  else (r.held[e.idx]).setWidth 64

/-- A vector source other than a stream port (R54, R55). -/
def regVector (e : Engine) (r : Regs) (code : BitVec 6) : Vec :=
  let c := code.toNat
  if c < 32 then r.getV (code.setWidth 5)
  else if c = 36 then r.lv[0]
  else if c = 37 then r.lv[1]
  else if c = 38 then r.lv[2]
  else if c = 39 then r.lv[3]
  else if c = 40 then r.lm[0]
  else if c = 41 then r.lm[1]
  else r.held[e.idx]

/-- A scalar source's value (R54, R55). -/
def readScalar (w : SeqId) (sc : Scope) (e : Engine) (r : Regs) (code : BitVec 6) : M Word := do
  let c := code.toNat
  if !isPort code then return regScalar e r code
  else
    let d := r.streams[c % 16]'(Nat.mod_lt _ (by decide))
    return extendBytes d.zx (← portBytes w sc e d r (2 ^ d.esz.toNat))

/-- A vector source's value (R54, R55). -/
def readVector (w : SeqId) (sc : Scope) (e : Engine) (r : Regs) (code : BitVec 6) : M Vec := do
  let c := code.toNat
  if !isPort code then return regVector e r code
  else
    let d := r.streams[c % 16]'(Nat.mod_lt _ (by decide))
    return vecOf (← portBytes w sc e d r 256)

/-- One operand position; a scalar value fills the low 8 bytes (R215). A field or unused position reads nothing. -/
def readOperand (w : SeqId) (sc : Scope) (e : Engine) (r : Regs) (k : Kind) (code : BitVec 6) : M Vec :=
  match k with
  | .scalar => do return (← readScalar w sc e r code).setWidth 2048
  | .vector => readVector w sc e r code
  | _ => return 0

/-- An operand as a replay entry captures it: a stream port's is not captured (R215). -/
def captureOperand (e : Engine) (r : Regs) (k : Kind) (code : BitVec 6) : Vec :=
  if isPort code then 0
  else match k with
    | .scalar => (regScalar e r code).setWidth 2048
    | .vector => regVector e r code
    | _ => 0

/-- The destination value a slot reads (R215). -/
def readThird (r : Regs) (t : Third) (d : BitVec 5) : Vec :=
  match t with
  | .none => 0
  | .x => (r.getX d).setWidth 2048
  | .xPair => (r.getX (d + 1) ++ r.getX d).setWidth 2048
  | .v => r.getV d

/-- What a slot body works on. -/
structure Operands where
  who : SeqId
  form : Form
  slot : Slot
  lit : Option (BitVec 24)
  scope : Scope
  /-- registers as the preceding bundles left them (R66) -/
  regs : Regs
  a : Vec
  b : Vec
  /-- the destination value the slot reads -/
  third : Vec
  /-- VPC of the bundle -/
  vpc : BitVec 32
  /-- event stamp of the bundle's issue (R29) -/
  issued : Word
  /-- position of the slot -/
  pos : Nat
  /-- the slot is being performed by a replay: stream ports are the only operands read again (R218) -/
  replay : Bool
  /-- the registers with the loop stack that its stream ports use -/
  ports : Regs

def Operands.xa (o : Operands) : Word := o.a.setWidth 64
def Operands.xb (o : Operands) : Word := o.b.setWidth 64
def Operands.xd (o : Operands) : Word := o.third.setWidth 64
/-- x(D+1), PUT's signal address (R215). -/
def Operands.xd1 (o : Operands) : Word := o.third.extractLsb' 64 64
def Operands.f (o : Operands) : Nat := o.slot.f.toNat
def Operands.die (o : Operands) : Nat := dieOf o.who.core
def Operands.cluster (o : Operands) : Nat := clusterOf o.who.core

/-- Operand B of an arithmetic slot, CMP, or any position that R79 makes an immediate. -/
def Operands.xbImm (o : Operands) (imm : Bool) : Word :=
  if imm then
    match o.lit with
    | none => BitVec.setWidth 64 o.slot.b
    | some l => BitVec.signExtend 64 (l ++ o.slot.b)
  else o.xb

/-- Read a slot's operands at issue. -/
def readOperands (w : SeqId) (fm : Form) (slot : Slot) (lit : Option (BitVec 24)) : M Operands := do
  let q ← getSeq w
  let r := q.before
  let sc := q.bundle.scope
  let a ← if fm.late && isPort slot.a then pure 0 else readOperand w sc fm.engine r fm.a slot.a
  let b ← readOperand w sc fm.engine r fm.b slot.b
  return { who := w, form := fm, slot := slot, lit := lit, scope := sc, regs := r, a := a, b := b,
           third := readThird r fm.third slot.d, vpc := r.vpc, issued := q.bundle.issued, pos := q.bundle.pos,
           replay := false, ports := r }

/-- An operand of a replayed slot: OPA or OPB of its entry, or a stream port read again (R218). -/
def replayOperand (w : SeqId) (sc : Scope) (e : Engine) (r : Regs) (k : Kind) (code : BitVec 6) (kept : Vec) : M Vec :=
  if isPort code && (k = .scalar || k = .vector) then readOperand w sc e r k code else return kept

/-- The operands of a replay entry (R215, R218); its ports are read at the loop indices of the trapping bundle; whatever
else it reads is read as it stands when the replay begins, since the entries are one bundle (R66). -/
def replayOperands (w : SeqId) (fm : Form) (e : ReplayEntry) (loops : List LoopEntry) : M Operands := do
  let q ← getSeq w
  let r := { q.before with loops := loops }
  let sc := q.bundle.scope
  let slot := Slot.ofWord e.word
  let a ← if fm.late && isPort slot.a then pure 0 else replayOperand w sc fm.engine r fm.a slot.a e.opa
  let b ← replayOperand w sc fm.engine r fm.b slot.b e.opb
  return { who := w, form := fm, slot := slot, lit := e.lit, scope := sc, regs := q.before, a := a, b := b,
           third := e.third, vpc := e.vpc, issued := q.bundle.issued, pos := e.slot.toNat, replay := true,
           ports := r }

end Sys2Proof.Machine
end

