-- ==== Sys2Proof/Machine/Matrix.lean ====
section
/-! DEFINITION. The macros and weight sets of a core, the fields of sr.mmode (spec 07 R158 to R164), and the weight sets that keep
a bundle from issuing (R64, R186, R187). -/

namespace Sys2Proof.Machine

/-- Physical positions of a core's live macros, by logical number (R161). -/
def Core.liveList (k : Core) : List Nat := (List.range 8).filter fun i => k.liveMacros.getLsbD i

/-- macros_per_core of a core (R161, R256). -/
def Core.macroCount (k : Core) : Nat := k.liveList.length

def Core.macroAt (k : Core) (p : Nat) : Macro := tabGet {} p k.macros
def Core.setMacro (k : Core) (p : Nat) (m : Macro) : Core := { k with macros := tabPut p m k.macros }
/-- A weight set by physical macro and number. -/
def Core.wset (k : Core) (p n : Nat) : WeightSet := tabGet {} (4 * p + n) k.sets
def Core.setWset (k : Core) (p n : Nat) (x : WeightSet) : Core := { k with sets := tabPut (4 * p + n) x k.sets }
/-- The place of a set in W space (R158), by physical macro. -/
def setBase (p n : Nat) : Nat := p * 131072 + n * 32768

def mmGmode (m : Word) : Bool := m.getLsbD 25
def mmKact (m : Word) : Nat := field m 24 16
def mmRho (m : Word) : Nat := field m 13 12
def mmWs (m : Word) : Nat := field m 9 8
def mmMgm (m : Word) : Nat := field m 7 0

/-- Logical numbers that MGM selects, ascending. -/
def participants (mgm : Nat) : List Nat := (List.range 8).filter fun j => mgm / 2 ^ j % 2 = 1

/-- Does a slot name a weight set that is loading: an MMV by sr.mmode, MWLD and MWUP by the W address in B? It stalls its bundle,
whatever else it would check (R64, R186, R187, R190). -/
def State.namesLoading (s : State) (w : SeqId) (op : BitVec 7) (fm : Form) (slot : Slot) : Bool :=
  let r := (s.seq w).before
  let k := s.core w.core
  let loading (j n : Nat) : Bool := match k.liveList[j]? with
    | some p => (k.wset p n).loading
    | none => false
  if op = 0x50 || op = 0x51 || op = 0x52 || op = 0x53 then (participants (mmMgm r.mmode)).any fun j => loading j (mmWs r.mmode)
  else if op = 0x54 || op = 0x56 then
    let a := ((captureOperand fm.engine r fm.b slot.b).setWidth 64 : Word).toNat
    a < 2 ^ 20 && loading (a / 131072) (a / 32768 % 4)
  else false

end Sys2Proof.Machine
end

