-- ==== Sys2Proof/Machine/Ops.lean ====
section
/-! DEFINITION. The operations every slot shares: its result's way into registers, latch, sticky record and held operand; the
guard; the end of a bundle; TAKING A TRAP (spec 09 R210 to R215) and the return from one (R218, R219); a slot that waits;
and the end of a rank (spec 04 R99, spec 07 R156, spec 11 R231). -/

namespace Sys2Proof.Machine

/-- What a step answers. -/
abbrev Outcome := Host.Outcome State Fault Refusal

/-! ### Results -/

/-- What a slot body delivers beside the state it changed itself. -/
structure Result where
  /-- the value for D, and for latch 0 when the form produces a result -/
  value : Option Vec := none
  /-- exceptions for the engine's sticky record (R26) -/
  flags : Flags := 0
  /-- residency companion p(96 + D) (R17) -/
  comp : Option Pred := none
  /-- post-increment base register (R113) -/
  base : Option (BitVec 5 × Word) := none
  /-- GATH's row for lm0 (R117) -/
  gather : Option Vec := none
  /-- the element that an operand A read by the slot's own body delivered (R58) -/
  kept : Option Vec := none

/-- A 64-bit result. -/
def Result.ofX (v : Word) (f : Flags := 0) : Result := { value := some (v.setWidth 2048), flags := f }
/-- A vector result. -/
def Result.ofV (v : Vec) (f : Flags := 0) : Result := { value := some v, flags := f }
/-- A predicate result. -/
def Result.ofP (p : Pred) (f : Flags := 0) : Result := { value := some (p.setWidth 2048), flags := f }
/-- No result. -/
def Result.none : Result := {}

/-- The predicate that D and F[4:3] name (R56). -/
def predDest (w : Slot) : BitVec 7 := w.f.extractLsb' 3 2 ++ w.d

/-- The predicate that D names where its bank is F[1:0] (R138, R151). -/
def lowPredDest (w : Slot) : BitVec 7 := w.f.extractLsb' 0 2 ++ w.d

/-- Write a slot's value to the register that D names. -/
def writeDest (fm : Form) (w : Slot) (v : Vec) (r : Regs) : Regs :=
  match fm.d with
  | .x => r.setX w.d (v.setWidth 64)
  | .v => r.setV w.d v
  | .pred => r.setP (predDest w) (v.setWidth 256)
  | .predLow => r.setP (lowPredDest w) (v.setWidth 256)
  | _ => r

/-- What enters latch 0: a predicate gives its bits [63:0] (R57, R84). -/
def latchValue (fm : Form) (v : Vec) : Vec :=
  match fm.d with
  | .v => v
  | _ => (v.setWidth 64).setWidth 2048

/-- A value's way to D (unless N) and to latch 0 (R57, R68). -/
def deliver (fm : Form) (w : Slot) (v : Vec) (r : Regs) : Regs :=
  let r := if w.n then r else writeDest fm w v r
  if fm.result then r.latch fm.engine (latchValue fm v) else r

/-- Exceptions of a slot enter its engine's record and the bundle's list (R26). -/
def Seq.raiseFlags (q : Seq) (e : Engine) (f : Flags) (vpc : BitVec 32) (pos : Nat) : Seq :=
  if f = 0 then q
  else { q with now := q.now.raiseSticky e f vpc (BitVec.ofNat 3 pos) q.bundle.issued,
                bundle := { q.bundle with raised := q.bundle.raised ++ [(e.idx, f, BitVec.ofNat 3 pos)] } }

/-- Operand code 47: the held operand (R54). -/
def heldCode : BitVec 6 := 47

/-- A result takes effect (R20, R21, R26, R57, R58, R68). A slot whose operand A is the held operand itself leaves it as it
is. -/
def Seq.commit (q : Seq) (o : Operands) (r : Result) : Seq :=
  let n := q.now
  let n := match r.value with
    | some v => deliver o.form o.slot v n
    | none => n
  let n := match r.comp with
    | some c => n.setP (companion o.slot.d) c
    | none => n
  let n := match r.base with
    | some (b, v) => n.setX b v
    | none => n
  let n := match r.gather with
    | some g => n.shiftM g
    | none => n
  let n := if o.slot.h && o.slot.a ≠ heldCode then n.setHeld o.form.engine (r.kept.getD o.a) else n
  ({ q with now := n } : Seq).raiseFlags o.form.engine r.flags o.vpc o.pos

/-! ### Dependency table entries -/

def Die.entry (d : Die) (serial : Nat) : Option Entry := d.table.find? fun e => e.serial == serial
def Die.modEntry (d : Die) (serial : Nat) (f : Entry → Entry) : Die :=
  { d with table := d.table.map fun e => if e.serial = serial then f e else e }
def State.entry (s : State) (die serial : Nat) : Option Entry := (s.die die).entry serial
def State.modEntry (s : State) (die serial : Nat) (f : Entry → Entry) : State := s.setDie die ((s.die die).modEntry serial f)
def modEntry (die serial : Nat) (f : Entry → Entry) : M Unit := modify fun s => s.modEntry die serial f

/-- Is a hard pre-emption request pending for the sequencer's task (R282)? -/
def State.preemptPending (s : State) (w : SeqId) : Bool :=
  match (s.seq w).task with
  | some t => match s.entry t.die t.serial with
    | some e => e.preempt && t.long
    | none => false
  | none => false

/-! ### The end of a rank and of a team -/

/-- Every bin that a window of one of the cores owns becomes FREE (R231). -/
def Cluster.freeBins (k : Cluster) (cores : List (Fin 512)) : Cluster :=
  { k with bins := k.bins.map fun b =>
      match b.state with
      | .owned c _ => if cores.contains c then { b with state := .free } else b
      | _ => b }

/-- The team's slot of the sync unit is given back (R241). -/
def Cluster.dropTeam (k : Cluster) (die : Fin 4) (serial : Nat) : Cluster :=
  { k with teams := k.teams.map fun t =>
      match t with
      | some t => if t.die = die && t.serial = serial then none else some t
      | none => none }

/-- Every window of the cores is detached. -/
def State.detachAll (s : State) (cores : List (Fin 512)) : State :=
  cores.foldl (fun (s : State) (c : Fin 512) => s.setCore c { s.core c with windows := Vector.replicate 16 {} }) s

/-- The team ends: bins freed, shared attachments dropped, slot given back (R231, R241). -/
def State.endTeam (s : State) (die : Fin 4) (serial : Nat) (cores : List (Fin 512)) : State :=
  match cores.head? with
  | none => s
  | some c =>
    let k := clusterOf c
    (s.setCluster k (((s.cluster k).freeBins cores).dropTeam die serial)).detachAll cores

/-- The cores a task's entry occupies, by rank. -/
def Entry.cores (e : Entry) : List (Fin 512) :=
  match e.status with
  | .running c => c
  | .placed c => c
  | _ => []

/-- How an entry ends (R288): by its earliest failure, or complete; its stamp is that of its end (R287). -/
def Entry.endInfo (e : Entry) (stamp : Word) : EndInfo :=
  match e.failure with
  | some f => { f with stamp := stamp }
  | none => { state := 1, cause := 0, unit := 0, wmark := 0, pstatus := 0, whereC := 0, stamp := stamp }

/-- Record a rank's failure: the earliest by event stamp, the lower rank on a tie (R289). The WHERE field tells ranks
apart, since rank t takes the t-th lowest core (R280). -/
def Entry.fail (e : Entry) (f : EndInfo) : Entry :=
  match e.failure with
  | none => { e with failure := some f }
  | some g => if f.stamp < g.stamp || (f.stamp = g.stamp && f.whereC < g.whereC) then { e with failure := some f } else e

/-- An end by failure (R288): partial when the watermark is not zero. -/
def FailInfo.toEnd (f : FailInfo) (core : Nat) (stamp : Word) : EndInfo :=
  { state := if f.wmark = 0 then 2 else 3, cause := f.cause, unit := f.unit, wmark := f.wmark, pstatus := f.pstatus,
    whereC := BitVec.ofNat 10 core, stamp := stamp }

/-- The watermark of a failing rank: INDEX of loop level 0, or none at depth 0 (R289). -/
def failAt (cause : Nat) (pstatus : BitVec 16) (loops : List LoopEntry) : FailInfo :=
  match loops with
  | [] => { cause := BitVec.ofNat 10 cause, pstatus := pstatus, unit := 0, wmark := 0 }
  | e :: _ => { cause := BitVec.ofNat 10 cause, pstatus := pstatus, unit := 2, wmark := e.index.toNat }

/-- A sequencer that holds no task; its copy channels are cleared when a task starts (R195). -/
def Seq.emptied (q : Seq) : Seq := { channels := q.channels, time := q.time, seen := q.seen }

/-- Tell the scheduler that a rank has ended; when every rank has, the team ends and so does the entry (R99, R231, R288). -/
def State.rankEnded (s : State) (t : TaskRef) (core : Fin 512) (f : Option FailInfo) : State :=
  let s := s.modEntry t.die t.serial fun e =>
    let e := match f with
      | some f => e.fail (f.toEnd core f.stamp)
      | none => e
    { e with halted := e.halted ++ [t.rank] }
  match s.entry t.die t.serial with
  | none => s
  | some e =>
    if t.size ≤ e.halted.length then
      let s := s.endTeam t.die t.serial e.cores
      s.modEntry t.die t.serial fun e => { e with status := .ended (e.endInfo s.stamp), preempt := false }
    else s

/-- The group a core issues from when one of its groups has no task left: the other one if a task is ready there, else none
(R156). -/
def Core.handOver (k : Core) (g : Fin 2) : Option (Fin 2) := if (k.seq (1 - g)).phase = .ready then some (1 - g) else none

/-- The rank ends: its group is empty, its monitor is lost, the live-tile map is cleared, and the core hands over (R124, R156,
R160). -/
def State.endRank (s : State) (w : SeqId) (f : Option FailInfo) : State :=
  match (s.seq w).task with
  | none => s
  | some t =>
    let k := s.core w.core
    let q := k.seq w.group
    let last := q.channels.toList.foldl (fun m c => max m c.time) (max q.time q.seen)
    let k := (k.setSeq w.group q.emptied)
    let s := s.setCore w.core { k with live := 0, frame := none, issuing := k.handOver w.group }
    let s := s.setDie t.die { s.die t.die with schedTime := max (s.die t.die).schedTime last }
    s.rankEnded t w.core f

/-- The four conditions of R99 that the accesses themselves do not already meet: no transfer of the sequencer in progress,
and none of its flits in the send register. -/
def State.haltReady (s : State) (w : SeqId) : Bool :=
  ((s.seq w).channels.toList.all fun c => !c.busy) && (s.core w.core).sendReg.isNone

/-- The rank ends, or waits for the conditions of R99: since its HALT issued, with its bundle (R155). -/
def State.haltEnd (s : State) (w : SeqId) (f : Option FailInfo) : State :=
  if s.haltReady w then s.endRank w f
  else
    let q := s.seq w
    s.setSeq w { q with bundle := { q.bundle with ending := some (.halt f) },
                        wait := some { kind := .halt, op := 0x1B, w := Slot.ofWord q.bundle.endEntry.word, since := q.bundle.opened } }

/-! ### The trap frame -/

/-- The header word of a replay entry (R215). -/
def ReplayEntry.word0 (e : ReplayEntry) : Word :=
  e.vpc ++ e.slot ++ BitVec.ofNat 3 e.engine.idx.val ++ e.state ++ 0#5 ++ e.xcpt ++ e.cause
def ReplayEntry.word1 (e : ReplayEntry) : Word :=
  0#7 ++ BitVec.ofBool e.lit.isSome ++ e.lit.getD 0 ++ e.word

def zeros (n : Nat) : List Byte := List.replicate n 0

/-- The 1 KiB of a replay entry (R215). -/
def ReplayEntry.bytes (e : ReplayEntry) : List Byte :=
  wordBytes e.word0 ++ wordBytes e.word1 ++ wordBytes e.addr ++ zeros 232 ++ vecBytes e.opa ++ vecBytes e.opb
    ++ vecBytes e.third

/-- A loop stack as six entries of 16 B, 0 the outermost (R14). -/
def loopBytes (ls : List LoopEntry) : List Byte :=
  (List.range 6).flatMap fun i =>
    let (lo, hi) := (ls.getD i {}).words
    let used := i < ls.length
    wordBytes (if used then lo else 0) ++ wordBytes (if used then hi else 0)

/-- The 0x2500 bytes of a frame (R213, R214). -/
def Frame.bytes (f : Frame) : List Byte :=
  let r := f.regs
  let hdr0 : Word := f.vpc ++ f.slot ++ 0#1 ++ BitVec.ofNat 4 f.entries.length ++ 0#14 ++ f.cause
  let hdr3 : Word := BitVec.setWidth 64 f.detail
  let hdr4 : Word := f.resume ++ f.lpc
  let hdr5 : Word := BitVec.ofNat 64 r.loops.length
  wordBytes hdr0 ++ wordBytes f.stamp ++ wordBytes f.addr ++ wordBytes hdr3 ++ wordBytes hdr4 ++ wordBytes hdr5
    ++ zeros 16 ++ loopBytes r.loops
    ++ wordBytes r.lx[0] ++ wordBytes r.lx[1] ++ wordBytes r.lg[0] ++ wordBytes r.lg[1] ++ wordBytes r.lk
    ++ wordBytes r.ly ++ zeros 48
    ++ vecBytes r.lv[0] ++ vecBytes r.lv[1] ++ vecBytes r.lv[2] ++ vecBytes r.lv[3]
    ++ vecBytes r.lm[0] ++ vecBytes r.lm[1]
    ++ r.held.toList.flatMap vecBytes
    ++ f.entries.flatMap ReplayEntry.bytes ++ zeros (1024 * (6 - f.entries.length))

/-- A replay entry of a slot with its operands captured (R215). -/
def mkEntry (q : Seq) (op : BitVec 7) (fm : Form) (w : Slot) (lit : Option (BitVec 24)) (state : BitVec 2) : ReplayEntry :=
  { vpc := q.before.vpc, slot := BitVec.ofNat 3 q.bundle.pos, engine := fm.engine, state := state, lit := lit,
    word := w.word op, opa := captureOperand fm.engine q.before fm.a w.a,
    opb := captureOperand fm.engine q.before fm.b w.b, third := readThird q.before fm.third w.d }

/-- Put the entry of a HALT or SVC among the others in ascending position. -/
def insertEntry (e : ReplayEntry) : List ReplayEntry → List ReplayEntry
  | [] => [e]
  | x :: t => if e.slot < x.slot then e :: x :: t else x :: insertEntry e t

/-! ### Taking a trap -/

/-- The trap service group's registers at its first bundle (R211); state the rule does not name starts as at a task's
start (log entry 11). -/
def serviceRegs (frame : Word) (cause : Cause) : Regs :=
  let r : Regs := {}
  (r.setX 1 frame).setX 2 (cause.setWidth 64)

/-- A task that was preloaded and has not issued goes back to the scheduler as ready (R25). -/
def State.unplace (s : State) (t : TaskRef) : State :=
  match s.entry t.die t.serial with
  | none => s
  | some e =>
    let s := e.cores.foldl (fun (s : State) (c : Fin 512) =>
      let k := s.core c
      let clear (q : Seq) : Seq :=
        match q.task with
        | some u => if u.die = t.die && u.serial = t.serial && q.phase = .ready then q.emptied else q
        | none => q
      s.setCore c { k with g0 := clear k.g0, g1 := clear k.g1 }) s
    s.modEntry t.die t.serial fun e => { e with status := .waiting }

/-- End the trapped task's rank with a failure that happens now, through the waiting conditions of HALT (R99, R212, R285, R289,
R315). A channel's failure that nothing has reported raises no 0x141 there (log entry 21). -/
def State.failRank (s : State) (w : SeqId) (f : FailInfo) : State :=
  let f := { f with stamp := s.stamp }
  let q := s.seq w
  let s := s.setSeq w { q with bundle := { scope := q.bundle.scope, issued := q.bundle.issued, opened := s.cycle }, wait := none }
  s.haltEnd w (some f)

/-- The logical times of another agent are taken over (R330). -/
def Seq.joinTime (q p : Seq) : Seq := { q with time := max q.time p.time, seen := max q.seen p.seen }

/-- The service group is empty again, and the core issues from the trapped group, which has met what the service met (R156,
R218, R330). -/
def State.leaveService (s : State) (w : SeqId) : State :=
  let o := otherGroup w
  let q := s.seq w
  let k := s.core w.core
  let k := (k.setSeq w.group q.emptied).setSeq o.group ((k.seq o.group).joinTime q)
  { s.setCore w.core { k with issuing := some o.group } with focus := o }

/-- A sequencer waits until its trap frame can be written or read back: the part tries again (R285). -/
def State.awaitFrame (s : State) (w : SeqId) (d : Option TrapData) : State :=
  let q := s.seq w
  s.setSeq w { q with wait := some { kind := .frame, op := 0, w := Slot.ofWord 0, since := s.cycle },
                      bundle := { q.bundle with pendingTrap := d } }

/-- The request for a trap frame that has no response yet. -/
def State.noteFrame (s : State) (w : SeqId) (x : Option Sent) : State :=
  let q := s.seq w
  s.setSeq w { q with bundle := { q.bundle with frameSent := x } }

/-- An access to the trap frame that stops: a cause, or a second send without a response (R348, R411), ends the task; whatever else
keeps it is waited for (R285). -/
def State.stopFrame (s : State) (w : SeqId) (d : Option TrapData) (fail : State → State) : Stop → State
  | .cause _ _ _ => fail s
  | .wait k _ =>
    match askAgain (s.seq w).bundle.frameSent k s.cycle with
    | some r => (s.noteFrame w (some r)).awaitFrame w d
    | none => fail s
  | _ => s.awaitFrame w d

/-- TAKING A TRAP (R25, R210 to R214, R285, R315): a cause in the service group is a double fault; with no service image or
no writable context area the task ends; else the frame is written, the other group enters service, and the core issues from
it. -/
def State.takeTrap (s : State) (w : SeqId) (d : TrapData) : State :=
  let q := s.seq w
  match q.phase, q.task with
  | .service, _ =>
    let loops := match (s.core w.core).frame with
      | some f => f.loops
      | none => []
    (s.leaveService w).failRank (otherGroup w) (failAt 0x043 0 loops)
  | _, none => s
  | _, some t =>
    match (s.die t.die).service with
    | none => s.failRank w (failAt 0x1C3 0 d.loops)
    | some _ =>
      let f : Frame := { vpc := d.vpc, slot := BitVec.ofNat 3 d.point.slot, cause := d.point.cause,
                         stamp := q.bundle.issued, addr := d.point.addr, detail := d.point.detail, resume := d.resume,
                         lpc := q.now.lpc, group := w.group, regs := q.now, entries := d.entries, boundary := d.boundary,
                         loops := d.loops }
      match (writeGlobal (.seq w) .core 0 t.ctx.toNat f.bytes).on s with
      | (.error x, s) => s.stopFrame w (some d) (fun s => s.failRank w (failAt 0x205 0 d.loops)) x
      | (.ok _, s) =>
        let o := otherGroup w
        let s := match (s.seq o).phase, (s.seq o).task with
          | .ready, some u => s.unplace u
          | _, _ => s
        let q := s.seq w
        let regs := serviceRegs t.ctx d.point.cause
        let so := s.seq o
        let k := s.core w.core
        let k := k.setSeq w.group
          { q with before := { q.now with vpc := d.vpc }, now := { q.now with vpc := d.vpc }, wait := none,
                   bundle := { scope := q.bundle.scope, issued := q.bundle.issued, raised := q.bundle.raised, mwsl := q.bundle.mwsl } }
        let k := k.setSeq o.group
          { so.joinTime q with before := regs, now := regs, bundle := {}, phase := .service, task := some t,
                               code := some { die := t.die, slot := none, kernel := 0 }, wait := none }
        { s.setCore w.core { k with frame := some f, issuing := some o.group } with focus := o }

/-! ### HALT -/

/-- The lowest channel of a mask with a failure that is not reported (R199, R202). -/
def Seq.unreported (q : Seq) (mask : Nat) : Option (Fin 4) :=
  (List.finRange 4).find? fun c => mask.testBit c.val && q.channels[c].failed && !q.channels[c].reported

/-- REPORTED is set (R199, R201). -/
def Seq.report (q : Seq) (c : Fin 4) : Seq :=
  { q with channels := q.channels.set c { q.channels[c] with reported := true } }

/-- A HALT that cannot end its task raises a cause, unperformed (R99, R199). -/
def State.haltTrap (s : State) (w : SeqId) (code : Nat) (detail : BitVec 16) : State :=
  let q := s.seq w
  let b := q.bundle
  let e := { b.endEntry with state := 1, cause := BitVec.ofNat 10 code }
  let (resume, loops) := match b.replay with
    | some r => (r.resume, r.loops)
    | none => (b.target.getD (q.before.vpc + BitVec.ofNat 32 (4 * b.pos)), q.before.loops)
  s.takeTrap w { point := { slot := e.slot.toNat, cause := BitVec.ofNat 10 code, addr := 0, detail := detail }, vpc := e.vpc,
                 entries := [e], resume := resume, boundary := b.boundary, loops := loops }

/-- HALT stands at the end of its bundle: the rank ends, or waits, or a failure that no slot reported is raised in its
place (R99, R199). -/
def State.halt (s : State) (w : SeqId) (f : Option FailInfo) : State :=
  let q := s.seq w
  if s.haltReady w then
    match q.unreported 15 with
    | some c => (s.setSeq w (q.report c)).haltTrap w 0x141 (BitVec.ofNat 16 c.val)
    | none => s.endRank w f
  else s.haltEnd w f

/-! ### The end of a bundle -/

/-- A hard pre-emption lands at an iteration boundary (R24): the rank stops there. -/
def State.land (s : State) (w : SeqId) : State :=
  let q := s.seq w
  match q.phase, q.task with
  | .running, some t =>
    if s.preemptPending w then
      let s := s.setSeq w { q with wait := some { kind := .stopped, op := 0x19, w := Slot.ofWord 0, since := s.cycle } }
      s.modEntry t.die t.serial fun e => { e with stopped := e.stopped ++ [t.rank] }
    else s
  | _, _ => s

/-- The next bundle starts at a VPC and sees what this one left (R66). -/
def State.nextBundle (s : State) (w : SeqId) (vpc : BitVec 32) (boundary : Bool) : State :=
  let q := s.seq w
  let r := { q.now with vpc := vpc }
  let s := s.setSeq w { q with now := r, before := r, bundle := {}, wait := none }
  if boundary then s.land w else s

/-- Read back from a frame what the handler may write (R214): DISP and FSTATUS, INDEX and COUNT of the loop entries, and
STATE, OPA, OPB and THIRD of the replay entries. -/
def readBack (w : SeqId) (ctx : Nat) (f : Frame) : M (Nat × BitVec 16 × List LoopEntry × List ReplayEntry) := do
  let rd (a n : Nat) : M (List Byte) := readGlobal (.seq w) .core 0 (ctx + a) n
  let hdr3 := wordOf (← rd 0x18 8)
  let loops ← (List.range f.regs.loops.length).mapM fun i => do
    let lo := wordOf (← rd (0x40 + 16 * i) 8)
    let e := f.regs.loops.getD i {}
    return { e with index := lo.extractLsb' 0 32, count := lo.extractLsb' 32 32 }
  let entries ← (List.range f.entries.length).mapM fun i => do
    let e := f.entries.getD i {}
    let at_ := 0x0D00 + 1024 * i
    let w0 := wordOf (← rd at_ 8)
    return { e with state := w0.extractLsb' 24 2, opa := vecOf (← rd (at_ + 0x100) 256),
                    opb := vecOf (← rd (at_ + 0x200) 256), third := vecOf (← rd (at_ + 0x300) 256) }
  return (field hdr3 17 16, hdr3.extractLsb' 32 16, loops, entries)

/-- The return from trap service (R218, R219): the service group is empty again; with DISP of 1 or more the task ends; else
latches, held operands and loop stack are restored and the replay begins. A frame that cannot be read back ends the task
(log entry 65). -/
def State.trapReturn (s : State) (w : SeqId) : State :=
  match (s.core w.core).frame, (s.seq w).task with
  | some f, some t =>
    let o := otherGroup w
    match (readBack w t.ctx.toNat f).on s with
    | (.error x, s) => s.stopFrame w none (fun s => (s.leaveService w).failRank o (failAt 0x205 0 f.loops)) x
    | (.ok (disp, fstatus, loops, entries), s) =>
      let s := s.leaveService w
      let s := s.setCore w.core { s.core w.core with frame := none }
      if disp ≠ 0 then s.failRank o (failAt f.cause.toNat fstatus f.loops)
      else
        let q := s.seq o
        let r := { q.now with lx := f.regs.lx, lg := f.regs.lg, lv := f.regs.lv, lm := f.regs.lm, lk := f.regs.lk,
                              ly := f.regs.ly, held := f.regs.held, loops := loops }
        let rep : Replay := { entries := entries, resume := f.resume, loops := f.loops }
        let b := { q.bundle with opened := s.cycle, boundary := f.boundary, replay := some rep }
        let s := s.setSeq o { q with now := r, before := r, wait := none, bundle := b }
        if entries.isEmpty then s.nextBundle o f.resume f.boundary else s
  | _, _ => s

/-- A sequencer that waits for its trap frame tries again. -/
def State.retryFrame (s : State) (w : SeqId) : State :=
  let q := s.seq w
  match q.wait with
  | some p =>
    if p.kind ≠ .frame || (s.core w.core).issuing ≠ some w.group || s.sirxon.stopped then s
    else match q.bundle.pendingTrap with
      | some d => s.takeTrap w d
      | none => s.trapReturn w
  | none => s

/-- A bundle is over: its trap is taken, its HALT or SVC performed, or the next bundle starts (R66, R94, R98, R99, R211). -/
def State.endBundle (s : State) (w : SeqId) : State :=
  let q := s.seq w
  let b := q.bundle
  let next := b.target.getD (q.before.vpc + BitVec.ofNat 32 (4 * b.pos))
  match b.trap with
  | some t =>
    let entries := match b.ending with
      | some _ => insertEntry b.endEntry b.entries
      | none => b.entries
    s.takeTrap w { point := t, vpc := q.before.vpc, entries := entries, resume := next, boundary := b.boundary,
                   loops := q.before.loops }
  | none =>
    let service (cause : Nat) (n : BitVec 16) : State :=
      s.takeTrap w { point := { slot := b.endEntry.slot.toNat, cause := BitVec.ofNat 10 cause, addr := 0, detail := n },
                     vpc := q.before.vpc, entries := [], resume := next, boundary := b.boundary, loops := q.before.loops }
    match b.ending with
    | none => s.nextBundle w next b.boundary
    | some (.halt f) => s.halt w f
    | some (.call n) => service 0x041 n
    | some (.trap n) => service 0x042 n
    | some .tret => s.trapReturn w

/-- A slot of the bundle is over: the next one follows, or the bundle ends at S (R53). -/
def State.finishSlot (s : State) (w : SeqId) (stop : Bool) : State :=
  let q := s.seq w
  let s := s.setSeq w { q with wait := none, bundle := { q.bundle with pos := q.bundle.pos + 1, lit := none, resent := false } }
  if stop then s.endBundle w else s

/-! ### Replay -/

/-- The replay is over: a HALT or SVC of it is performed, or execution continues at RESUME (R218). -/
def State.endReplay (s : State) (w : SeqId) (rep : Replay) : State :=
  let q := s.seq w
  let b := q.bundle
  let service (cause : Nat) (n : BitVec 16) : State :=
    s.takeTrap w { point := { slot := b.endEntry.slot.toNat, cause := BitVec.ofNat 10 cause, addr := 0, detail := n },
                   vpc := b.endEntry.vpc, entries := [], resume := rep.resume, boundary := b.boundary, loops := rep.loops }
  match b.ending with
  | none => s.nextBundle w rep.resume b.boundary
  | some (.halt f) => s.halt w f
  | some (.call n) => service 0x041 n
  | some (.trap n) => service 0x042 n
  | some .tret => s.trapReturn w

/-- One entry of the replay is over. -/
def State.advanceReplay (s : State) (w : SeqId) (rep : Replay) : State :=
  let q := s.seq w
  let rep := { rep with entries := rep.entries.tail }
  let s := s.setSeq w { q with wait := none, bundle := { q.bundle with replay := some rep, resent := false } }
  if rep.entries.isEmpty then s.endReplay w rep else s

/-- A cause inside a replay traps again: this slot in state 1, the rest in their states (R218). -/
def State.replayTrap (s : State) (w : SeqId) (rep : Replay) (e : ReplayEntry) (code : Cause) (addr : Word)
    (detail : BitVec 16) : State :=
  let b := (s.seq w).bundle
  let rest := { e with state := 1, cause := code, addr := addr, xcpt := 0 } :: rep.entries.tail
  let rest := match b.ending with
    | some _ => insertEntry b.endEntry rest
    | none => rest
  s.takeTrap w { point := { slot := e.slot.toNat, cause := code, addr := addr, detail := detail }, vpc := e.vpc,
                 entries := rest, resume := rep.resume, boundary := b.boundary, loops := rep.loops }

/-- Is the slot word a GATH's? -/
def isGath (w : BitVec 32) : Bool := w.extractLsb' 24 7 = 0x26

/-- A state 2 entry (R218): THIRD goes to D and latch 0 (for GATH, to lm0, its only destination, R20), XCPT to the sticky
record, OPA to the held operand with H, which a slot whose scalar operand A is the held operand itself leaves as it is (R58, log
entry 65); an M entry advances LPC. -/
def Seq.landEntry (q : Seq) (fm : Form) (e : ReplayEntry) : Seq :=
  let w := Slot.ofWord e.word
  let n := deliver fm w e.third q.now
  let n := if isGath e.word then n.shiftM e.third else n
  let n := if w.h && !(fm.a = .scalar && w.a = heldCode) then n.setHeld fm.engine e.opa else n
  let n := if fm.engine = .m then { n with lpc := n.lpc + 4 } else n
  ({ q with now := n } : Seq).raiseFlags fm.engine (e.xcpt.setWidth 16) e.vpc e.slot.toNat

/-! ### Running a slot -/

/-- Does a slot meet a hazard now, so that its bundle stalls even when it is guarded false (R64, R129, R186, R205): a weight set that
it names is loading, or its operands' or its own bytes are those of its sequencer's unfinished work? Whatever else a slot waits
for when it is performed, it creates itself (log entry 65). -/
def State.meetsHazard (s : State) (w : SeqId) (op : BitVec 7) (fm : Form) (slot : Slot) (lit : Option (BitVec 24))
    (body : Operands → M Result) : Bool :=
  s.namesLoading w op fm slot || match ((do let o ← readOperands w fm slot lit; body o) : M Result).on s with
    | (.error .hazard, _) => true
    | _ => false

/-- Does the bundle's GUARD cover the slot and stand false (R63, R64)? -/
def Bundle.guardedFalse (b : Bundle) : Bool :=
  match b.guard with
  | some (holds, mask) => mask.getLsbD b.pos && !holds
  | none => false

/-- A slot that waits (R121, R250 and their fellows): its operands stay as read at issue. -/
def State.setWait (s : State) (w : SeqId) (k : WaitKind) (addr : Word) (op : BitVec 7) (o : Operands) : State :=
  let q := s.seq w
  match q.wait with
  | some p => s.setSeq w { q with wait := some { p with kind := k, addr := addr } }
  | none => s.setSeq w { q with wait := some { kind := k, op := op, w := o.slot, since := s.cycle, addr := addr, opA := o.a, opB := o.b,
                                               third := o.third } }

/-- The trapping slot of a bundle: recorded with its entry; the slots above it follow (R211). -/
def State.trapSlot (s : State) (w : SeqId) (op : BitVec 7) (fm : Form) (slot : Slot) (lit : Option (BitVec 24))
    (code : Cause) (addr : Word) (detail : BitVec 16) : State :=
  let q := s.seq w
  let e := { mkEntry q op fm slot lit 1 with cause := code, addr := addr }
  s.setSeq w { q with wait := none,
                      bundle := { q.bundle with trap := some { slot := q.bundle.pos, cause := code, addr := addr, detail := detail },
                                                entries := q.bundle.entries ++ [e] } }

/-- Perform a slot body and commit its result. -/
def perform (w : SeqId) (o : Operands) (body : Operands → M Result) : M Unit := do
  let r ← body o
  modSeq w fun q => q.commit o r

/-- What a stop makes of a slot: a trap, a wait, or a retry. -/
def State.stopSlot (s : State) (w : SeqId) (op : BitVec 7) (fm : Form) (slot : Slot) (lit : Option (BitVec 24))
    (o : Operands) : Stop → State
  | .cause code addr detail =>
    match (s.seq w).bundle.replay with
    | some rep => match rep.entries with
      | e :: _ => s.replayTrap w rep e code addr detail
      | [] => s
    | none => (s.trapSlot w op fm slot lit code addr detail).finishSlot w slot.stop
  | .wait k addr => s.setWait w k addr op o
  | .stall => s
  | .hazard => s
  | .busy => s

/-- A slot that is done: the next entry of the replay, or the next slot. -/
def State.slotDone (s : State) (w : SeqId) (slot : Slot) : State :=
  match (s.seq w).bundle.replay with
  | some rep => s.advanceReplay w rep
  | none => s.finishSlot w slot.stop

/-- Operands of a slot whose operand read itself stopped: as a replay entry captures them. -/
def capturedOperands (s : State) (w : SeqId) (fm : Form) (slot : Slot) (lit : Option (BitVec 24)) : Operands :=
  let q := s.seq w
  { who := w, form := fm, slot := slot, lit := lit, scope := q.bundle.scope, regs := q.before,
    a := captureOperand fm.engine q.before fm.a slot.a, b := captureOperand fm.engine q.before fm.b slot.b,
    third := readThird q.before fm.third slot.d, vpc := q.before.vpc, issued := q.bundle.issued, pos := q.bundle.pos,
    replay := false, ports := q.before }

/-- Run a body on operands that a computation reads. -/
def State.runWith (s : State) (w : SeqId) (op : BitVec 7) (fm : Form) (slot : Slot) (lit : Option (BitVec 24))
    (read : M Operands) (body : Operands → M Result) : State :=
  match read.on s with
  | (.error e, s') => s'.stopSlot w op fm slot lit (capturedOperands s' w fm slot lit) e
  | (.ok o, s') =>
    match (perform w o body).on s' with
    | (.ok _, s'') => s''.slotDone w slot
    | (.error e, s'') => s''.stopSlot w op fm slot lit o e

/-- A slot above the trapping one (R211). One that is performed has a state 2 entry; what a control slot does to the loop
stack and to the VPC is held as the frame's loops and RESUME (log entry 64). -/
def State.settleSlot (s : State) (w : SeqId) (op : BitVec 7) (fm : Form) (slot : Slot) (lit : Option (BitVec 24))
    (body : Operands → M Result) : State :=
  let q := s.seq w
  let defer (s : State) : State :=
    let q := s.seq w
    s.setSeq w { q with bundle := { q.bundle with entries := q.bundle.entries ++ [mkEntry q op fm slot lit 0] } }
  let s' := match slotClass op with
    | .deferred => defer s
    | .service => defer s
    | .control
    | .plain =>
      if readsPort fm slot then defer s
      else
        match ((do let o ← readOperands w fm slot lit; body o) : M Result).on s with
        | (.error _, _) => defer s
        | (.ok r, s') =>
          let e := { mkEntry q op fm slot lit 2 with third := r.value.getD 0, xcpt := r.flags.setWidth 9 }
          let q := s'.seq w
          s'.setSeq w { q with bundle := { q.bundle with entries := q.bundle.entries ++ [e] } }
  s'.finishSlot w slot.stop

/-- The first slot of a bundle sets the stamp and the cycle of its issue (R29, R155). -/
def State.openBundle (s : State) (w : SeqId) : State :=
  let q := s.seq w
  if q.bundle.pos = 0 && q.bundle.replay.isNone then
    s.setSeq w { q with bundle := { q.bundle with issued := s.stamp, opened := s.cycle } }
  else s

/-- RUNNING A SLOT of the sequencer in focus: a slot that sealing refuses has no run-time behaviour (R5, R10); a
guarded-false one has no effect beside the stalls of its bundle (R64); one above a trapping slot is settled (R211); one of a replay is performed as its
entry says (R218); any other is performed. -/
def runSlot (op : BitVec 7) (slot : Slot) (body : Operands → M Result) (s : State) : Outcome :=
  let w := s.focus
  let q := s.seq w
  match q.bundle.replay with
  | some rep =>
    match rep.entries with
    | [] => .next (s.endReplay w rep)
    | e :: _ =>
      match slotChecks op slot e.lit ++ imageKindChecks (q.phase = .service) op slot, form op slot e.lit.isSome with
      | [], some fm =>
        match e.state.toNat with
        | 3 => .next (s.advanceReplay w rep)
        | 2 => .next ((s.setSeq w (q.landEntry fm e)).advanceReplay w rep)
        | _ => .next (s.runWith w op fm slot e.lit (replayOperands w fm e rep.loops) body)
      | codes, _ => .fault (.notSealed (lowestCode codes))
  | none =>
    let lit := q.bundle.lit
    match slotChecks op slot lit ++ imageKindChecks (q.phase = .service) op slot, form op slot lit.isSome with
    | [], some fm =>
      let s := s.openBundle w
      if q.bundle.guardedFalse then .next (if s.meetsHazard w op fm slot lit body then s else s.finishSlot w slot.stop)
      else if q.bundle.trap.isSome then .next (s.settleSlot w op fm slot lit body)
      else .next (s.runWith w op fm slot lit (readOperands w fm slot lit) body)
    | codes, _ => .fault (.notSealed (lowestCode codes))

/-- A prefix slot of the sequencer in focus changes the bundle and is over (R59 to R65). -/
def runPrefix (stop : Bool) (f : Seq → Bundle → Bundle) (s : State) : State :=
  let w := s.focus
  let s := s.openBundle w
  let q := s.seq w
  let b := f q q.bundle
  let s := s.setSeq w { q with bundle := { b with pos := q.bundle.pos + 1 } }
  if stop then s.endBundle w else s

/-! ### Waits -/

/-- The operands of a slot that waits, as read at issue. -/
def waitOperands (s : State) (w : SeqId) (p : Wait) (fm : Form) (lit : Option (BitVec 24)) : Operands :=
  let q := s.seq w
  let (vpc, pos, rep) := match q.bundle.replay with
    | some r => match r.entries with
      | e :: _ => (e.vpc, e.slot.toNat, true)
      | [] => (q.before.vpc, q.bundle.pos, true)
    | none => (q.before.vpc, q.bundle.pos, false)
  let ports := match q.bundle.replay with
    | some r => { q.before with loops := r.loops }
    | none => q.before
  { who := w, form := fm, slot := p.w, lit := lit, scope := q.bundle.scope, regs := q.before, a := p.opA, b := p.opB,
    third := p.third, vpc := vpc, issued := q.bundle.issued, pos := pos, replay := rep,
    ports := ports }

/-- The literal of the slot that waits. -/
def Seq.waitLit (q : Seq) : Option (BitVec 24) :=
  match q.bundle.replay with
  | some r => match r.entries with
    | e :: _ => e.lit
    | [] => none
  | none => q.bundle.lit

/-- A waiting slot goes on: its body runs again on its operands. Nothing happens when the sequencer does not wait so. -/
def State.resumeWait (s : State) (w : SeqId) (k : WaitKind) (body : BitVec 7 → Slot → Operands → M Result) : State :=
  let q := s.seq w
  match q.wait with
  | none => s
  | some p =>
    if p.kind ≠ k then s
    else
      let lit := q.waitLit
      match form p.op p.w lit.isSome with
      | none => s
      | some fm => s.runWith w p.op fm p.w lit (pure (waitOperands s w p fm lit)) (body p.op p.w)

/-- Does a waiting slot still wait, were its body to run again now? -/
def State.stillWaits (s : State) (w : SeqId) (k : WaitKind) (body : BitVec 7 → Slot → Operands → M Result) : Bool :=
  let q := s.seq w
  match q.wait with
  | none => false
  | some p =>
    p.kind = k && match form p.op p.w q.waitLit.isSome with
    | none => false
    | some fm => match (body p.op p.w (waitOperands s w p fm q.waitLit)).on s with
      | (.error (.wait k' _), _) => k' = k
      | _ => false

/-- A waiting slot raises a cause, unperformed. -/
def State.raiseWait (s : State) (w : SeqId) (p : Wait) (code : Nat) (addr : Word) (detail : BitVec 16) : State :=
  let q := s.seq w
  let lit := q.waitLit
  match form p.op p.w lit.isSome with
  | none => s
  | some fm => s.stopSlot w p.op fm p.w lit (waitOperands s w p fm lit) (.cause (BitVec.ofNat 10 code) addr detail)

end Sys2Proof.Machine
end

