-- ==== Sys2Proof/Machine/Fetch.lean ====
section
/-! DEFINITION. What a sequencer runs next: the slot word at its place in the code body of its sealed image, or the next
entry of its replay; and the passing of time over a free-running step. -/

namespace Sys2Proof.Machine

/-- The variant a sequencer runs (R297, R301). -/
def State.variantOf (s : State) (c : CodeRef) : Option Variant :=
  match c.slot with
  | none => (s.die c.die).service
  | some n =>
    match (tabGet ({} : ImageSlot) n (s.die c.die).images).image with
    | none => none
    | some i => (i.kernels[c.kernel]?).map fun k => k.variant

/-- What stands next for a sequencer. -/
inductive Next where
  /-- it does not issue: waiting, empty, ready, or not its core's issuing group -/
  | idle
  | instr (i : Instr)
  | fault (f : Fault)
deriving DecidableEq, Repr

/-- Decode a word with the literal before it. -/
def nextOf (lit : Option (BitVec 24)) (w : BitVec 32) : Next :=
  match decode lit w with
  | .ok i => .instr i
  | .error (.checkCode n) => .fault (.notSealed n)

/-- Does the sequencer issue (R156, R400)? -/
def State.issues (s : State) (w : SeqId) : Bool :=
  let q := s.seq w
  (s.core w.core).issuing == some w.group && (q.phase = .running || q.phase = .service) && q.wait.isNone
    && !s.sirxon.stopped

/-- The next slot of a sequencer (R12, R53), or the next entry of its replay (R218). -/
def State.nextSlot (s : State) (w : SeqId) : Next :=
  if !s.issues w then .idle
  else
    let q := s.seq w
    match q.bundle.replay with
    | some rep =>
      match rep.entries with
      | e :: _ => nextOf e.lit e.word
      | [] => .idle
    | none =>
      match q.code.bind s.variantOf with
      | none => .idle
      | some v =>
        match v.code[q.before.vpc.toNat / 4 + q.bundle.pos]? with
        | none => .fault .pastEnd
        | some x => nextOf q.bundle.lit x

/-- Time passes: cycles of the core clock and nanoseconds of the stamp, which never goes back (R7, R8, R29). Every cluster cache
drops the copies whose time is over (R328). -/
def State.elapse (s : State) (cycles ns : Nat) : State :=
  { s with cycle := s.cycle + cycles, stamp := BitVec.ofNat 64 (min (s.stamp.toNat + ns) (2 ^ 64 - 1)),
           clusters := s.clusters.map fun (e : Nat × Cluster) => (e.1, e.2.expire (s.cycle + cycles)) }

/-- The time that passes over a free-running step (log entry 2). -/
def State.tick (s : State) : State :=
  { s.elapse (Config.elapsedCycles s.free) (Config.elapsedNs s.free) with free := s.free + 1 }

def tickOutcome : Outcome → Outcome
  | .next s => .next s.tick
  | .fault f => .fault f
  | .refused r => .refused r

end Sys2Proof.Machine
end

