-- ==== Sys2Proof/Machine/Macro.lean ====
section
/-! DEFINITION. The M engine: matrix mode, the macros' arithmetic, weight sets, calibration, the gleaner, and C space (spec 07,
spec 08 R178 to R194). -/

namespace Sys2Proof.Machine

/-! ### Macros and the matrix mode (R161 to R164) -/

/-- The MMV forms (R183). -/
inductive MmvForm where
  | m8 | m4 | m2 | mb
deriving DecidableEq, Repr

/-- Columns of one macro. -/
def MmvForm.columns : MmvForm → Nat
  | .m8 => 128 | .m4 => 256 | .m2 => 512 | .mb => 128
/-- Weight bits w. -/
def MmvForm.wbits : MmvForm → Nat
  | .m8 => 8 | .m4 => 4 | .m2 => 2 | .mb => 8

/-- The descriptor of operand A when it is a stream port. -/
def portStream (o : Operands) : Option Stream :=
  if isPort o.slot.a then some (o.ports.streams[o.slot.a.toNat % 16]'(Nat.mod_lt _ (by decide))) else none

/-- The checks of R163, in order; the answer is the participants' logical numbers. -/
def checkMode (o : Operands) (f : MmvForm) (m : Word) : M (List Nat) := do
  let kact := mmKact m
  let ps := participants (mmMgm m)
  raiseIf (ps.isEmpty || kact = 0 || 256 < kact || (f = .mb && 128 < kact)) 0x101
  let k ← getCore o.who.core
  raiseIf (ps.any fun j => k.macroCount ≤ j) 0x102
  let onA := match portStream o with
    | some d => d.space == 1
    | none => false
  raiseIf (mmGmode m && !onA) 0x103
  let lanes := if mmGmode m then f.columns else ps.length * f.columns
  raiseIf (o.xb.toNat % 128 ≠ 0 || 65536 < o.xb.toNat + lanes) 0x104 o.xb
  return ps

/-! ### The literal stream (R180, R181) -/

/-- The word at LPC, or 0x105 past the end. -/
def literalWord (o : Operands) : M (BitVec 32) := do
  let s ← get
  let lits := match (s.seq o.who).code.bind s.variantOf with
    | some v => v.lits
    | none => []
  match lits[o.regs.lpc.toNat / 4]? with
  | some w => return w
  | none => raise 0x105

/-- An M slot that is performed advances LPC by 4. -/
def advanceLpc (o : Operands) : M Unit :=
  modSeq o.who fun q => { q with now := { q.now with lpc := o.regs.lpc + 4 } }

/-- The rows that take part (R182). -/
def activeRows (f : MmvForm) (kact : Nat) (word : BitVec 32) : List Nat :=
  (List.range (if f = .mb then 128 else 256)).filter fun r => decide (r < kact) && word.getLsbD (r / 8)

/-! ### Column results (R166 to R173) -/

/-- The smallest power of two that is at least 1 and, times 255, at least FS (R167). -/
def converterPow (fs : Nat) : Nat → Nat → Nat
  | 0, q => q
  | n + 1, q => if fs ≤ 255 * q then q else converterPow fs n (2 * q)

/-- q_ρ (R167). -/
def converterStep (fs rho : Nat) : Nat := max 1 (converterPow fs 24 1 / 2 ^ rho)

/-- The byte of a set that holds the weight of row r, column n, in columns of w bits (R159). -/
def storedByte (k : Core) (base w r n : Nat) : Nat := (readByte (base + 128 * r + n * w / 8) k.wspace).toNat

/-- Does a byte of I4X weights hold the marker 1000, which no load of the format leaves in the array (R38, R170)? -/
def isMarked (b : Nat) : Bool := b % 16 = 8 || b / 16 = 8

/-- The weight of row r, column n, that the array gives (R159, R166). The slot's opcode alone says the format (R31), so a set
written in another one can hold the I4X marker or the I2 code 10: MMV4 and MMV2 decode them as a load does, both nibbles of a
marked pair and the code 10 as 0 (R38, R39, R170, log entry 68). -/
def weightAt (k : Core) (base : Nat) (f : MmvForm) (r n : Nat) : Int :=
  let b := storedByte k base f.wbits r n
  match f with
  | .m4 => if isMarked b then 0 else signedOf 4 (b / 16 ^ (n % 2) % 16)
  | .m2 => (decodeI2 (b / 4 ^ (n % 4))).1
  | _ => signedOf 8 b

/-- The outlier that a marked pair in the array holds for row r, column n: its product is digital, as the side path's are (R38,
R170). -/
def strayOutlier (k : Core) (base : Nat) (f : MmvForm) (r n : Nat) : Int :=
  let b := storedByte k base f.wbits r n
  if f = .m4 && isMarked b then (decodeI4X b (n % 2 = 1)).1 else 0

/-- Does the decode of row r, column n, raise reserved data (R38, R39)? -/
def strayReserved (k : Core) (base : Nat) (f : MmvForm) (r n : Nat) : Bool :=
  let b := storedByte k base f.wbits r n
  match f with
  | .m4 => (decodeI4X b false).2
  | .m2 => (decodeI2 (b / 4 ^ (n % 4))).2
  | _ => false

/-- Activation of a row as INT8. -/
def activation (x : Vec) (r : Nat) : Int := signedOf 8 (x.extractLsb' (8 * r) 8).toNat

def sumInt (l : List Int) : Int := l.foldl (· + ·) 0

/-- The charge-domain portion of a column: the low u activation bits times the low v weight bits (R166). -/
def analogSum (x : Vec) (wt : Nat → Int) (rows : List Nat) (u v : Nat) : Nat :=
  (sumInt (rows.map fun r => (activation x r % (2 ^ u : Nat)) * (wt r % (2 ^ v : Nat)))).toNat

/-- The exact column sum (R49, R166). -/
def exactSum (x : Vec) (wt : Nat → Int) (rows : List Nat) : Int := sumInt (rows.map fun r => activation x r * wt r)

/-- The side path's share of a column (R170). -/
def sideSum (w : WeightSet) (x : Vec) (rows : List Nat) (n : Nat) : Int :=
  sumInt ((w.side.filter fun e => e.2.1 = n && rows.contains e.1).map fun e => activation x e.1 * e.2.2)

/-- A column result: S, the exact value that it estimates, β as FP32 bits, flags. -/
structure ColumnResult where
  s : Val
  exact : Val
  beta : Nat
  flags : Flags := 0

/-- The calibration offset of a converter column (R168): what mcal.w wrote, or what Sirxon's calibration did. -/
def offsetOf (core p : Nat) (m : Macro) (k : Nat) : BitVec 8 :=
  match tabFind k m.offsets with
  | some o => o
  | none => if m.calibration = 0 then 0 else Config.calibrationOffset m.calibration core p k

/-- The codes a converter column may give: 0 to 255 where the offset is not valid, and where it is, those of them that keep S
within β (R169). An offset with which none of them does leaves the codes beyond them that do, since the part guarantees the
bound on every valid column (R169, log entry 3). -/
def codeRange (a q : Nat) (o : Int) (valid : Bool) : Int × Int :=
  let lo := -((-(16 * (a : Int) - o * q - 16 * q)) / (16 * q : Nat))
  let hi := (16 * (a : Int) - o * q + 16 * q) / (16 * q : Nat)
  if !valid then (0, 255)
  else if max 0 lo ≤ min 255 hi then (max 0 lo, min 255 hi)
  else (lo, hi)

/-- The converter's code (R168): 255 on a clip, else a free value within its bound (log entry 3). -/
def converterRead (core p col draw a q : Nat) (o : Int) (valid : Bool) : Int :=
  if 255 * q < a then 255
  else
    let r := codeRange a q o valid
    r.1 + ((Config.converterCode core p col draw % ((r.2 - r.1).toNat + 1) : Nat) : Int)

/-- FP32 bits of a natural number that FP32 holds exactly. -/
def natBits (n : Nat) : Nat := ((Val.fin false n 0).round fp32 .nearest).1

/-- One column of MMV8, MMV4 or MMV2 (R184). -/
def intColumn (f : MmvForm) (k : Core) (core p ws n : Nat) (x : Vec) (rows : List Nat) (d rho kact draw : Nat) :
    ColumnResult :=
  let set := k.wset p ws
  let overrun := f = .m4 && set.overflow.getLsbD (n / 16)
  let d := if overrun then 8 else d
  let u := 8 - d
  let v := f.wbits - min d f.wbits
  let wt (r : Nat) : Int := weightAt k (setBase p ws) f r n
  let a := analogSum x wt rows u v
  let stray (r : Nat) : Int := strayOutlier k (setBase p ws) f r n
  let whole := exactSum x wt rows + (if f = .m4 then sideSum set x rows n + exactSum x stray rows else 0)
  let fs := kact * (2 ^ u - 1) * (2 ^ v - 1)
  let overFlag := flagIf overrun Flags.outlierOverflow
    ||| flagIf (rows.any fun r => strayReserved k (setBase p ws) f r n) Flags.reservedData
  if fs = 0 then { s := Val.ofInt whole, exact := Val.ofInt whole, beta := 0, flags := overFlag }
  else
    let q := converterStep fs rho
    let col := n % 128
    let m := k.macroAt p
    let valid := m.valid.getLsbD col
    let o := (offsetOf core p m col).toInt
    let c := converterRead core p n draw a q o valid
    let clip := 255 * q < a
    -- digital + q (16 c + o) ÷ 16, in sixteenths
    let s16 := 16 * (whole - a) + q * (16 * c + o)
    { s := .fin (decide (s16 < 0)) s16.natAbs (-4), exact := Val.ofInt whole,
      beta := if clip || !valid then infBits32 else natBits q,
      flags := overFlag ||| flagIf clip Flags.clip }

/-- Significand and exponent of a finite BF16 pattern (R172). -/
def bfParts (p : Nat) : Nat × Int :=
  let e := p / 128 % 256
  let m := p % 128
  if e = 0 then (m, -126) else (128 + m, (e : Int) - 127)

def bfFinite (p : Nat) : Bool := p / 128 % 256 ≠ 255

/-- The largest of -68 and the exponents of a list of BF16 patterns (R172). -/
def blockExp (l : List Nat) : Int := l.foldl (fun m p => max m (bfParts p).2) (-68)

/-- A BF16 value aligned to a block exponent: sign × floor(σ × 2^(ε − e − 1)) (R172). -/
def alignBf (e : Int) (p : Nat) : Int :=
  let (sig, ex) := bfParts p
  sgn (decide (32768 ≤ p)) (shiftNat sig (ex - e - 1))

/-- BF16 activation of a row. -/
def bfActivation (x : Vec) (r : Nat) : Nat := (x.extractLsb' (16 * r) 16).toNat

/-- e_w of a column: −68, the least R172 gives, until a BF16 load writes it (log entry 63). -/
def WeightSet.exponent (x : WeightSet) (n : Nat) : Int := tabGet (-68) n x.exps

/-- One column of MMVB (R173). -/
def bfColumn (k : Core) (p ws n : Nat) (x : Vec) (rows : List Nat) : ColumnResult :=
  let set := k.wset p ws
  let acts := rows.map (bfActivation x)
  if set.nonfinite.getLsbD n || acts.any fun a => !bfFinite a then
    { s := .nan false, exact := .nan false, beta := 0, flags := Flags.invalid }
  else
    let ea := blockExp acts
    let ew := set.exponent n
    let sum := sumInt (rows.map fun r => alignBf ea (bfActivation x r) * weightAt k (setBase p ws) .mb r n)
    let v := Val.fin (decide (sum < 0)) sum.natAbs (ea + ew - 12)
    { s := v, exact := v, beta := 0 }

/-! ### MMV (R184) -/

/-- The 256 bytes a participant takes (R164): operand A, or in K-split its own piece at the stream address. -/
def participantData (o : Operands) (ksplit : Bool) (j : Nat) : M Vec :=
  match portStream o with
  | none => return o.a
  | some d => do
    if ksplit then
      match streamAddr o.ports d with
      | none => return 0
      | some a => return vecOf (← aRead o.who.core ((a + 256 * j) % 2 ^ 64) 256)
    else return vecOf (← portBytes o.who o.scope .m d o.ports 256)

def gatherData (o : Operands) (ksplit : Bool) : List Nat → M (List Vec)
  | [] => return []
  | j :: t => do
    let x ← participantData o ksplit j
    return x :: (← gatherData o ksplit t)

/-- A result enters its lane (R47). -/
def enterLane (k : Core) (lane : Nat) (r : ColumnResult) (aip : Bool) : Core × Flags :=
  let (l, f) := laneAccumulate (Lane.ofWord (tabGet 0 lane k.lanes)) r.s r.beta aip
  ({ k with lanes := tabPut lane l.toWord k.lanes }, f ||| r.flags)

/-- All columns of a participant, in ascending order. -/
def enterColumns (aip : Bool) : List (Nat × ColumnResult) → Core → Flags → Core × Flags
  | [], k, f => (k, f)
  | (lane, r) :: t, k, f =>
    let (k', g) := enterLane k lane r aip
    enterColumns aip t k' (f ||| g)

/-- Set the live bits of the tiles that hold lanes (R160). -/
def Core.markLive (k : Core) (lane n : Nat) : Core :=
  { k with live := (List.range ((lane % 128 + n + 127) / 128)).foldl (fun (m : BitVec 512) i =>
      m ||| (1 <<< (lane / 128 + i))) k.live }

/-- A macro's result is offered to its gleaner (R175); the sequence number counts its MMVs. -/
def Macro.offer (m : Macro) (d rho : Nat) (stamp : Word) (cols : List (Nat × ColumnResult)) : Macro :=
  let m' := { m with sequence := m.sequence + 1 }
  if m.sampling && m.sequence % 2 ^ m.exponent = m.seed then
    if m.picks.length < 4 then
      { m' with picks := m.picks ++ [{ d := d, rho := rho, stamp := stamp,
                                       columns := cols.map fun c => (c.1, c.2.s, c.2.exact, BitVec.ofNat 32 c.2.beta) }] }
    else { m' with skipped := m.skipped + 1 }
  else m'

/-- One participant: physical macro, rank among the participants, its data. -/
def runMacro (o : Operands) (f : MmvForm) (m : Word) (rows : List Nat) (draw : Nat) (stamp : Word) (p j : Nat) (x : Vec)
    (k : Core) : Core × Flags :=
  let d := o.f % 8 + 1
  let base := if mmGmode m then o.xb.toNat else o.xb.toNat + j * f.columns
  let aip := (mmGmode m && decide (0 < j)) || o.slot.f.getLsbD 3
  let ws := mmWs m
  let cols := (List.range f.columns).map fun n =>
    (n, match f with
      | .mb => bfColumn k p ws n x rows
      | _ => intColumn f k o.who.core p ws n x rows d (mmRho m) (mmKact m) draw)
  let (k, fl) := enterColumns aip (cols.map fun c => (base + c.1, c.2)) k 0
  let k := if o.slot.f.getLsbD 4 then k.markLive base f.columns else k
  (k.setMacro p ((k.macroAt p).offer d (mmRho m) stamp cols), fl)

def runMacros (o : Operands) (f : MmvForm) (m : Word) (rows : List Nat) (draw : Nat) (stamp : Word) :
    List (Nat × Nat × Vec) → Core → Flags → Core × Flags
  | [], k, fl => (k, fl)
  | (p, j, x) :: t, k, fl =>
    let (k', g) := runMacro o f m rows draw stamp p j x k
    runMacros o f m rows draw stamp t k' (fl ||| g)

def mmvBody (f : MmvForm) (o : Operands) : M Result := do
  let m := o.regs.mmode
  let ps ← checkMode o f m
  let word ← literalWord o
  let k ← getCore o.who.core
  let phys := ps.map fun j => k.liveList.getD j 0
  if phys.any fun p => (k.wset p (mmWs m)).loading then stall
  raiseIf (phys.any fun p => (k.wset p (mmWs m)).failed) 0x107
  let ranks := List.range phys.length
  let data ← gatherData o (mmGmode m) (if mmGmode m then ranks else [0])
  let data := if mmGmode m then data else ranks.map fun _ => data.headD 0
  let draw ← drawFree
  let rows := activeRows f (mmKact m) word
  let s ← get
  let (k, fl) := runMacros o f m rows draw s.stamp (phys.zip (ranks.zip data)) (s.core o.who.core) 0
  set (s.setCore o.who.core k)
  advanceLpc o
  return { flags := fl, kept := data.head? }

/-- MMV8 (R183, R184). -/
def execMmv8 (w : Slot) (s : State) : Outcome := runSlot 0x50 w (mmvBody .m8) s
/-- MMV4 (R183, R184). -/
def execMmv4 (w : Slot) (s : State) : Outcome := runSlot 0x51 w (mmvBody .m4) s
/-- MMV2 (R183, R184). -/
def execMmv2 (w : Slot) (s : State) : Outcome := runSlot 0x52 w (mmvBody .m2) s
/-- MMVB (R183, R184). -/
def execMmvb (w : Slot) (s : State) : Outcome := runSlot 0x53 w (mmvBody .mb) s

/-! ### Weight sets (R187 to R190) -/

/-- The W address of a slot: 0x106, then 0x102. The answer is physical macro, set and offset. -/
def weightPlace (o : Operands) (offsetOk : Nat → Bool) : M (Nat × Nat × Nat) := do
  let w := o.xb.toNat
  raiseIf (2 ^ 20 ≤ w || !offsetOk (w % 32768)) 0x106 o.xb
  let k ← getCore o.who.core
  let m := w / 131072
  raiseIf (k.macroCount ≤ m) 0x102
  return (k.liveList.getD m 0, w / 32768 % 4, w % 32768)

def resolveEach (w : SeqId) (use : Use) : List Nat → M Unit
  | [] => return ()
  | a :: t => do
    let _ ← resolve (.seq w) use false a
    resolveEach w use t

/-- Translation, permission and residency of every page of a range, and no reads (R187, R203). -/
def checkPages (w : SeqId) (use : Use) (va n : Nat) : M Unit :=
  resolveEach w use ((List.range (if n = 0 then 0 else (va % 65536 + n + 65535) / 65536)).map fun i =>
    if i = 0 then va else (va / 65536 + i) * 65536 % 2 ^ 64)

def mwldBody (o : Operands) : M Result := do
  let (p, set_, _) ← weightPlace o fun off => off = 0
  raiseIf (o.xa.toNat % 256 ≠ 0) 0x109 o.xa
  let aSpace := o.f / 8 = 1
  let place ← if aSpace then do
      let p ← aCheck o.who.core o.xa.toNat 32768
      awaitBin o.who.core false p 32768
      pure p
    else do
      checkPages o.who .r o.xa.toNat 32768
      awaitGlobal (.seq o.who) false o.xa.toNat 32768
      pure 0
  let _ ← literalWord o
  raiseEarlier o.who o.scope
  let k ← getCore o.who.core
  if (k.wset p set_).loading then stall
  let q ← getSeq o.who
  let l : WeightLoad := { mac := p, set := set_, fmt := o.slot.f.extractLsb' 0 2, aSpace := aSpace, src := o.xa, place := place, who := o.who,
                          serial := q.task.map TaskRef.serial, vpc := o.vpc, slot := BitVec.ofNat 3 o.pos,
                          stamp := o.issued, scope := o.scope }
  modCore o.who.core fun k =>
    { k.setWset p set_ { k.wset p set_ with loading := true } with loads := k.loads ++ [l] }
  advanceLpc o
  return {}

/-- MWLD (R187, R188). -/
def execMwld (w : Slot) (s : State) : Outcome := runSlot 0x54 w mwldBody s

/-- The pairs of an I4X byte string as stored, its side-path entries, and was there a double marker (R170)? Byte i of the
string is byte first + i of the set. -/
def storeI4x (first : Nat) (l : List Byte) : List Byte × List (Nat × Nat × Int) × Bool :=
  let one (i : Nat) (b : Byte) : Byte × List (Nat × Nat × Int) × Bool :=
    let pos := first + i
    let lo := decodeI4X b.toNat false
    let hi := decodeI4X b.toNat true
    if b.toNat % 16 ≠ 8 && b.toNat / 16 ≠ 8 then (b, [], false)
    else (0, ((if lo.1 = 0 then [] else [(pos / 128, 2 * (pos % 128), lo.1)])
      ++ (if hi.1 = 0 then [] else [(pos / 128, 2 * (pos % 128) + 1, hi.1)])), lo.2)
  let r := l.mapIdx one
  (r.map fun x => x.1, r.flatMap fun x => x.2.1, r.any fun x => x.2.2)

/-- I2 bytes as stored, and was the code 10 among them (R187)? -/
def storeI2 (l : List Byte) : List Byte × Bool :=
  let one (b : Byte) : Byte × Bool :=
    let codes := (List.range 4).map fun i => b.toNat / 4 ^ i % 4
    (BitVec.ofNat 8 (codes.foldr (fun c n => (if c = 2 then 0 else c) + 4 * n) 0), codes.any fun c => c = 2)
  let r := l.map one
  (r.map Prod.fst, r.any Prod.snd)

/-- The overflow marks of a side path: groups with more than 64 outliers (R171). -/
def overflowMarks (side : List (Nat × Nat × Int)) : BitVec 16 :=
  (List.range 16).foldl (fun m g =>
    if 64 < (side.filter fun e => e.2.1 / 16 = g).length then m ||| (1 <<< g) else m) 0

/-- What a load makes of its 32 KiB: bytes of the set, its marks, flags (R187). Only a BF16 load writes the block exponents
(R172, log entry 63). -/
def buildSet (fmt : BitVec 2) (l : List Byte) (exps : Tab Int) : List Byte × WeightSet × Flags :=
  match fmt.toNat with
  | 0 => (l, { exps := exps }, 0)
  | 1 =>
    let (bytes, side, reserved) := storeI4x 0 l
    let overrun := overflowMarks side
    (bytes, { exps := exps, side := side, overflow := overrun },
      flagIf reserved Flags.reservedData ||| flagIf (overrun ≠ 0) Flags.outlierOverflow)
  | 2 =>
    let (bytes, reserved) := storeI2 l
    (bytes, { exps := exps }, flagIf reserved Flags.reservedData)
  | _ =>
    let at_ (r n : Nat) : Nat := (l.getD (256 * r + 2 * n) 0).toNat + 256 * (l.getD (256 * r + 2 * n + 1) 0).toNat
    let column (n : Nat) : List Nat := (List.range 128).map fun r => at_ r n
    let exps := (List.range 128).map fun n => (n, blockExp (column n))
    let bad (n : Nat) : Bool := (column n).any fun p => !bfFinite p
    let sig := (List.range 128).any fun n => (column n).any fun p => Val.read bf16 p = .nan true
    let bytes := (List.range 128).flatMap fun r => exps.map fun e =>
      BitVec.ofNat 8 (wrapInt 8 (alignBf e.2 (at_ r e.1)))
    (bytes ++ zeros 16384,
      { exps := exps, nonfinite := (List.range 128).foldl (fun m n => if bad n then m ||| (1 <<< n) else m) 0 },
      flagIf sig Flags.invalid)

/-- How the reads of a load's source go: they wait, a request has no response, or they give the bytes and whether a line of
them could not be read. -/
inductive LoadRead where
  | waits
  | unanswered (kind : WaitKind)
  | done (bytes : List Byte) (failed : Bool)
deriving DecidableEq, Repr

def LoadRead.cons (b : List Byte) (bad : Bool) : LoadRead → LoadRead
  | .done l failed => .done (b ++ l) (bad || failed)
  | x => x

/-- Read the lines of a load's source in ascending order; a line that cannot be read leaves zeros and marks the set failed
(R187), and so does one whose request has no response to its second send (R348, R411). -/
def loadLines (l : WeightLoad) : List Nat → State → State × LoadRead
  | [], s => (s, .done [] false)
  | i :: t, s =>
    let a := l.src.toNat + 128 * i
    let m : M (List Byte) :=
      if l.aSpace then do
        let p := l.place + 128 * i
        aPoison l.who.core a p 128
        binRead l.who.core p 128
      else do
        match ← checkSpan (.seq l.who) .r false a with
        | some h => readSpan (.seq l.who) l.scope 3 false a 128 h
        | none => stall
    match m.on s with
    | (.ok b, s') => let r := loadLines l t s'; (r.1, r.2.cons b false)
    | (.error (.cause _ _ _), s') => let r := loadLines l t s'; (r.1, r.2.cons (zeros 128) true)
    | (.error (.wait kind _), s') =>
      if (askAgain l.sent kind s'.cycle).isSome then (s', .unanswered kind)
      else let r := loadLines l t s'; (r.1, r.2.cons (zeros 128) true)
    | (.error _, s') => (s', .waits)

/-- The oldest load of a core ends: the set is written whole, stops loading, and its flags go to sr.sticky.m of the
sequencer while its task runs (R187). The loads of a core end in the order of their acceptance, and the source of each is read
in the step that ends it (log entry 68). -/
def State.finishLoad (s : State) (l : WeightLoad) (rest : List WeightLoad) : State :=
  match loadLines l (List.range 256) s with
  | (s, .waits) => s
  | (s, .unanswered kind) =>
    let k := s.core l.who.core
    s.setCore l.who.core { k with loads := { l with sent := askAgain l.sent kind s.cycle } :: rest }
  | (s, .done bytes failed) =>
    let k := s.core l.who.core
    let (bytes, set_, fl) := buildSet l.fmt bytes (k.wset l.mac l.set).exps
    let k := { k with wspace := writeBytes (setBase l.mac l.set) bytes k.wspace, loads := rest }
    let s := s.setCore l.who.core (k.setWset l.mac l.set { set_ with failed := failed })
    let q := s.seq l.who
    if l.serial.isSome && q.task.map TaskRef.serial = l.serial then
      s.setSeq l.who { q with now := q.now.raiseSticky .m fl l.vpc l.slot l.stamp }
    else s

/-- WEIGHT_LOAD_COMPLETE (R187): a core's oldest load writes its last byte. -/
def execWeightLoadComplete (core : Fin 512) (s : State) : Outcome :=
  match (s.core core).loads with
  | [] => .next s
  | l :: rest => .next (s.finishLoad l rest)

def mwslBody (o : Operands) : M Result := do
  let _ ← literalWord o
  let n := o.slot.f.extractLsb' 0 2
  modSeq o.who fun q =>
    { q with now := { q.now with mmode := (q.now.mmode &&& ~~~(0x300 : Word)) ||| (n.setWidth 64 <<< 8) },
             bundle := { q.bundle with mwsl := some n } }
  advanceLpc o
  return {}

/-- MWSL (R189). -/
def execMwsl (w : Slot) (s : State) : Outcome := runSlot 0x55 w mwslBody s

/-- MWUP's rows: bytes to store, the set's new marks, flags (R190). -/
def updateSet (fmt : BitVec 2) (off : Nat) (l : List Byte) (x : WeightSet) : List Byte × WeightSet × Flags :=
  match fmt.toNat with
  | 0 => (l, x, 0)
  | 1 =>
    let (bytes, side, reserved) := storeI4x off l
    let r := off / 128
    let side := (x.side.filter fun e => e.1 ≠ r && e.1 ≠ r + 1) ++ side
    let overrun := overflowMarks side
    (bytes, { x with side := side, overflow := overrun },
      flagIf reserved Flags.reservedData ||| flagIf (overrun ≠ 0) Flags.outlierOverflow)
  | 2 =>
    let (bytes, reserved) := storeI2 l
    (bytes, x, flagIf reserved Flags.reservedData)
  | _ =>
    let at_ (n : Nat) : Nat := (l.getD (2 * n) 0).toNat + 256 * (l.getD (2 * n + 1) 0).toNat
    let cols := (List.range 128).map fun n =>
      let p := at_ n
      let r := clampInt (-127) 127 (alignBf (x.exponent n) p)
      ((BitVec.ofNat 8 (wrapInt 8 r.1) : Byte), r.2 ||| flagIf (Val.read bf16 p = .nan true) Flags.invalid)
    (cols.map Prod.fst,
      { x with nonfinite := (List.range 128).foldl (fun m n => if bfFinite (at_ n) then m else m ||| (1 <<< n)) x.nonfinite },
      orFlags (cols.map Prod.snd))

def mwupBody (o : Operands) : M Result := do
  let fmt := o.slot.f.extractLsb' 0 2
  let (p, set_, off) ← weightPlace o fun off =>
    if fmt = 3 then decide (off % 128 = 0) && decide (off < 0x4000) else decide (off % 256 = 0)
  let _ ← literalWord o
  let k ← getCore o.who.core
  if (k.wset p set_).loading then stall
  let (bytes, x, fl) := updateSet fmt off (vecBytes o.a) (k.wset p set_)
  modCore o.who.core fun k =>
    ({ k with wspace := writeBytes (setBase p set_ + off) bytes k.wspace } : Core).setWset p set_ x
  advanceLpc o
  return { flags := fl }

/-- MWUP (R190). -/
def execMwup (w : Slot) (s : State) : Outcome := runSlot 0x56 w mwupBody s

/-! ### Calibration and the gleaner (R191, R192, R175) -/

/-- The physical macro that B names, or 0x102. -/
def namedMacro (o : Operands) : M Nat := do
  let k ← getCore o.who.core
  raiseIf (k.macroCount ≤ o.xb.toNat) 0x102
  return k.liveList.getD o.xb.toNat 0

def mcalWBody (o : Operands) : M Result := do
  let p ← namedMacro o
  let _ ← literalWord o
  modCore o.who.core fun k => k.setMacro p
    { k.macroAt p with offsets := (List.range 128).map fun i => (i, o.a.extractLsb' (8 * i) 8),
                       valid := BitVec.allOnes 128 }
  advanceLpc o
  return {}

def mcalInvBody (o : Operands) : M Result := do
  let p ← namedMacro o
  let _ ← literalWord o
  modCore o.who.core fun k => k.setMacro p { k.macroAt p with valid := 0 }
  advanceLpc o
  return {}

def mcalRBody (o : Operands) : M Result := do
  let p ← namedMacro o
  let _ ← literalWord o
  let m := (← getCore o.who.core).macroAt p
  let offs := (List.range 128).map fun i => offsetOf o.who.core p m i
  advanceLpc o
  return Result.ofV (vecOf (offs ++ leBytes 16 m.valid.toNat))

/-- mcal.w (R191). -/
def execMcalW (w : Slot) (s : State) : Outcome := runSlot 0x57 w mcalWBody s
/-- mcal.inv (R191). -/
def execMcalInv (w : Slot) (s : State) : Outcome := runSlot 0x57 w mcalInvBody s
/-- mcal.r (R191). -/
def execMcalR (w : Slot) (s : State) : Outcome := runSlot 0x57 w mcalRBody s

def msmpSetBody (o : Operands) : M Result := do
  let k ← getCore o.who.core
  let cfg := o.xa
  let n := field cfg 4 0
  raiseIf (24 < n || field cfg 15 9 ≠ 0 || field cfg 7 5 ≠ 0 || field cfg 63 32 ≠ 0 || 2 ^ k.macroCount ≤ o.xb.toNat) 0x108
  let _ ← literalWord o
  modCore o.who.core fun k => (participants o.xb.toNat).foldl (fun (k : Core) j =>
    let p := k.liveList.getD j 0
    k.setMacro p { k.macroAt p with exponent := n, seed := field cfg 31 16 % 2 ^ n, sampling := cfg.getLsbD 8 }) k
  advanceLpc o
  return {}

/-- The gleaner word (R192). -/
def Macro.gleanerWord (m : Macro) : Word :=
  place 56 (bit m.sampling) + place 48 m.exponent + place 32 (min m.skipped 0xFFFF) + place 0 (m.violations % 2 ^ 32)

def msmpRdBody (o : Operands) : M Result := do
  let p ← namedMacro o
  let _ ← literalWord o
  let m := (← getCore o.who.core).macroAt p
  advanceLpc o
  return Result.ofX m.gleanerWord

/-- msmp.set (R192). -/
def execMsmpSet (w : Slot) (s : State) : Outcome := runSlot 0x58 w msmpSetBody s
/-- msmp.rd (R192). -/
def execMsmpRd (w : Slot) (s : State) : Outcome := runSlot 0x58 w msmpRdBody s

/-! ### C space (R193, R194) -/

/-- The lane address of a MACR, MACW or MACS: a multiple of its count and below 65,536, or 0x104. -/
def laneBase (o : Operands) (n : Nat) : M Nat := do
  raiseIf (o.xb.toNat % n ≠ 0 || 65536 ≤ o.xb.toNat) 0x104 o.xb
  let _ ← literalWord o
  return o.xb.toNat

/-- Read lanes into a vector through a view of each lane. -/
def macrBody (n : Nat) (view : Lane → List Byte) (o : Operands) : M Result := do
  let b ← laneBase o n
  let k ← getCore o.who.core
  advanceLpc o
  return Result.ofV (vecOf ((List.range n).flatMap fun i => view (Lane.ofWord (tabGet 0 (b + i) k.lanes))))

/-- macr.v (R193). -/
def execMacrV (w : Slot) (s : State) : Outcome := runSlot 0x59 w (macrBody 64 fun l => leBytes 4 l.value.toNat) s
/-- macr.b (R193). -/
def execMacrB (w : Slot) (s : State) : Outcome := runSlot 0x59 w (macrBody 64 fun l => leBytes 4 l.bound.toNat) s
/-- macr.p (R193). -/
def execMacrP (w : Slot) (s : State) : Outcome := runSlot 0x59 w (macrBody 32 fun l => wordBytes l.toWord) s

/-- Change n lanes from b on, each by its place in the range. -/
def changeLanes (k : Core) (b n : Nat) (f : Nat → Lane → Lane × Flags) : Core × Flags :=
  (List.range n).foldl (fun (acc : Core × Flags) i =>
    let (l, g) := f i (Lane.ofWord (tabGet 0 (b + i) acc.1.lanes))
    ({ acc.1 with lanes := tabPut (b + i) l.toWord acc.1.lanes }, acc.2 ||| g)) (k, 0)

def laneBody (n : Nat) (f : Operands → Nat → Lane → Lane × Flags) (o : Operands) : M Result := do
  let b ← laneBase o n
  let k ← getCore o.who.core
  let (k, fl) := changeLanes k b n (f o)
  let k := if o.slot.f.getLsbD 4 then k.markLive b n else k
  modify fun s => s.setCore o.who.core k
  advanceLpc o
  return { flags := fl }

/-- FP32 element i of operand A. -/
def elem32 (o : Operands) (i : Nat) : Nat := (o.a.extractLsb' (32 * i) 32).toNat

/-- macw.v (R193, R48). -/
def execMacwV (w : Slot) (s : State) : Outcome :=
  runSlot 0x5A w (laneBody 64 fun o i _ => (Lane.written (elem32 o i) 0, 0)) s
/-- macw.p (R193, R48). -/
def execMacwP (w : Slot) (s : State) : Outcome :=
  runSlot 0x5A w (laneBody 32 fun o i _ => (Lane.written (elem32 o (2 * i)) (elem32 o (2 * i + 1)), 0)) s
/-- macs.z (R194, R48). -/
def execMacsZ (w : Slot) (s : State) : Outcome := runSlot 0x5B w (laneBody 128 fun _ _ _ => (⟨0, 0⟩, 0)) s
/-- macs.s (R194, R48). -/
def execMacsS (w : Slot) (s : State) : Outcome := runSlot 0x5B w (laneBody 128 fun o _ l => l.scale (elem32 o 0)) s
/-- macs.v (R194, R48). -/
def execMacsV (w : Slot) (s : State) : Outcome := runSlot 0x5B w (laneBody 64 fun o i l => l.scale (elem32 o i)) s

end Sys2Proof.Machine
end

