-- ==== Sys2Proof/Machine/Health.lean ====
section
/-! DEFINITION. The package health word, health records (spec 19 R401, R402), HLTH (spec 11 R256), and the gleaner's check (spec
07 R175). -/

namespace Sys2Proof.Machine

/-- Entries of the health ring that the host has not consumed (R403). -/
def HostPort.ringLoad (h : HostPort) : Nat := (h.hrTail - h.hrHead).toNat

/-- Can Sirxon write no further entry into the ring? -/
def HostPort.ringFull (h : HostPort) : Bool := !h.hrEn || 2 ^ h.hrLgn.toNat ≤ h.ringLoad

/-- Entries that the ring can still take. -/
def HostPort.ringRoom (h : HostPort) : Nat := if h.hrEn then 2 ^ h.hrLgn.toNat - h.ringLoad else 0

/-- A record waits for the ring; one that finds ring and backlog full is dropped and counted in LOST (R403): of the records
that wait, those that the ring has no room for stand in the backlog. -/
def State.queueRecord (s : State) (r : RingRec) : State :=
  if Config.healthBacklog + s.host.ringRoom ≤ s.sirxon.records.length then
    { s with host := { s.host with hrLost := if s.host.hrLost = 0xFFFF then 0xFFFF else s.host.hrLost + 1 } }
  else { s with sirxon := { s.sirxon with records := s.sirxon.records ++ [r] } }

/-- A health record of a KIND (R402). Where the spec does not state LOC or VALUE for the KIND, the field is a free value
(log entry 15). -/
def State.addHealth (s : State) (kind : Nat) (loc value : Option Nat) : State :=
  let l := match loc with
    | some n => BitVec.ofNat 56 n
    | none => Config.healthLoc kind s.free
  let v := match value with
    | some n => BitVec.ofNat 64 n
    | none => Config.healthValue kind s.free
  ({ s with free := s.free + 1 } : State).queueRecord (.health { stamp := s.stamp, kind := BitVec.ofNat 8 kind, loc := l, value := v })

/-- Set a REASON bit; the first time, a record of kind 12 carries the REASON byte (R401). -/
def State.setReason (s : State) (n : Nat) : State :=
  if s.sirxon.reason.getLsbD n then s
  else
    let r := s.sirxon.reason ||| (1 <<< n)
    ({ s with sirxon := { s.sirxon with reason := r } } : State).addHealth 12 none (some r.toNat)

def State.setReasonIf (s : State) (c : Bool) (n : Nat) : State := if c then s.setReason n else s

/-- The package health word (R401). -/
def State.healthWord (s : State) : Word :=
  let x := s.sirxon
  place 63 (bit (x.reason ≠ 0)) + place 48 x.reason.toNat + place 36 (x.macrosRetired % 4096)
    + place 26 (x.coresRetired % 1024) + place 13 (x.binsRetired % 8192) + place 8 (x.lanesSpared % 32)
    + place 0 (min x.deadPackages 255)

/-- LOC of a core and macro (R402). -/
def macroLoc (core mac : Nat) : Nat := core + 1024 * mac

/-! ### Discovered quantities (R256) -/

/-- Live cores of a cluster. -/
def State.liveCores (s : State) (cluster : Nat) : Nat :=
  ((List.range 4).filter fun i => !(s.core (4 * cluster + i)).retired).length

/-- Bins in service (R226). -/
def Cluster.binCount (k : Cluster) : Nat :=
  (k.bins.toList.filter fun b => b.state ≠ .spare && b.state ≠ .retired).length

/-- What a cluster's cores are told, as things stand. -/
def State.discovered (s : State) (cluster : Nat) : Discovered :=
  { cores := s.liveCores cluster, bins := (s.cluster cluster).binCount, health := s.healthWord }

/-- HLTH's values are those that held when the task on the core started or was resumed: they change only between tasks
(R256). -/
def hlthBody (o : Operands) : M Result := do
  let s ← get
  let n := o.slot.b.toNat
  let told := (s.core o.who.core).told.getD (s.discovered o.cluster)
  let v : Word :=
    if n = 0 then BitVec.ofNat 64 told.cores
    else if n = 1 then BitVec.ofNat 64 (s.core o.who.core).macroCount
    else if n = 2 then BitVec.ofNat 64 told.bins
    else if n = 3 then 512
    else if n = 4 then 256
    else if n = 5 then BitVec.ofNat 64 s.sirxon.cap
    else if n = 6 then Config.familyHash
    else if n = 8 then s.sirxon.package.setWidth 64
    else told.health
  return Result.ofX v

/-- HLTH (R256). -/
def execHlth (w : Slot) (s : State) : Outcome := runSlot 0x73 w hlthBody s

/-! ### The gleaner's check (R175) -/

/-- |S − exact| as FP32 bits, rounded up. -/
def gapBits (a b : Val) : Nat := ((a.sub .nearest b).1.abs.round fp32 .up).1

/-- Is a column's gap above its bound? One with β = +∞, or a NaN result, never is. -/
def violates (s exact : Val) (beta : BitVec 32) : Bool :=
  (Val.read fp32 beta.toNat).lt (s.sub .nearest exact).1.abs

/-- GLEANER_CHECK (R175): the oldest picked result of a macro is compared; each violation counts and writes a record with
column, d, ρ and the gap in VALUE, whose layout the spec does not give: a free value of the four (log entry 15). -/
def execGleanerCheck (core : Fin 512) (mac : Fin 8) (s : State) : Outcome :=
  let k := s.core core
  let m := k.macroAt mac
  match m.picks with
  | [] => .next s
  | p :: rest =>
    let bad := p.columns.filter fun c => violates c.2.1 c.2.2.1 c.2.2.2
    let s := s.setCore core (k.setMacro mac { m with picks := rest, violations := m.violations + bad.length })
    .next (bad.foldl (fun (s : State) c =>
      s.addHealth 9 (some (macroLoc core mac)) (some (Config.gleanerValue c.1 p.d p.rho (gapBits c.2.1 c.2.2.1)).toNat)) s)

end Sys2Proof.Machine
end

