-- ==== Sys2Proof/Machine/Control.lean ====
section
/-! DEFINITION. The X engine's control slots: branches, hardware loops, service calls, HALT, and the system registers (spec 04
R90 to R100, spec 01 R28, spec 09 R216). -/

namespace Sys2Proof.Machine

/-! ### Where the sequencer goes -/

/-- A taken transfer takes effect when its bundle is over (R94); in a replay it moves RESUME. -/
def Seq.goTo (q : Seq) (v : BitVec 32) : Seq :=
  match q.bundle.replay with
  | some r => { q with bundle := { q.bundle with replay := some { r with resume := v } } }
  | none => { q with bundle := { q.bundle with target := some v } }

def branchTo (o : Operands) (offset : Nat) : M Unit :=
  modSeq o.who fun q => q.goTo (o.vpc + BitVec.ofNat 32 (4 * offset))

def literalOf (o : Operands) : Nat := (o.lit.getD 0).toNat

/-- The offset of BR and BRU in words (R91, R93). -/
def brOffset (o : Operands) : Nat := literalOf o * 1024 + o.slot.b.toNat * 16 + o.f % 16

/-- Bit 0 of p[A], p0 to p63. -/
def brTest (o : Operands) : Bool := (o.regs.getP (o.slot.a.setWidth 7)).getLsbD 0

def brBody (o : Operands) : M Result := do
  if brTest o then branchTo o (brOffset o)
  return {}
def brNotBody (o : Operands) : M Result := do
  if !brTest o then branchTo o (brOffset o)
  return {}
def jmpBody (o : Operands) : M Result := do
  branchTo o (literalOf o * 2 ^ 17 + o.slot.a.toNat * 2 ^ 11 + o.slot.b.toNat * 2 ^ 5 + o.f)
  return {}
/-- F[4] = 0: all 256 bits zero; F[4] = 1: any bit set (R93). -/
def bruBody (o : Operands) : M Result := do
  if (o.regs.maskTop != 0) == (o.f / 16 == 1) then branchTo o (brOffset o)
  return {}

/-- BR (R91). -/
def execBr (w : Slot) (s : State) : Outcome := runSlot 0x15 w brBody s
/-- br.not (R91). -/
def execBrNot (w : Slot) (s : State) : Outcome := runSlot 0x15 w brNotBody s
/-- JMP (R92). -/
def execJmp (w : Slot) (s : State) : Outcome := runSlot 0x16 w jmpBody s
/-- BRU (R93). -/
def execBru (w : Slot) (s : State) : Outcome := runSlot 0x17 w bruBody s

/-! ### Loops (R95, R96) -/

/-- The opcode and stop bit of a slot word. -/
def wordOp (w : BitVec 32) : Nat := (w.extractLsb' 24 7).toNat

/-- The word index of the bundle that holds the matching NEXT, scanning from a bundle's start: the first NEXT at the same
nesting level (R95). -/
def scanNext : List (BitVec 32) → Nat → Nat → Nat → Option Nat
  | [], _, _, _ => none
  | w :: t, idx, start, depth =>
    let start' := if w.getLsbD 31 then idx + 1 else start
    if wordOp w = 0x18 then scanNext t (idx + 1) start' (depth + 1)
    else if wordOp w = 0x19 then
      match depth with
      | 0 => some start
      | d + 1 => scanNext t (idx + 1) start' d
    else scanNext t (idx + 1) start' depth

/-- Slots of a bundle from its first word (R53). -/
def slotsOf : List (BitVec 32) → Nat
  | [] => 0
  | w :: t => if w.getLsbD 31 then 1 else 1 + slotsOf t

/-- The VPC of the bundle after the one at a VPC. -/
def nextVpc (code : List (BitVec 32)) (vpc : BitVec 32) : BitVec 32 :=
  vpc + BitVec.ofNat 32 (4 * slotsOf (code.drop (vpc.toNat / 4)))

/-- The code body a sequencer runs. -/
def codeOf (w : SeqId) : M (List (BitVec 32)) := do
  let s ← get
  match (s.seq w).code.bind s.variantOf with
  | some v => return v.code
  | none => return []

/-- The trip count (R95): below 0 and above 2^32 − 1 are clamped with integer saturation. -/
def tripCount (c : Int) : Nat × Flags :=
  let (y, f) := clampInt 0 (2 ^ 32 - 1 : Nat) c
  (y.toNat, f)

/-- loop_issue of R95. -/
def loopIssue (o : Operands) (count : Int) : M Result := do
  let code ← codeOf o.who
  let (c, f) := tripCount count
  let start := nextVpc code o.vpc
  let i := start.toNat / 4
  let endV := match scanNext (code.drop i) i i 0 with
    | some e => BitVec.ofNat 32 (4 * e)
    | none => start
  if c = 0 then
    modSeq o.who fun q => q.goTo (nextVpc code endV)
  else
    modSeq o.who fun q =>
      let e : LoopEntry := { endV := endV, start := start, count := BitVec.ofNat 32 c, index := 0 }
      ({ q with now := { q.now with loops := q.now.loops ++ [e] } } : Seq).goTo start
  return { flags := f }

def loopBody (o : Operands) : M Result := loopIssue o o.xa.toInt
def loopNBody (o : Operands) : M Result := loopIssue o (literalOf o * 64 + o.slot.b.toNat : Nat)

/-- next_issue of R96; the point after it is an iteration boundary. -/
def nextBody (o : Operands) : M Result := do
  let code ← codeOf o.who
  modSeq o.who fun q =>
    match q.now.loops.getLast? with
    | none => q
    | some e =>
      let i := e.index + 1
      let q := { q with bundle := { q.bundle with boundary := true } }
      let outer := q.now.loops.dropLast
      if i.toNat < e.count.toNat && e.index.toNat + 1 < 2 ^ 32 then
        ({ q with now := { q.now with loops := outer ++ [{ e with index := i }] } } : Seq).goTo e.start
      else
        ({ q with now := { q.now with loops := outer } } : Seq).goTo (nextVpc code e.endV)
  return {}

/-- LOOP with a count from a scalar source (R95). -/
def execLoop (w : Slot) (s : State) : Outcome := runSlot 0x18 w loopBody s
/-- LOOP with an immediate count (R95). -/
def execLoopN (w : Slot) (s : State) : Outcome := runSlot 0x18 w loopNBody s
/-- NEXT (R96). -/
def execNext (w : Slot) (s : State) : Outcome := runSlot 0x19 w nextBody s

/-! ### Service calls and HALT (R98, R99) -/

/-- HALT and SVC stand until every slot of their bundle has completed (R98, R99, R211). -/
def setEnding (o : Operands) (op : BitVec 7) (e : Ending) : M Result := do
  modSeq o.who fun q =>
    let entry : ReplayEntry := match q.bundle.replay with
      | some r => { r.entries.headD {} with state := 0, cause := 0, addr := 0 }
      | none => mkEntry q op o.form o.slot o.lit 0
    { q with bundle := { q.bundle with ending := some e, endEntry := entry } }
  return {}

/-- The service number n = A × 64 + B (R98). -/
def serviceNumber (w : Slot) : BitVec 16 := (w.a ++ w.b).setWidth 16

def svcCallBody (o : Operands) : M Result := setEnding o 0x1A (.call (serviceNumber o.slot))
def svcTrapBody (o : Operands) : M Result := setEnding o 0x1A (.trap (serviceNumber o.slot))
def svcTretBody (o : Operands) : M Result := setEnding o 0x1A .tret
def haltBody (o : Operands) : M Result := setEnding o 0x1B (.halt none)
/-- halt.fail reports cause 0x042 with bits [15:0] of A as the program status (R99, R289). It is performed only once its bundle
is over (R211), and then its task has no held operand left to replace. -/
def haltFailBody (o : Operands) : M Result := do
  let now := (← get).stamp
  let _ ← setEnding o 0x1B (.halt (some { failAt 0x042 (o.xa.setWidth 16) o.regs.loops with stamp := now }))
  return { kept := some o.regs.held[Engine.x.idx] }

/-- svc.call (R98). -/
def execSvcCall (w : Slot) (s : State) : Outcome := runSlot 0x1A w svcCallBody s
/-- svc.trap (R98). -/
def execSvcTrap (w : Slot) (s : State) : Outcome := runSlot 0x1A w svcTrapBody s
/-- svc.tret (R98, R218, R219). -/
def execSvcTret (w : Slot) (s : State) : Outcome := runSlot 0x1A w svcTretBody s
/-- HALT (R99). -/
def execHalt (w : Slot) (s : State) : Outcome := runSlot 0x1B w haltBody s
/-- halt.fail (R99). -/
def execHaltFail (w : Slot) (s : State) : Outcome := runSlot 0x1B w haltFailBody s

/-! ### System registers (R28, R100, R216) -/

/-- sr.depth (R28). -/
def Regs.depthWord (r : Regs) : Word := BitVec.ofNat 64 (r.masks.length % 16 * 16 + r.loops.length % 8)

/-- The bits of sr.mmode that are fields (R162). -/
def mmodeMask : Word := 0x3FF33FF
/-- The bits of sr.peer.sel that are fields (R216). -/
def peerMask : Word := 0x77F1F

/-- The engine a sticky register's number names. -/
def stickyEngine (n : Nat) : Fin 6 := Fin.ofNat 6 (n % 8)

/-- A read-write system register of R28. -/
def Regs.readRw (r : Regs) (n : Nat) : Option Word :=
  if n = 0x008 then some (r.round.setWidth 64)
  else if n = 0x009 then some r.mmode
  else if 0x010 ≤ n && n ≤ 0x015 then some (r.sticky[stickyEngine n]).word
  else if 0x018 ≤ n && n ≤ 0x01D then some (r.sticky[stickyEngine n]).stamp
  else none

/-- A write of a read-write system register of R28: reserved bits are ignored (R5), and a sticky register's write clears
the whole record (R26). -/
def Regs.writeRw (r : Regs) (n : Nat) (v : Word) : Option Regs :=
  if n = 0x008 then some { r with round := v.setWidth 2 }
  else if n = 0x009 then some { r with mmode := v &&& mmodeMask }
  else if (0x010 ≤ n && n ≤ 0x015) || (0x018 ≤ n && n ≤ 0x01D) then
    some { r with sticky := r.sticky.set (stickyEngine n) {} }
  else none

/-- Piece k of 64 bits of a wide register, and its replacement. -/
def pieceOf {n : Nat} (v : BitVec n) (k : Nat) : Word := v.extractLsb' (64 * k) 64
def setPiece {n : Nat} (v : BitVec n) (k : Nat) (x : Word) : BitVec n :=
  (v &&& ~~~((BitVec.allOnes 64).setWidth n <<< (64 * k))) ||| (x.setWidth n <<< (64 * k))

/-- The selected piece of the trapped group's state (R216); none raises 0x04A. -/
def peerRead (r : Regs) (cls idx part : Nat) : Option Word :=
  match cls with
  | 0 => if idx < 32 && part = 0 then some (r.getX (BitVec.ofNat 5 idx)) else none
  | 1 => if idx < 32 then some (pieceOf (r.getV (BitVec.ofNat 5 idx)) part) else none
  | 2 => if part < 4 then some (pieceOf (r.getP (BitVec.ofNat 7 idx)) part) else none
  | 3 => if idx < 16 && part < 6 then (r.streams.toList.getD idx {}).words[part]? else none
  | 4 => if idx < r.masks.length && part < 4 then some (pieceOf (r.masks.reverse.getD idx 0) part) else none
  | 5 => if part = 0 then r.readRw idx else none
  | _ => none

def peerWrite (r : Regs) (cls idx part : Nat) (v : Word) : Option Regs :=
  match cls with
  | 0 => if idx < 32 && part = 0 then some (r.setX (BitVec.ofNat 5 idx) v) else none
  | 1 =>
    let n := BitVec.ofNat 5 idx
    if idx < 32 then some (r.setV n (setPiece (r.getV n) part v)) else none
  | 2 =>
    let n := BitVec.ofNat 7 idx
    if part < 4 then some (r.setP n (setPiece (r.getP n) part v)) else none
  | 3 =>
    if h : idx < 16 then
      if part < 6 then some { r with streams := r.streams.set idx ((r.streams[idx]).setWord part v) } else none
    else none
  | 4 =>
    let k := r.masks.length - 1 - idx
    if idx < r.masks.length && part < 4 then
      some { r with masks := r.masks.set k (setPiece (r.masks.getD k 0) part v) }
    else none
  | 5 => if part = 0 then r.writeRw idx v else none
  | _ => none

/-- CLASS, INDEX and PART of sr.peer.sel. -/
def peerSel (r : Regs) : Nat × Nat × Nat := (field r.peerSel 18 16, field r.peerSel 14 8, field r.peerSel 4 0)

def csrrBody (o : Operands) : M Result := do
  let s ← get
  let n := o.slot.sysReg
  let r := o.regs
  let ctx : Word := match (s.seq o.who).task with
    | some t => t.ctx
    | none => 0
  if n = 0x000 then return Result.ofX (o.vpc.setWidth 64)
  else if n = 0x001 then return Result.ofX (r.lpc.setWidth 64)
  else if n = 0x002 then return Result.ofX r.depthWord
  else if n = 0x020 then return Result.ofX o.issued
  else if n = 0x021 then return Result.ofX (BitVec.ofNat 64 (o.who.group.val * 4096 + o.who.core.val))
  else if n = 0x022 || n = 0x030 then return Result.ofX ctx
  else if n = 0x031 then return Result.ofX r.peerSel
  else if n = 0x032 then
    let (c, i, p) := peerSel r
    match peerRead (s.seq (otherGroup o.who)).now c i p with
    | some v => return Result.ofX v
    | none => raise 0x04A
  else return Result.ofX ((r.readRw n).getD 0)

/-- A clear of a sticky record takes effect before the exceptions of the same bundle (R26). -/
def Seq.reraise (q : Seq) (e : Fin 6) : Seq :=
  let mine := q.bundle.raised.filter fun x => x.1 == e
  { q with now := mine.foldl (fun r x =>
      { r with sticky := r.sticky.set e ((r.sticky[e]).raise x.2.1 q.before.vpc x.2.2 q.bundle.issued) }) q.now }

/-- WS of sr.mmode is an MWSL's of the same bundle, whichever slot stands first (R189). -/
def Seq.keepSet (q : Seq) : Seq :=
  match q.bundle.mwsl with
  | some n => { q with now := { q.now with mmode := (q.now.mmode &&& ~~~(0x300 : Word)) ||| (n.setWidth 64 <<< 8) } }
  | none => q

def csrwBody (o : Operands) : M Result := do
  let n := o.slot.sysReg
  let v := o.xa
  if n = 0x031 then
    modSeq o.who fun q => { q with now := { q.now with peerSel := v &&& peerMask } }
  else if n = 0x032 then
    let (c, i, p) := peerSel o.regs
    let other := otherGroup o.who
    let q ← getSeq other
    match peerWrite q.now c i p v with
    | some r => modSeq other fun q => { q with now := r, before := r }
    | none => raise 0x04A
  else
    modSeq o.who fun q =>
      match q.now.writeRw n v with
      | some r =>
        let q := { q with now := r }
        let q := if n = 0x009 then q.keepSet else q
        if 0x010 ≤ n then q.reraise (stickyEngine n) else q
      | none => q
  return {}

/-- CSRR (R100). -/
def execCsrr (w : Slot) (s : State) : Outcome := runSlot 0x1C w csrrBody s
/-- CSRW (R100). -/
def execCsrw (w : Slot) (s : State) : Outcome := runSlot 0x1D w csrwBody s

end Sys2Proof.Machine
end

