-- ==== Sys2Proof/Machine/Sync.lean ====
section
/-! DEFINITION. Atomics, the monitor, fences, residency requests and prefetch (spec 05 R122 to R128). -/

namespace Sys2Proof.Machine

/-- Run a computation that must not stop: nothing happens where it would. -/
def attempt {α : Type} (m : M α) : M (Option α) := do
  let s ← get
  match m.on s with
  | (.ok a, s') => set s'; return some a
  | (.error _, _) => return none

/-- Run a computation that never faults: nothing happens where it would raise a cause or gets no answer; what it has to wait
for it waits for. -/
def skipping {α : Type} (m : M α) : M (Option α) := do
  let s ← get
  match m.on s with
  | (.ok a, s') => set s'; return some a
  | (.error (.cause _ _ _), _) => return none
  | (.error (.wait _ _), _) => return none
  | (.error e, s') => set s'; throw e

/-! ### AMO (R122) -/

/-- The bytes an AMO accesses: 4 or 8 by F[4], 2 for amo.hadd. -/
def amoSize (f : Nat) : Nat := if f % 16 = 11 then 2 else if f / 16 = 1 then 8 else 4

/-- The new value at the address, from the old one and B; none writes nothing. -/
def amoNew (f n : Nat) (old b d : Nat) : Option Nat :=
  let m := 2 ^ (8 * n)
  let sOld := signedOf (8 * n) old
  let sB := signedOf (8 * n) b
  match f % 16 with
  | 0 => some ((old + b) % m)
  | 1 => some (if sOld ≤ sB then old else b)
  | 2 => some (if sOld ≤ sB then b else old)
  | 3 => some (min old b)
  | 4 => some (max old b)
  | 5 => some (old &&& b)
  | 6 => some (old ||| b)
  | 7 => some (old ^^^ b)
  | 8 => some b
  | 9 => if old = d then some b else none
  | 10 => some (fAdd fp32 .nearest old b).1
  | _ => some (fAdd bf16 .nearest old b).1

/-- The scope of an access performed at the home slice: fabric, or system (R318). -/
def homeScope (sc : Scope) : Scope := if sc = .system then .system else .fabric

/-- An aligned word of global memory at its home slice, checked and, as a demand, served there: the caller's alignment is
0x084's, the host window 0x08A's. An atomic read-modify-write waits for a compute phase of its pseudo-channel, in the slice or
not, and for those that arrived before it (R333, R367). -/
def homeWord (o : Operands) (use : Use) (k : Demand) (addr : Word) (n : Nat) : M Home := do
  raiseIf (addr.toNat % n ≠ 0) 0x084 addr
  match placeOf (← get) addr.toNat with
  | .host _ => raise 0x08A addr
  | _ =>
    awaitGlobal (.seq o.who) use.write addr.toNat n
    match ← checkSpan (.seq o.who) use false addr.toNat with
    | some h =>
      drainLine o.who.core (addr.toNat / 128)
      needHome (.seq o.who) h addr.toNat k
      return h
    | none => stall

def amoBody (o : Operands) : M Result := do
  let n := amoSize o.f
  let h ← homeWord o .rw .atomic o.xa n
  let sc := homeScope o.scope
  modify fun s => s.homeLease (.seq o.who) sc h 0
  let old := fromLe ((← get).homeBytes h n)
  let m := 2 ^ (8 * n)
  match amoNew o.f n old (o.xb.toNat % m) (o.xd.toNat % m) with
  | some y => modify fun s => s.homeWrite (.seq o.who) sc h (leBytes n y) 0
  | none => pure ()
  modCluster o.cluster fun k => k.dropCopy (o.xa.toNat / 128)
  return Result.ofX (BitVec.ofNat 64 old)

/-- AMO (R122). -/
def execAmo (w : Slot) (s : State) : Outcome := runSlot 0x27 w amoBody s

/-! ### MON and MWT (R123, R124) -/

def monBody (o : Operands) : M Result := do
  let h ← homeWord o .r .read o.xa 8
  modify fun s => s.homeLease (.seq o.who) (homeScope o.scope) h 0
  let l := (← get).homeBytes h 8
  modCluster o.cluster fun k => k.dropCopy (o.xa.toNat / 128)
  modSeq o.who fun q => { q with monitor := some { line := h.line } }
  return Result.ofX (wordOf l)

/-- MON (R123). -/
def execMon (w : Slot) (s : State) : Outcome := runSlot 0x28 w monBody s

/-- Cycles that the slot of a sequencer has waited. -/
def State.waited (s : State) (w : SeqId) : Nat :=
  match (s.seq w).wait with
  | some p => s.cycle - p.since
  | none => 0

/-- The first status of R124 whose condition holds. -/
def mwtStatus (s : State) (w : SeqId) (limit : Nat) : Option Nat :=
  match (s.seq w).monitor with
  | none => some 2
  | some m =>
    if m.fired then some 0
    else if s.preemptPending w then some 3
    else if limit ≠ 0 && limit ≤ s.waited w then some 1
    else none

def mwtBody (o : Operands) : M Result := do
  match mwtStatus (← get) o.who o.xa.toNat with
  | none => waitFor .mwt
  | some n =>
    if n = 0 || n = 2 then modSeq o.who fun q => { q with monitor := none }
    return Result.ofX (BitVec.ofNat 64 n)

/-- MWT (R124). -/
def execMwt (w : Slot) (s : State) : Outcome := runSlot 0x29 w mwtBody s

/-- The status that a waiting MWT would return now. -/
def State.mwtNow (s : State) (who : SeqId) : Option Nat :=
  match (s.seq who).wait with
  | some p => if p.kind = .mwt then mwtStatus s who (p.opA.setWidth 64 : Word).toNat else none
  | none => none

/-- MWT_WAKE (R124): a waiting MWT returns written, disarmed or interrupted once its condition holds. -/
def execMwtWake (who : SeqId) (s : State) : Outcome :=
  if s.mwtNow who = some 1 then .next s else .next (s.resumeWait who .mwt fun _ _ => mwtBody)

/-- MWT_LIMIT (R124): the cycle limit expires and a waiting MWT returns status 1. -/
def execMwtLimit (who : SeqId) (s : State) : Outcome :=
  if s.mwtNow who = some 1 then .next (s.resumeWait who .mwt fun _ _ => mwtBody) else .next s

/-! ### FENCE (R125) -/

def fenceBody (o : Operands) : M Result := do
  raiseEarlier o.who o.scope
  return {}

/-- FENCE (R125). -/
def execFence (w : Slot) (s : State) : Outcome := runSlot 0x2A w fenceBody s

/-! ### PREQ (R127, R354) -/

/-- What the home die knows of a page: resident, or not, with the page's number: at a die of this package, or at another
package. -/
inductive PageState where
  | resident
  | away (die page : Nat)
  | farAway (page : Nat)
deriving DecidableEq, Repr

/-- PREQ checks only the first two rows of R351. -/
def pageState (o : Operands) (va : Nat) : M PageState := do
  let s ← get
  let a := BitVec.ofNat 64 va
  match placeOf s va with
  | .host _ => return .resident
  | .remote pkg v =>
    reachPackage (.seq o.who) pkg v
    match s.farCause v with
    | some c => if c.toNat = 0x0C3 then return .farAway (v / 65536)
                else if c.toNat = 0x0C1 || c.toNat = 0x0C7 || c.toNat = 0x242 then throw (.cause c a 0)
                else return .resident
    | none => return .resident
  | .home die off =>
    reachSlice (.seq o.who) die off va
    match ← translate (.seq o.who) die off va with
    | .unmapped => raise 0x0C1 a
    | .malformed => raise 0x0C7 a
    | .unreadable pa =>
      modify fun s => s.addError die pa va srcWalk 3
      raise 0x242 a
    | .splintering => stall
    | .leaf _ _ e => return if pteRes e then .resident else .away die (va / 65536)

/-- A request already queued for the page is not queued twice. -/
def postResidency (die page : Nat) : M Unit :=
  modDie die fun d =>
    { d with residency := if d.residency.contains page then d.residency else d.residency ++ [page],
             residencyFailed := d.residencyFailed.filter fun p => p ≠ page }

/-- The same of a page whose home die is in another package: the request goes there over the fabric (R354, R410). -/
def postFarResidency (page : Nat) : M Unit :=
  modify fun s => { s with nets := { s.nets with
    asked := if s.nets.asked.contains page then s.nets.asked else s.nets.asked ++ [page],
    refused := s.nets.refused.filter fun p => p ≠ page } }

def preqBody (o : Operands) : M Result := do
  match ← pageState o o.xa.toNat with
  | .resident => return Result.ofX 0
  | .farAway page =>
    postFarResidency page
    return Result.ofX 1
  | .away die page =>
    postResidency die page
    return Result.ofX 1

def preqWBody (o : Operands) : M Result := do
  let first := (← getSeq o.who).wait.isNone
  match ← pageState o o.xa.toNat with
  | .resident => return Result.ofX 0
  | .farAway page =>
    if first then postFarResidency page
    if (← get).nets.refused.contains page then return Result.ofX 2
    else if (← get).preemptPending o.who then return Result.ofX 3
    else waitFor .preq
  | .away die page =>
    if first then postResidency die page
    if ((← getDie die).residencyFailed).contains page then return Result.ofX 2
    else if (← get).preemptPending o.who then return Result.ofX 3
    else waitFor .preq

/-- preq (R127). -/
def execPreq (w : Slot) (s : State) : Outcome := runSlot 0x2B w preqBody s
/-- preq.w (R127). -/
def execPreqW (w : Slot) (s : State) : Outcome := runSlot 0x2B w preqWBody s
/-- PREQ_W_COMPLETE (R127): a waiting preq.w returns resident, failed or interrupted. -/
def execPreqWComplete (who : SeqId) (s : State) : Outcome := .next (s.resumeWait who .preq fun _ _ => preqWBody)

/-! ### PREF (R128) -/

/-- One line brought in: into the last-level cache, and with level 0 into the cluster cache, whose copy, if it has one, takes
the hint. A write of the cluster to a line without a copy is applied at home first, as for a read (R326). -/
def prefLine (o : Operands) (va : Nat) : M Unit := do
  match ← checkSpan (.seq o.who) .r false va with
  | none => pure ()
  | some (.host _) => pure ()
  | some h =>
    let hint : BitVec 2 := o.slot.f.extractLsb' 0 2
    let s ← get
    let k := s.cluster o.cluster
    let held := (k.copyOf s.cycle (va / 128)).isSome
    if o.slot.f.getLsbD 2 || held then
      needHome (.seq o.who) h va .read
      modify fun s => s.homeLease (.seq o.who) .cluster h hint
      if !(o.slot.f.getLsbD 2) then modCluster o.cluster fun k => k.touch s.cycle (va / 128) hint
    else
      drainLine o.who.core (va / 128)
      let _ ← fetchLine (.seq o.who) .cluster hint true va h

/-- Lines on unmapped, non-resident or poisoned pages are skipped, and lines that no answer comes for; a line that has to wait
for its pseudo-channel is waited for. -/
def prefLines (o : Operands) : List Nat → M Unit
  | [] => return ()
  | va :: t => do
    let _ ← skipping (prefLine o va)
    prefLines o t

/-- PREF's address. It never faults: a stream port that cannot be read gives none (log entry 63). -/
def prefAddr (o : Operands) : M (Option Word) :=
  if isPort o.slot.a then skipping (readScalar o.who o.scope .g o.ports o.slot.a) else return some o.xa

def prefBody (o : Operands) : M Result := do
  match ← prefAddr o with
  | some a =>
    prefLines o ((List.range (o.slot.b.toNat + 1)).map fun i => (a.toNat / 128 + i) * 128 % 2 ^ 64)
    return {}
  | none => return {}

/-- PREF (R128). -/
def execPref (w : Slot) (s : State) : Outcome := runSlot 0x2E w prefBody s

end Sys2Proof.Machine
end

