-- ==== Sys2Proof/Machine/Team.lean ====
section
/-! DEFINITION. The sync unit and the bank map: RVIN, ARV, RVWT, GIVE, BMAP (spec 11 R230 to R247). -/

namespace Sys2Proof.Machine

/-! ### Rendezvous points (R241 to R243) -/

/-- A team's slot changed by a function. -/
def Cluster.modTeam (k : Cluster) (die : Fin 4) (serial : Nat) (f : Team → Team) : Cluster :=
  { k with teams := k.teams.map fun t =>
      match t with
      | some t => if t.die = die && t.serial = serial then some (f t) else some t
      | none => none }

/-- A sequencer's team changed. -/
def modTeam (w : SeqId) (f : Team → Team) : M Unit := do
  match (← getSeq w).task with
  | some t => modCluster (clusterOf w.core) fun k => k.modTeam t.die t.serial f
  | none => pure ()

/-- A point of the sequencer's team. -/
def getPoint (w : SeqId) (p : Nat) : M Point := do
  match (← get).teamOf w with
  | some t => return t.points.toList.getD p {}
  | none => return {}

def Team.setPoint (t : Team) (p : Nat) (x : Point) : Team := { t with points := t.points.setIfInBounds p x }

/-- An arrival with count c, bytes b and the arriving agent's time (R243, R330). -/
def Point.arrive (p : Point) (c b time : Nat) : Point :=
  let p := { p with time := max p.time time }
  if !p.init then { p with early := true }
  else
    let n := p.count.toNat + (if p.byteMode then b else c)
    if p.expected.toNat ≤ n then
      { p with overrun := p.overrun || decide (p.expected.toNat < n), count := 0, phase := !p.phase }
    else { p with count := BitVec.ofNat 28 n }

/-- A waiting YLD of a team notes that one of its points completed a phase (R255). -/
def State.notePhase (s : State) (die : Fin 4) (serial : Nat) : State :=
  s.mapSeqs fun _ q =>
    match q.wait, q.task with
    | some p, some t =>
      if p.kind = .yld && t.die = die && t.serial = serial then { q with wait := some { p with phase := true } } else q
    | _, _ => q

/-- An arrival on a point of a team of a cluster. -/
def arriveTeam (cluster : Nat) (die : Fin 4) (serial p c b time : Nat) : M Unit := do
  let team := (← getCluster cluster).teams.toList.findSome? fun t => t.bind fun t => if t.die = die && t.serial = serial then some t else none
  match team with
  | none => pure ()
  | some t =>
    let old := t.points.toList.getD p {}
    let new := old.arrive c b time
    modCluster cluster fun k => k.modTeam die serial fun t => t.setPoint p new
    if new.phase ≠ old.phase then modify fun s => s.notePhase die serial

/-- An arrival on a point of a sequencer's team. -/
def arriveAt (w : SeqId) (p c b time : Nat) : M Unit := do
  match (← getSeq w).task with
  | some t => arriveTeam (clusterOf w.core) t.die t.serial p c b time
  | none => pure ()

/-- The point that B names. -/
def pointOf (o : Operands) : Nat := o.slot.b.toNat

/-- 0x181: a count of 0, or of 2^28 or more. -/
def checkCount (v : Word) : M Unit := raiseIf (v = 0 || 2 ^ 28 ≤ v.toNat) 0x181

/-! ### RVIN, ARV, RVWT (R244 to R246) -/

def rvinSet (byteMode : Bool) (o : Operands) : M Result := do
  checkCount o.xa
  let p ← getPoint o.who (pointOf o)
  let e : BitVec 28 := o.xa.setWidth 28
  raiseIf (p.init && (p.byteMode ≠ byteMode || p.expected ≠ e)) 0x182
  modTeam o.who fun t => t.setPoint (pointOf o) { p with init := true, byteMode := byteMode, expected := e }
  return Result.ofX p.word

def rvinBody : Operands → M Result := rvinSet false
def rvinBBody : Operands → M Result := rvinSet true
def rvinRdBody (o : Operands) : M Result := do return Result.ofX (← getPoint o.who (pointOf o)).word

/-- rvin (R244). -/
def execRvin (w : Slot) (s : State) : Outcome := runSlot 0x68 w rvinBody s
/-- rvin.b (R244). -/
def execRvinB (w : Slot) (s : State) : Outcome := runSlot 0x68 w rvinBBody s
/-- rvin.rd (R244). -/
def execRvinRd (w : Slot) (s : State) : Outcome := runSlot 0x68 w rvinRdBody s

/-- An arrival of a count that is its byte total too: after every earlier access is performed at cluster scope. -/
def arrival (n : Nat) (o : Operands) : M Result := do
  raiseEarlier o.who .cluster
  let p ← getPoint o.who (pointOf o)
  arriveAt o.who (pointOf o) n n (← getSeq o.who).time
  return Result.ofX p.word

def arvBody (o : Operands) : M Result := do
  checkCount o.xa
  arrival o.xa.toNat o

/-- arv (R245). -/
def execArv (w : Slot) (s : State) : Outcome := runSlot 0x69 w arvBody s
/-- arv.one (R245). -/
def execArvOne (w : Slot) (s : State) : Outcome := runSlot 0x69 w (arrival 1) s

def rvwtBody (o : Operands) : M Result := do
  let n := pointOf o
  let p ← getPoint o.who n
  raiseIf (!p.init) 0x183
  if p.early then
    modTeam o.who fun t => t.setPoint n { p with early := false }
    raise 0x184
  if p.phase ≠ o.xa.getLsbD 61 then
    modSeq o.who fun q => { q with time := max q.time p.time }
    return Result.ofX 0
  else if (← get).preemptPending o.who then return Result.ofX 3
  else waitFor .rvwt

/-- RVWT (R246). -/
def execRvwt (w : Slot) (s : State) : Outcome := runSlot 0x6A w rvwtBody s
/-- RVWT_COMPLETE (R246): a waiting RVWT returns completed or interrupted. -/
def execRvwtComplete (who : SeqId) (s : State) : Outcome := .next (s.resumeWait who .rvwt fun _ _ => rvwtBody)

/-- RENDEZVOUS_WAIT_LIMIT (R246): 0x185 after 16,777,216 cycles in which neither outcome has occurred, with the point in
DETAIL. -/
def execRendezvousWaitLimit (who : SeqId) (s : State) : Outcome :=
  match (s.seq who).wait with
  | some p =>
    if Config.rendezvousLimit ≤ s.cycle - p.since && s.stillWaits who .rvwt fun _ _ => rvwtBody then
      .next (s.raiseWait who p 0x185 0 (BitVec.ofNat 16 p.w.b.toNat))
    else .next s
  | none => .next s

/-! ### Windows and draining (R233, R237) -/

def Core.window (k : Core) (n : Nat) : Window := k.windows[n % 16]'(Nat.mod_lt _ (by decide))
def Core.setWindow (k : Core) (n : Nat) (x : Window) : Core :=
  { k with windows := k.windows.set (n % 16) x (Nat.mod_lt _ (by decide)) }

/-- The cores of a cluster. -/
def coresOf (cluster : Nat) : List Nat := (List.range 4).map fun i => 4 * cluster + i

/-- The address of the control word that a waiting queue operation uses. -/
def Wait.queueAddr (p : Wait) : Nat := (if p.op = 0x2C then p.opB.setWidth 64 else p.opA.setWidth 64 : Word).toNat

/-- Is an access through a core's window in flight (R237): a copy or multicast side, a weight load's source, a waiting
queue operation? -/
def State.inFlight (s : State) (core win : Nat) : Bool :=
  let own := s.core core
  (own.loads.any fun l => l.aSpace && l.src.toNat / binSize = win && l.place / binSize = (own.window win).bin.val)
  || ((coresOf (clusterOf core)).any fun c =>
    ([0, 1] : List (Fin 2)).any fun g =>
      let w : SeqId := ⟨Fin.ofNat 512 c, g⟩
      let q := s.seq w
      (q.channels.toList.any fun ch =>
        match ch.transfer with
        | some t => ch.busy &&
            ((c = core && t.srcA && t.src.toNat / binSize = win)
              || (t.cores.contains core && t.dst.toNat / binSize = win))
        | none => false)
      || (c = core && match q.wait with
        | some p => p.kind = .queue && p.queueAddr / binSize = win
        | none => false))

/-- Is a bin shared into another window of the cluster? -/
def State.hasSharers (s : State) (cluster : Nat) (bin : Fin 64) : Bool :=
  (coresOf cluster).any fun c => (s.core c).windows.toList.any fun e => e.att && e.shr && e.bin = bin

def Cluster.setBin (k : Cluster) (b : Fin 64) (st : BinState) : Cluster :=
  { k with bins := k.bins.set b { k.bins[b] with state := st } }

/-- Does the slot already wait, its reservation made? -/
def resuming (w : SeqId) : M Bool := do return (← getSeq w).wait.isSome

/-! ### GIVE (R238, R239) -/

/-- Bits of the give word that are no field. -/
def giveReserved (g : Word) : Bool :=
  field g 63 29 ≠ 0 || field g 23 20 ≠ 0 || field g 15 10 ≠ 0 || field g 7 4 ≠ 0

def teamSize (w : SeqId) : M Nat := do
  match (← getSeq w).task with
  | some t => return t.size
  | none => return 1

/-- The wider of two scopes for the accesses before a slot. -/
def scopeMax (a b : Scope) : Scope := a.max b

/-- The reservation step. -/
def giveReserve (o : Operands) (g : Word) : M Unit := do
  let rv := field g 28 24
  let rank := field g 9 8
  raiseIf (giveReserved g || (23 < rv && rv ≠ 31)) 0x0A1
  raiseIf ((← teamSize o.who) ≤ rank) 0x0A2
  raiseEarlier o.who (scopeMax .cluster o.scope)
  let s ← get
  let e := (s.core o.who.core).window (field g 3 0)
  raiseIf (!e.att) 0x081
  raiseIf (e.shr || e.drn || s.hasSharers o.cluster e.bin) 0x0A3
  let rc := s.rankCore o.who rank
  let r := (s.core rc).window (field g 19 16)
  raiseIf (r.att || r.inc) 0x0A0
  modCore rc fun k => k.setWindow (field g 19 16) { r with inc := true }
  modCore o.who.core fun k => k.setWindow (field g 3 0) { k.window (field g 3 0) with drn := true }

/-- The sequencer of a core that runs a sequencer's task, whose time the move raises (R330). -/
def raiseReceiver (w : SeqId) (rc : Nat) (time : Nat) : M Unit := do
  let s ← get
  match (s.seq w).task with
  | none => pure ()
  | some t =>
    for g in ([0, 1] : List (Fin 2)) do
      let r : SeqId := ⟨Fin.ofNat 512 rc, g⟩
      match (s.seq r).task with
      | some u =>
        if u.die = t.die && u.serial = t.serial then modSeq r fun q => { q with time := max q.time time }
      | none => pure ()

/-- The move step and the arrival. -/
def giveMove (o : Operands) (g : Word) : M Unit := do
  let s ← get
  let rc := s.rankCore o.who (field g 9 8)
  let win := field g 19 16
  let bin := ((s.core o.who.core).window (field g 3 0)).bin
  modCore rc fun k => k.setWindow win { att := true, bin := bin }
  modCore o.who.core fun k => k.setWindow (field g 3 0) {}
  modCluster o.cluster fun k => k.setBin bin (.owned (Fin.ofNat 512 rc) (Fin.ofNat 16 win))
  let t := (← getSeq o.who).time
  raiseReceiver o.who rc t
  let rv := field g 28 24
  if rv ≠ 31 then arriveAt o.who rv 1 binSize t

def giveBody (o : Operands) : M Result := do
  let g := o.xa
  if !(← resuming o.who) then giveReserve o g
  if (← get).inFlight o.who.core (field g 3 0) then waitFor .drain
  giveMove o g
  return {}

/-- GIVE (R239). -/
def execGive (w : Slot) (s : State) : Outcome := runSlot 0x6B w giveBody s

/-- A GIVE of a core that leaves service waits with its reservation made: it completes (R239). -/
def State.completeGive (s : State) (w : SeqId) : State :=
  match (s.seq w).wait with
  | some p =>
    match p.kind = .drain && p.op = 0x6B, form p.op p.w (s.seq w).waitLit.isSome with
    | true, some fm => ((giveMove (waitOperands s w p fm (s.seq w).waitLit) (p.opA.setWidth 64)).on s).2
    | _, _ => s
  | none => s

/-! ### BMAP (R235, R236) -/

def windowOf (o : Operands) : Nat := o.slot.b.toNat

/-- The entry of the window, as D receives it. -/
def bmapResult (o : Operands) : M Result := do
  return Result.ofX ((← getCore o.who.core).window (windowOf o)).word

/-- Bins that reservations still need: as they become FREE, they are held (R279). -/
def Cluster.owed (k : Cluster) : Nat :=
  k.claims.foldl (fun n c => n + (c.2 - (k.held.filter fun h => h.1 = c.1).length)) 0

/-- FREE bins that no reservation holds and that are not marked for retirement, lowest first (R235; that a marked one is passed
over is log entry 68). -/
def Cluster.freeList (k : Cluster) : List (Fin 64) :=
  (List.finRange 64).filter fun b => k.bins[b].state == .free && !k.bins[b].marked && !(k.held.any fun h => h.2 = b)

/-- The lowest-numbered FREE bin that is left beside those that reservations take (R235, R279). -/
def Cluster.lowestFree (k : Cluster) : Option (Fin 64) := (k.freeList.drop k.owed).head?

def checkOccupied (o : Operands) : M Unit := do
  let e := (← getCore o.who.core).window (windowOf o)
  raiseIf (e.att || e.inc) 0x0A0

def bmapAllocBin (clear : Bool) (o : Operands) : M Result := do
  checkOccupied o
  let k ← getCluster o.cluster
  match k.lowestFree with
  | none => raise 0x0A4
  | some b =>
    modCluster o.cluster fun k =>
      let k := k.setBin b (.owned o.who.core (Fin.ofNat 16 (windowOf o)))
      if clear then
        { k with mem := clearBytes k.mem (b.val * binSize) binSize,
                 poison := k.poison.filter fun u => u / 16384 ≠ b.val }
      else k
    modCore o.who.core fun k => k.setWindow (windowOf o) { att := true, bin := b }
    bmapResult o

def bmapAllocBody : Operands → M Result := bmapAllocBin false
def bmapAlloczBody : Operands → M Result := bmapAllocBin true

def bmapFreeBody (o : Operands) : M Result := do
  let s ← get
  let e := (s.core o.who.core).window (windowOf o)
  if !(← resuming o.who) then
    raiseIf (!e.att && !e.inc) 0x081
    raiseIf (e.inc || e.drn) 0x0A0
    raiseIf (!e.shr && s.hasSharers o.cluster e.bin) 0x0A3
    modCore o.who.core fun k => k.setWindow (windowOf o) { e with drn := true }
  if (← get).inFlight o.who.core (windowOf o) then waitFor .drain
  if !e.shr then modCluster o.cluster fun k => k.setBin e.bin .free
  modCore o.who.core fun k => k.setWindow (windowOf o) {}
  bmapResult o

def bmapShareBody (o : Operands) : M Result := do
  checkOccupied o
  let w := o.xa
  raiseIf (field w 63 12 ≠ 0 || field w 7 2 ≠ 0) 0x0A1
  let rank := field w 1 0
  raiseIf ((← teamSize o.who) ≤ rank) 0x0A2
  let s ← get
  let e := (s.core (s.rankCore o.who rank)).window (field w 11 8)
  raiseIf (!e.att || e.shr || e.drn) 0x0A3
  modCore o.who.core fun k => k.setWindow (windowOf o) { att := true, shr := true, bin := e.bin }
  bmapResult o

/-- bmap.alloc (R235). -/
def execBmapAlloc (w : Slot) (s : State) : Outcome := runSlot 0x6C w bmapAllocBody s
/-- bmap.allocz (R235). -/
def execBmapAllocz (w : Slot) (s : State) : Outcome := runSlot 0x6C w bmapAlloczBody s
/-- bmap.free (R235, R237). -/
def execBmapFree (w : Slot) (s : State) : Outcome := runSlot 0x6C w bmapFreeBody s
/-- bmap.share (R235). -/
def execBmapShare (w : Slot) (s : State) : Outcome := runSlot 0x6C w bmapShareBody s
/-- bmap.rd (R235). -/
def execBmapRd (w : Slot) (s : State) : Outcome := runSlot 0x6C w bmapResult s

/-- DRAIN_COMPLETE (R237): no access through the window is in flight any more; the move or the detach is performed. -/
def execDrainComplete (who : SeqId) (s : State) : Outcome :=
  .next (s.resumeWait who .drain fun op _ => if op = 0x6B then giveBody else bmapFreeBody)

end Sys2Proof.Machine
end

