-- ==== Sys2Proof/Machine/Copy.lean ====
section
/-! DEFINITION. The K engine: copy channels, MCST, GET, PUT, WPTR and KSYN (spec 08 R195 to R203). -/

namespace Sys2Proof.Machine

/-! ### The transfer control word (R196) -/

def tcLen (t : Word) : Nat := field t 23 0
def tcDmask (t : Word) : Nat := field t 27 24
def tcRv (t : Word) : Nat := field t 36 32
def tcSplit (t : Word) : Bool := t.getLsbD 40

/-- A word that breaks a row for all slots. -/
def tcBad (t : Word) : Bool :=
  field t 63 41 ≠ 0 || field t 39 37 ≠ 0 || field t 31 28 ≠ 0 || (23 < tcRv t && tcRv t ≠ 31)

/-- A word for COPY. -/
def tcBadCopy (t : Word) : Bool := tcBad t || tcDmask t ≠ 0 || tcSplit t
/-- A word for MCST in a team of a size. -/
def tcBadMcst (t : Word) (size : Nat) : Bool :=
  tcBad t || (tcLen t ≠ 0 && tcDmask t = 0) || (tcSplit t && 23 < tcRv t + size - 1)
/-- A word for GET and PUT. -/
def tcBadMove (t : Word) : Bool := tcBadCopy t || 4096 < tcLen t || tcRv t ≠ 31

/-! ### Channels (R195, R197) -/

def Seq.channel (q : Seq) (c : Fin 4) : Channel := q.channels[c]
def Seq.setChannel (q : Seq) (c : Fin 4) (x : Channel) : Seq := { q with channels := q.channels.set c x }

/-- The die and serial number of the task a sequencer runs. -/
def Seq.teamKey (q : Seq) : Option (Fin 4 × Nat) := q.task.map fun t => (t.die, t.serial)

def channelOf (o : Operands) : Fin 4 := Fin.ofNat 4 o.f

/-- A failure that is not reported is raised, and a busy channel is waited for (R197). -/
def claimChannel (w : SeqId) (c : Fin 4) : M Unit := do
  let ch := (← getSeq w).channel c
  if ch.failed && !ch.reported then
    modSeq w fun q => q.setChannel c { ch with reported := true }
    raise 0x141 0 (BitVec.ofNat 16 c.val)
  if ch.busy then throw .busy

/-- The channel takes a transfer; one of no bytes ends at once (R197, R330). -/
def takeTransfer (w : SeqId) (c : Fin 4) (kind : BitVec 2) (t : Transfer) : M Unit := do
  let s ← get
  modSeq w fun q => q.setChannel c
    { ptr := t.dst, kind := kind, busy := t.len ≠ 0, stamp := if t.len = 0 then s.stamp else 0,
      transfer := if t.len = 0 then none else some t, scope := t.scope, time := q.time }

/-- An A-space side at acceptance (R114, R197). -/
def checkSide (core : Nat) (addr : Word) (len : Nat) : M Unit := do
  let _ ← aCheck core addr.toNat len

def checkDests (addr : Word) (len : Nat) : List Nat → M Unit
  | [] => return ()
  | c :: t => do
    checkSide c addr len
    checkDests addr len t

def copyBody (o : Operands) : M Result := do
  let tc := o.xd
  raiseIf (tcBadCopy tc) 0x142
  let t : Transfer := { src := o.xa, dst := o.xb, len := tcLen tc, srcA := o.slot.f.getLsbD 2, dstA := o.slot.f.getLsbD 3,
                        rv := tcRv tc, split := false, dests := [], mcst := false, scope := o.scope,
                        cores := if o.slot.f.getLsbD 3 then [o.who.core.val] else [], team := (← getSeq o.who).teamKey }
  if t.srcA then checkSide o.who.core t.src t.len
  if t.dstA then checkSide o.who.core t.dst t.len
  claimChannel o.who (channelOf o)
  takeTransfer o.who (channelOf o) 1 t
  return {}

/-- COPY (R197). -/
def execCopy (w : Slot) (s : State) : Outcome := runSlot 0x60 w copyBody s

/-- The ranks of a DMASK. -/
def ranksOf (mask : Nat) : List Nat := (List.range 4).filter fun i => mask / 2 ^ i % 2 = 1

def mcstBody (o : Operands) : M Result := do
  let tc := o.xd
  let size ← teamSize o.who
  raiseIf (tcBadMcst tc size) 0x142
  raiseIf (2 ^ size ≤ tcDmask tc) 0x145
  let t : Transfer := { src := o.xa, dst := o.xb, len := tcLen tc, srcA := o.slot.f.getLsbD 2, dstA := true,
                        rv := tcRv tc, split := tcSplit tc, dests := ranksOf (tcDmask tc), mcst := true, scope := o.scope,
                        cores := (ranksOf (tcDmask tc)).map ((← get).rankCore o.who), team := (← getSeq o.who).teamKey }
  if t.srcA then checkSide o.who.core t.src t.len
  checkDests t.dst t.len t.cores
  claimChannel o.who (channelOf o)
  takeTransfer o.who (channelOf o) 2 t
  return {}

/-- MCST (R197). -/
def execMcst (w : Slot) (s : State) : Outcome := runSlot 0x61 w mcstBody s

/-! ### Delivery (R198, R199) -/

/-- Bytes of a transfer's source from an offset on: the reads have the scope of the transfer's bundle (R65). -/
def sourceBytes (w : SeqId) (c : Fin 4) (t : Transfer) (off n : Nat) : M (List Byte) := do
  if t.srcA then
    let p := (← getCore w.core).aPlace (t.src.toNat + off)
    aPoison w.core (t.src.toNat + off) p n
    binRead w.core p n
  else readGlobal (.channel w c) t.scope 1 ((t.src.toNat + off) % 2 ^ 64) n

/-- Bytes reach every destination at an offset (R228); a global one at core scope (R318). -/
def destWrite (w : SeqId) (c : Fin 4) (t : Transfer) (off : Nat) (l : List Byte) : M Unit := do
  if t.dstA then
    let s ← get
    let places := t.cores.map fun d => (s.core d).aPlace (t.dst.toNat + off)
    modCluster (clusterOf w.core) fun k => places.foldl (fun k p => k.binWrite p l) k
  else writeGlobal (.channel w c) .core 1 ((t.dst.toNat + off) % 2 ^ 64) l

/-- A global destination byte is checked as it is reached, before its source is read past it (R199). -/
def destCheck (w : SeqId) (c : Fin 4) (t : Transfer) (off n : Nat) : M Unit := do
  if !t.dstA then
    let _ ← checkSpans (.channel w c) .w false (lineSpans ((t.dst.toNat + off) % 2 ^ 64) n)

/-- Where the two sides of a transfer lie as byte numbers of one space, for their overlap; none when they cannot. -/
def sidesOf (s : State) (w : SeqId) (t : Transfer) : List (Nat × Nat) :=
  match t.srcA, t.dstA with
  | false, false => [(t.src.toNat, t.dst.toNat)]
  | true, true =>
    t.cores.map fun d => ((s.core w.core).aPlace t.src.toNat, (s.core d).aPlace t.dst.toNat)
  | _, _ => []

/-- The next piece of a transfer: 256 bytes of an MCST, which are written whole (R228), else bytes within one line of both
sides. -/
def pieceLen (t : Transfer) (off left : Nat) : Nat :=
  let toLine (a : Nat) : Nat := 128 - (a + off) % 128
  if t.mcst then min left (256 - off % 256) else min left (min (toLine t.src.toNat) (toLine t.dst.toNat))

/-- The bytes of a piece as a byte-by-byte ascending copy delivers them: a source byte that the piece itself has written by
then is the byte it wrote there (R198). -/
def ascending (sides : List (Nat × Nat)) (l : List Byte) : List Byte :=
  l.foldl (fun acc b =>
    match sides.find? fun p => p.1 < p.2 && p.2 ≤ p.1 + acc.length with
    | some p => acc ++ [acc.getD (p.1 + acc.length - p.2) b]
    | none => acc ++ [b]) []

/-- Deliver bytes of a transfer from an offset on, piece by piece; the pointer follows. The fuel is the byte count. -/
def deliverBytes (w : SeqId) (c : Fin 4) (t : Transfer) : Nat → Nat → Nat → M Unit
  | 0, _, _ => return ()
  | fuel + 1, off, left => do
    if left = 0 then return ()
    let n := max 1 (pieceLen t off left)
    let l ← sourceBytes w c t off n
    destCheck w c t off n
    destWrite w c t off (ascending (sidesOf (← get) w t) l)
    modSeq w fun q => q.setChannel c
      { q.channel c with ptr := t.dst + BitVec.ofNat 64 (off + n), done := BitVec.ofNat 24 (off + n),
                         transfer := some { t with sent := none } }
    deliverBytes w c t fuel (off + n) (left - n)

/-- The arrivals that end a transfer (R198, R243): its bytes are performed at cluster scope first. -/
def transferArrivals (w : SeqId) (c : Fin 4) (t : Transfer) : M Unit := do
  if t.rv ≠ 31 then
    modify fun s => s.passAll w.core
    let time := ((← getSeq w).channel c).time
    match t.team with
    | none => pure ()
    | some (die, serial) =>
      let arrive := arriveTeam (clusterOf w.core) die serial
      if t.split then
        for r in t.dests do arrive (t.rv + r) 1 t.len time
      else arrive t.rv 1 (t.len * (if t.mcst then t.dests.length else 1)) time

/-- How the rest of a transfer goes from a state on; a stop keeps what was delivered before it. -/
inductive Delivery where
  | idle
  | blocked (s : State)
  /-- a request has no response -/
  | unanswered (s : State) (kind : WaitKind)
  | complete (s : State)
  | fails (s : State) (code : Cause)
deriving DecidableEq, Repr

/-- Deliver the rest of a channel's transfer. -/
def State.runTransfer (s : State) (w : SeqId) (c : Fin 4) : Delivery :=
  let ch := (s.seq w).channel c
  match ch.busy, ch.transfer with
  | true, some t =>
    let left := t.len - ch.done.toNat
    match (deliverBytes w c t (left + 1) ch.done.toNat left).on s with
    | (.ok _, s') => .complete s'
    | (.error (.cause code _ _), s') => .fails s' code
    | (.error (.wait kind _), s') => .unanswered s' kind
    | (.error _, s') => .blocked s'
  | _, _ => .idle

/-- The channel is idle again, its stamp set (R195). -/
def State.endTransfer (s : State) (w : SeqId) (c : Fin 4) (failed : Bool) (code : Cause) : State :=
  let q := s.seq w
  s.setSeq w (q.setChannel c { q.channel c with busy := false, transfer := none, stamp := s.stamp, failed := failed,
                                                reported := false, cause := code })

/-- COPY_TRANSFER_COMPLETE (R198): the last byte is delivered, the arrivals are made, BUSY clears. -/
def execCopyTransferComplete (who : SeqId) (channel : Fin 4) (s : State) : Outcome :=
  match (s.seq who).channel channel |>.transfer, s.runTransfer who channel with
  | some t, .complete s' =>
    match (transferArrivals who channel t).on s' with
    | (.ok _, s'') => .next (s''.endTransfer who channel false 0)
    | (.error _, _) => .next s
  | _, .blocked s' => .next s'
  | _, _ => .next s

/-- Suspect bytes at and above the pointer: each is its old value or the copied one, as free values say (R199). -/
def suspectBytes (w : SeqId) (c : Fin 4) (t : Transfer) (draw : Nat) : List Nat → M Unit
  | [] => return ()
  | i :: rest => do
    if Config.suspectCopied draw i then
      let _ ← attempt do
        let l ← sourceBytes w c t i 1
        destCheck w c t i 1
        destWrite w c t i l
    suspectBytes w c t draw rest

/-- A transfer fails: its suspect bytes, and the channel's end (R199). -/
def State.failTransfer (s : State) (w : SeqId) (c : Fin 4) (t : Transfer) (code : Cause) : State :=
  let done := ((s.seq w).channel c).done.toNat
  let s' := ((suspectBytes w c t s.free ((List.range (t.len - done)).map (done + ·))).on { s with free := s.free + 1 }).2
  s'.endTransfer w c true code

/-- COPY_TRANSFER_FAILURE (R199): the transfer stops at a fault or a poisoned line, and at a request that has no response to
its second send (R348, R411). -/
def execCopyTransferFailure (who : SeqId) (channel : Fin 4) (s : State) : Outcome :=
  match s.runTransfer who channel with
  | .fails s' code =>
    match ((s'.seq who).channel channel).transfer with
    | some t => .next (s'.failTransfer who channel t code)
    | none => .next s
  | .unanswered s' kind =>
    match ((s'.seq who).channel channel).transfer with
    | some t =>
      match askAgain t.sent kind s'.cycle with
      | some r => .next (s'.setSeq who ((s'.seq who).setChannel channel
          { (s'.seq who).channel channel with transfer := some { t with sent := some r } }))
      | none => .next (s'.failTransfer who channel t (BitVec.ofNat 10 (responseCause kind)))
    | none => .next s
  | .blocked s' => .next s'
  | _ => .next s

/-- A busy channel delivers up to a number of bytes, never the last one (R198), and of an MCST whole pieces (R228). -/
def State.deliverSome (s : State) (w : SeqId) (c : Fin 4) (n : Nat) : State :=
  let ch := (s.seq w).channel c
  match ch.busy, ch.transfer with
  | true, some t =>
    let n := min n (t.len - ch.done.toNat - 1)
    let n := if t.mcst then (ch.done.toNat + n) / 256 * 256 - ch.done.toNat else n
    ((deliverBytes w c t (n + 1) ch.done.toNat n).on s).2
  | _, _ => s

/-! ### GET and PUT (R203) -/

/-- Run a computation as one whole: where it has to try again, nothing of it has happened. -/
def whole {α : Type} (m : M α) : M α := do
  let s ← get
  match m.on s with
  | (.ok a, s') => set s'; return a
  | (.error .stall, _) => stall
  | (.error .hazard, _) => hazard
  | (.error e, s') => set s'; throw e

def getBody (o : Operands) : M Result := do
  let tc := o.xd
  raiseIf (tcBadMove tc) 0x142
  let n := tcLen tc
  let p ← aCheck o.who.core o.xb.toNat n
  awaitBin o.who.core true p n
  checkPages o.who .r o.xa.toNat n
  let l ← readGlobal (.seq o.who) o.scope 0 o.xa.toNat n
  binWrite o.who.core p l
  return {}

/-- GET (R203). -/
def execGet (w : Slot) (s : State) : Outcome := runSlot 0x62 w getBody s

/-- The signal add of PUT at its home slice. -/
def putSignal (o : Operands) : M Unit := do
  let a := o.xd1
  let h ← homeWord o .w .atomic a 8
  let sc := homeScope o.scope
  modify fun s => s.homeLease (.seq o.who) sc h 0
  let old := fromLe ((← get).homeBytes h 8)
  modify fun s => s.homeWrite (.seq o.who) sc h (leBytes 8 (old + 1)) 0
  modCluster o.cluster fun k => k.dropCopy (a.toNat / 128)

def putBody (o : Operands) : M Result := do
  let tc := o.xd
  raiseIf (tcBadMove tc) 0x142
  let n := tcLen tc
  let p ← aCheck o.who.core o.xa.toNat n
  awaitBin o.who.core false p n
  checkPages o.who .w o.xb.toNat n
  if o.xd1 ≠ 0 then
    let h ← homeWord o .w .atomic o.xd1 8
    checkPoison (.seq o.who) o.xd1.toNat h
  aPoison o.who.core o.xa.toNat p n
  let l ← binRead o.who.core p n
  let ps ← checkSpans (.seq o.who) .w false (lineSpans o.xb.toNat n)
  checkBlocked (.seq o.who) o.scope ps
  whole do
    writeAll (.seq o.who) o.scope 0 ps l
    if o.xd1 ≠ 0 then putSignal o
  return {}

/-- PUT (R203). -/
def execPut (w : Slot) (s : State) : Outcome := runSlot 0x63 w putBody s

/-! ### WPTR and KSYN (R200 to R202) -/

/-- The status word (R195). -/
def Channel.status (c : Channel) : Word :=
  place 16 c.done.toNat + place 14 (bit c.reported) + place 13 (bit c.failed) + place 12 (bit c.busy)
    + place 10 c.kind.toNat + place 0 c.cause.toNat

def wptrPBody (o : Operands) : M Result := do return Result.ofX ((← getSeq o.who).channel (channelOf o)).ptr

def wptrSBody (o : Operands) : M Result := do
  let ch := (← getSeq o.who).channel (channelOf o)
  if ch.failed then modSeq o.who fun q => q.setChannel (channelOf o) { ch with reported := true }
  return Result.ofX ch.status

def wptrTBody (o : Operands) : M Result := do return Result.ofX ((← getSeq o.who).channel (channelOf o)).stamp

/-- wptr.p (R200). -/
def execWptrP (w : Slot) (s : State) : Outcome := runSlot 0x65 w wptrPBody s
/-- wptr.s (R200, R201). -/
def execWptrS (w : Slot) (s : State) : Outcome := runSlot 0x65 w wptrSBody s
/-- wptr.t (R200). -/
def execWptrT (w : Slot) (s : State) : Outcome := runSlot 0x65 w wptrTBody s

/-- The channels that KSYN's mask names. -/
def maskChannels (mask : Nat) : List (Fin 4) := (List.finRange 4).filter fun c => mask.testBit c.val

/-- Is work that KSYN waits for still going on? -/
def State.ksynBusy (s : State) (w : SeqId) (f : Nat) : Bool :=
  let q := s.seq w
  ((maskChannels f).any fun c => (q.channel c).busy)
  || (f.testBit 4 && (s.core w.core).loads.any fun l => l.who = w)

/-- Deliveries of the named channels are performed at the wider of the transfer's and the KSYN's scope, and the issuer's
time covers theirs (R202, R322, R330). -/
def raiseDeliveries (o : Operands) : List (Fin 4) → M Unit
  | [] => return ()
  | c :: t => do
    raiseEarlier o.who (scopeMax ((← getSeq o.who).channel c).scope o.scope)
    modSeq o.who fun q => { q with time := max q.time (q.channel c).time }
    raiseDeliveries o t

def ksynBody (o : Operands) : M Result := do
  if (← get).ksynBusy o.who o.f then waitFor .ksyn
  raiseDeliveries o (maskChannels o.f)
  match (← getSeq o.who).unreported (o.f % 16) with
  | some c =>
    modSeq o.who fun q => q.report c
    raise 0x141 0 (BitVec.ofNat 16 c.val)
  | none => return {}

/-- KSYN (R202). -/
def execKsyn (w : Slot) (s : State) : Outcome := runSlot 0x66 w ksynBody s
/-- KSYN_COMPLETE (R202): what a waiting KSYN waits for has ended. -/
def execKsynComplete (who : SeqId) (s : State) : Outcome := .next (s.resumeWait who .ksyn fun _ _ => ksynBody)

end Sys2Proof.Machine
end

