-- ==== Sys2Proof/Machine/Submit.lean ====
section
/-! DEFINITION. Entering work: task records, job cards, regions and their checks, edges, JOB and TASK (spec 13 R267 to R277,
spec 08 R204, spec 11 R253, spec 17 R356, spec 18 R371 to R380, spec 20 R413). -/

namespace Sys2Proof.Machine

/-! ### Regions (R270) -/

/-- An inline region word; none when it breaks its form. -/
def regionOf (w : Word) : Option Region :=
  let lg := field w 63 58
  let kind := field w 57 56
  let base := field w 55 0 * 256
  if lg < 8 || 50 < lg || kind = 0 || base % 2 ^ lg ≠ 0 || 2 ^ 50 < base % 2 ^ 50 + 2 ^ lg then none
  else some { base := base, size := 2 ^ lg, rd := kind % 2 = 1, wr := decide (2 ≤ kind) }

/-- A list entry; none when it breaks its form. A reserved bit of it is a reserved bit of the record. -/
def listRegion (w0 w1 : Word) : Option Region :=
  let kind := field w1 63 62
  let extent := field w1 39 0
  if kind = 0 || field w1 61 40 ≠ 0 || extent = 0 || 2 ^ 50 < w0.toNat % 2 ^ 50 + extent then none
  else some { base := w0.toNat, size := extent, rd := kind % 2 = 1, wr := decide (2 ≤ kind) }

/-- The members of a list, or none when one is missing. -/
def allSome {α : Type} : List (Option α) → Option (List α)
  | [] => some []
  | none :: _ => none
  | some a :: t => (allSome t).map fun l => a :: l

/-- Two regions conflict when they share a byte and one of them is written (R275). -/
def Region.conflicts (a b : Region) : Bool :=
  (a.wr || b.wr) && decide (a.base < b.base + b.size) && decide (b.base < a.base + a.size)

/-- Do regions hold every byte from lo up to hi? -/
def coversTo : Nat → List Region → Nat → Nat → Bool
  | 0, _, lo, hi => decide (hi ≤ lo)
  | fuel + 1, rs, lo, hi =>
    if hi ≤ lo then true
    else
      let far := rs.foldl (fun m r => if r.base ≤ lo && lo < r.base + r.size then max m (r.base + r.size) else m) lo
      if far ≤ lo then false else coversTo fuel rs far hi

/-- Do read regions, or write regions, hold every byte of a range? -/
def readCovered (rs : List Region) (base n : Nat) : Bool :=
  coversTo 65 (rs.filter fun r => r.rd) base (base + n)
def writeCovered (rs : List Region) (base n : Nat) : Bool :=
  coversTo 65 (rs.filter fun r => r.wr) base (base + n)

/-! ### Entries (R267, R275) -/

/-- Is a task ready and not issued: all its predecessors gone, itself not running (R276, R278, R282)? -/
def Entry.ready (e : Entry) : Bool :=
  e.card.isNone && !e.cancelled && e.preds.isEmpty && match e.status with
    | .waiting => true
    | .placed _ => true
    | .saved _ _ => true
    | _ => false

/-- A graph's ready, unissued tasks, lowest serial number first. -/
def Die.readyOf (d : Die) (g : Nat) : List Entry := d.table.filter fun e => e.graph == g && e.ready

/-- The aging clock starts when the graph comes to hold a ready, unissued task; a graph with none has none (R278). -/
def Graph.refresh (x : Graph) (now : Nat) (holds : Bool) : Graph :=
  if !holds then {}
  else if x.stopped || x.clock.isSome then x
  else { x with raised := 0, clock := some now }

def Die.graph (d : Die) (g : Nat) : Graph := tabGet {} g d.graphs
def Die.setGraph (d : Die) (g : Nat) (x : Graph) : Die := { d with graphs := tabPut g x d.graphs }

def kindCopy : BitVec 8 := 0x01
def kindCollective : BitVec 8 := 0x02
def kindBankmac : BitVec 8 := 0x10
def kindAttn : BitVec 8 := 0x11
def kindRowzero : BitVec 8 := 0x12
def kindRowcopy : BitVec 8 := 0x13
def kindMigration : BitVec 8 := 0x20

/-- A card that has not issued and whose predecessors are gone (R276). -/
def Entry.cardReady (e : Entry) : Bool :=
  e.card.isSome && !e.cancelled && e.preds.isEmpty && match e.status with
    | .waiting => true
    | _ => false

/-- A card whose engine is retired ends at issue (R273). -/
def engineGone (now : Word) : EndInfo :=
  { state := 2, cause := 0x150, unit := 1, wmark := 0, pstatus := 0, whereC := 0, stamp := now }

/-- A ready collective card issues, and then waits for its group (R414); one whose engine is retired ends. The unit's
T covers the scheduler time (R330). Nothing issues
during a checkpoint or after a thermal stop (R399, R400). -/
def Die.issueCollectives (d : Die) (now : Word) (stopped : Bool) : Die :=
  let due (e : Entry) : Bool := e.cardReady && e.card = some kindCollective
  if d.paused || stopped || !d.table.any due then d
  else
    let n := CardUnit.number .collective
    { d with unitTimes := tabPut n (max (tabGet 0 n d.unitTimes) d.schedTime) d.unitTimes,
             table := d.table.map fun e =>
              if due e then
                if d.retiredEngines.contains kindCollective then { e with start := now, status := .ended (engineGone now) }
                else { e with start := now, since := now, status := .issued }
              else e }

/-- What follows every change of the table: clocks of the graphs, and collective cards that have become ready. -/
def Die.refresh (d : Die) (now : Word) (stopped : Bool) : Die :=
  let d := d.issueCollectives now stopped
  (List.range 64).foldl (fun d g =>
    let x := d.graph g
    let y := x.refresh now.toNat (!(d.readyOf g).isEmpty)
    if y = x then d else d.setGraph g y) d

/-- A new entry takes the die's next serial number and an edge from every conflicting entry of its graph still in the
table; its graph is the one that last received room (R268). -/
def Die.enter (d : Die) (e : Entry) (now : Word) (stopped : Bool) : Die :=
  let hits (y : Entry) : Bool := y.graph == e.graph && e.regions.any fun r => y.regions.any fun q => r.conflicts q
  let e := { e with serial := d.nextSerial, preds := (d.table.filter hits).map Entry.serial }
  ({ d with table := d.table ++ [e], nextSerial := d.nextSerial + 1, roomLast := e.graph } : Die).refresh now stopped

/-- Has the table room (R268)? -/
def Die.hasRoom (d : Die) : Bool := d.table.length < Config.tableEntries

/-! ### Claims to room (R268) -/

def HostPort.queue (h : HostPort) (q : Fin 64) : HostQueue := h.queues[q]
def HostPort.setQueue (h : HostPort) (q : Fin 64) (x : HostQueue) : HostPort := { h with queues := h.queues.set q x }
def State.modQueue (s : State) (q : Fin 64) (f : HostQueue → HostQueue) : State :=
  { s with host := s.host.setQueue q (f (s.host.queue q)) }

/-- Has a queue a notified entry that has not been read, now that the queues are open (R393)? -/
def State.unread (s : State) (q : Fin 64) : Bool :=
  let x := s.host.queue q
  s.host.bootState == 4 && x.en && x.head != x.tail

/-- The die a queue feeds. -/
def State.fedDie (s : State) (q : Fin 64) : Nat := (s.host.queue q).die.toNat

/-- Has a graph's host queue a claim: a notified entry that has not been read, its graph not stopped (R281), no checkpoint of
another queue in progress (R399)? -/
def State.hostClaim (s : State) (die g : Nat) : Bool :=
  let q : Fin 64 := Fin.ofNat 64 g
  s.unread q && s.fedDie q == die && !((s.die die).graph g).stopped
    && (s.sirxon.checkpoint.isNone || s.sirxon.checkpoint == some q)

/-- Has a graph a claim to freed room? -/
def State.claims (s : State) (die g : Nat) : Bool :=
  ((s.die die).roomQueue.any fun e => e.2.graph = g) || s.hostClaim die g

/-- May a graph take room without a grant: no submission waits before it, and there is room for one entry of every other graph
with a claim, so that no one's turn is taken (R268)? -/
def State.roomFor (s : State) (die g : Nat) : Bool :=
  let d := s.die die
  d.hasRoom && d.roomQueue.isEmpty
    && (((List.range 64).filter fun h => h != g && s.hostClaim die h).length < Config.tableEntries - d.table.length)

/-- An entry before it enters the table. -/
def freshEntry (graph : Nat) (card : Option (BitVec 8)) (body : List Byte) (task : TaskRec) (prio compl : Nat)
    (regions : List Region) : Entry :=
  { serial := 0, graph := graph, card := card, body := body, task := task, prio := prio, compl := compl,
    regions := regions, preds := [], cancelled := false, status := .waiting, start := 0, since := 0, halted := [],
    failure := none, preempt := false, stopped := [], saved := [], passedAt := none, ranOn := none }

/-- The task fields of a card's entry. -/
def noTask : TaskRec := { handle := 0, args := 0, ctx := 0, long := false, team := 1 }

def wordAt (l : List Byte) (n : Nat) : Word := wordOf ((l.drop n).take 8)

/-! ### Task records (R269, R271) -/

/-- The kernel that a handle names (R301). An image whose load failed or whose unload has begun is no loaded image. -/
def Die.kernelOf (d : Die) (handle : BitVec 32) : Option Kernel :=
  let slot := tabGet ({} : ImageSlot) (field handle 23 12) d.images
  match slot.image with
  | some im =>
    if im.failed || im.unloading.isSome || slot.generation % 256 ≠ field handle 31 24 then none
    else im.kernels[field handle 11 0]?
  | none => none

/-- Reserved bits and alignments of a record. -/
def recordBad (r : List Byte) : Bool :=
  let w2 := wordAt r 0x10
  let nreg := field w2 2 0
  w2.getLsbD 3 || field w2 11 9 ≠ 0 || field (wordAt r 0x18) 5 0 ≠ 0 || nreg = 5 || nreg = 6
    || (nreg = 7 && (field (wordAt r 0x20) 3 0 ≠ 0 || wordAt r 0x28 = 0 || 64 < (wordAt r 0x28).toNat))

/-- The regions of a record, its list read as a computation says. -/
def recordRegions (read : Nat → Nat → M (List Byte)) (r : List Byte) : M (Option (List Region)) := do
  let nreg := field (wordAt r 0x10) 2 0
  if nreg = 7 then
    let n := (wordAt r 0x28).toNat
    let l ← read (wordAt r 0x20).toNat (16 * n)
    return allSome ((List.range n).map fun i => listRegion (wordAt l (16 * i)) (wordAt l (16 * i + 8)))
  else return allSome ((List.range nreg).map fun i => regionOf (wordAt r (0x20 + 8 * i)))

/-- Most live cores of a cluster of a die (R271). -/
def State.mostLive (s : State) (die : Nat) : Nat :=
  (List.range 32).foldl (fun m i => max m (s.liveCores (32 * die + i))) 0

/-- The checks of R271 in order; the answer is the entry for a graph. -/
def checkRecord (die graph : Nat) (read : Nat → Nat → M (List Byte)) (r : List Byte) : M Entry := do
  raiseIf (recordBad r) 0x201
  match ← recordRegions read r with
  | none => raise 0x201
  | some rs =>
    let s ← get
    let w2 := wordAt r 0x10
    let handle : BitVec 32 := (wordAt r 0).extractLsb' 32 32
    match (s.die die).kernelOf handle with
    | none => raise 0x201
    | some k =>
      let team := field w2 5 4 + 1
      raiseIf (field (wordAt r 0) 31 0 ≠ 0) 0x201
      raiseIf (team ≠ k.team || w2.getLsbD 8 ≠ k.long) 0x201
      raiseIf (s.mostLive die < team) 0x204
      let t : TaskRec := { handle := handle, args := wordAt r 8, ctx := w2 &&& ~~~0xFFF, long := w2.getLsbD 8, team := team }
      return freshEntry graph none [] t (field w2 7 6) (wordAt r 0x18).toNat rs

/-! ### Job cards (R272, R273) -/

/-- Is a VA homed on a die of this package (R1, R342)? -/
def State.homedOn (s : State) (die : Nat) (va : Nat) : Bool :=
  match placeOf s va with
  | .home d _ => d == die
  | _ => false

/-- Does a range of VAs lie on a die of this package, every byte of it? -/
def State.homedRange (s : State) (die va n : Nat) : Bool := s.homedOn die va && va % 2 ^ 50 + n ≤ 2 ^ 50

/-- Byte ranges are zero. -/
def zeroFrom (c : List Byte) (n : Nat) : Bool := (c.drop n).all fun b => b == 0

/-- A die copy card (R274). -/
def copyCardOk (c : List Byte) : Bool :=
  let len := (wordAt c 0x50).toNat
  len ≠ 0 && len ≤ 2 ^ 32 && zeroFrom c 0x58

/-- The VA of a column of a bank of a block (R370). -/
def columnVa (blk pcsel bank col : Nat) : Nat :=
  blk + bank * 0x20000 + pcsel / 32 * 0x10000 + col / 512 * 0x4000
    + (pcsel / 16 % 2 * 16 + pcsel % 16) * 0x200 + col % 512

/-- Columns col0 to col0 + n − 1 as runs that do not cross a multiple of 512. -/
def columnRuns (col0 n : Nat) : List (Nat × Nat) :=
  ((List.range 4).map fun q => (max col0 (512 * q), min (col0 + n) (512 * q + 512))).filter fun p => p.1 < p.2

def banksOf (mask : Nat) : List Nat := (List.range 16).filter fun b => mask.testBit b

/-- The fields of a BANKMAC card (R373). -/
structure BankMac where
  blk : Nat
  vec : Nat
  out : Nat
  banks : List Nat
  hold : Bool
  clr : Bool
  pcsel : Nat
  col0 : Nat
  nreg : Nat
  nacc : Nat

def BankMac.ofCard (c : List Byte) : BankMac :=
  let w := wordAt c 0x58
  { blk := (wordAt c 0x40).toNat, vec := (wordAt c 0x48).toNat, out := (wordAt c 0x50).toNat, banks := banksOf (field w 63 48),
    hold := w.getLsbD 41, clr := w.getLsbD 40, pcsel := field w 37 32, col0 := field w 26 16, nreg := field w 12 8,
    nacc := field w 6 0 }

/-- A BANKMAC card (R371, R373). -/
def bankmacCardOk (s : State) (die : Nat) (rs : List Region) (c : List Byte) : Bool :=
  let w := wordAt c 0x58
  let b := BankMac.ofCard c
  let n := 32 * b.nacc * b.nreg
  b.blk % 2 ^ 21 = 0 && b.vec % 32 = 0 && b.out % 4 = 0 && !b.banks.isEmpty
    && field w 47 42 = 0 && field w 39 38 = 0 && field w 31 27 = 0 && field w 15 13 = 0 && !w.getLsbD 7 && zeroFrom c 0x60
    && b.col0 % 32 = 0 && 1 ≤ b.nreg && b.nreg ≤ 16 && 1 ≤ b.nacc && b.nacc ≤ 64 && b.col0 + n ≤ 2048
    && s.homedOn die b.blk && s.homedRange die b.vec (32 * b.nreg) && s.homedRange die b.out (4 * b.nacc * b.banks.length)
    && (b.banks.all fun k => (columnRuns b.col0 n).all fun p => readCovered rs (columnVa b.blk b.pcsel k p.1) (p.2 - p.1))
    && readCovered rs b.vec (32 * b.nreg) && writeCovered rs b.out (4 * b.nacc * b.banks.length)

/-- The fields of an ATTN card (R377). -/
structure Attention where
  q : Nat
  bt : Nat
  out : Nat
  scale : BitVec 32
  nh : Nat
  pcsel : Nat
  ntok : Nat
  nblk : Nat

def Attention.ofCard (c : List Byte) : Attention :=
  let w := wordAt c 0x58
  { q := (wordAt c 0x40).toNat, bt := (wordAt c 0x48).toNat, out := (wordAt c 0x50).toNat, scale := w.extractLsb' 32 32,
    nh := field w 28 24, pcsel := field w 21 16, ntok := field w 15 0, nblk := field (wordAt c 0x60) 8 0 }

/-- Head dimension, and tokens per row. -/
def Attention.hd (a : Attention) : Nat := 16 * a.nh
def Attention.tpr (a : Attention) : Nat := 1024 / a.hd

/-- An ATTN card (R371, R377). -/
def attnCardOk (s : State) (die : Nat) (rs : List Region) (c : List Byte) : Bool :=
  let w := wordAt c 0x58
  let a := Attention.ofCard c
  a.q % 32 = 0 && a.bt % 8 = 0 && a.out % 4 = 0 && field w 31 29 = 0 && field w 23 22 = 0
    && field (wordAt c 0x60) 63 9 = 0 && zeroFrom c 0x68
    && 1 ≤ a.nh && a.nh ≤ 16 && 1 ≤ a.nblk && a.nblk ≤ 256
    && (a.nblk - 1) * a.tpr + 1 ≤ a.ntok && a.ntok ≤ a.nblk * a.tpr
    && s.homedRange die a.q (2 * a.hd) && s.homedRange die a.bt (8 * a.nblk) && s.homedRange die a.out (4 * a.hd + 8)
    && readCovered rs a.q (2 * a.hd) && readCovered rs a.bt (8 * a.nblk) && writeCovered rs a.out (4 * a.hd + 8)

/-- The fields of a row card (R380). -/
structure RowCard where
  dst : Nat
  src : Nat
  npages : Nat

def RowCard.ofCard (c : List Byte) : RowCard :=
  { dst := (wordAt c 0x40).toNat, src := (wordAt c 0x48).toNat, npages := field (wordAt c 0x50) 12 0 }

/-- A row card (R371, R380). -/
def rowCardOk (s : State) (die : Nat) (copies : Bool) (rs : List Region) (c : List Byte) : Bool :=
  let r := RowCard.ofCard c
  let n := 65536 * r.npages
  r.dst % 65536 = 0 && 1 ≤ r.npages && r.npages ≤ 4096 && field (wordAt c 0x50) 63 13 = 0 && zeroFrom c 0x58
    && s.homedRange die r.dst n && writeCovered rs r.dst n
    && (if copies then
          r.src % 65536 = 0 && s.homedRange die r.src n && readCovered rs r.src n && (r.src + n ≤ r.dst || r.dst + n ≤ r.src)
        else r.src = 0)

/-- The fields of a migration card (R356). -/
structure Migration where
  va : Nat
  op : Nat
  npages : Nat
  host : Nat

def Migration.ofCard (c : List Byte) : Migration :=
  let w := wordAt c 0x48
  { va := (wordAt c 0x40).toNat, op := field w 39 32, npages := field w 31 0, host := (wordAt c 0x50).toNat }

/-- A migration card (R356). -/
def migrationCardOk (s : State) (die : Nat) (rs : List Region) (c : List Byte) : Bool :=
  let m := Migration.ofCard c
  let n := 65536 * m.npages
  m.op ≤ 4 && m.va % 65536 = 0 && field (wordAt c 0x48) 63 40 = 0 && 1 ≤ m.npages && m.npages ≤ 16384 && zeroFrom c 0x58
    && (if m.op = 1 || m.op = 2 then m.host % 65536 = 0 && m.host / 2 ^ 50 = 0x3FFF else m.host = 0)
    && s.homedRange die m.va n
    && (match rs with
        | [r] => r.rd && !r.wr && r.base ≤ m.va && m.va + n ≤ r.base + r.size
        | _ => false)

/-- The fields of a collective card (R413). -/
structure Collective where
  src : Nat
  dst : Nat
  mlist : Nat
  len : Nat
  tag : Nat
  limit : Nat
  op : Nat
  members : Nat
  rank : Nat

def Collective.ofCard (c : List Byte) : Collective :=
  let w := wordAt c 0x58
  let v := wordAt c 0x60
  { src := (wordAt c 0x40).toNat, dst := (wordAt c 0x48).toNat, mlist := (wordAt c 0x50).toNat, len := field w 63 32,
    tag := field w 31 16, limit := field v 63 48, op := field v 39 32, members := field v 27 16 + 1, rank := field v 11 0 }

/-- What a collective card shows before its member list is read. -/
def collectiveCardOk (s : State) (die : Nat) (rs : List Region) (c : List Byte) : Bool :=
  let w := wordAt c 0x58
  let v := wordAt c 0x60
  let k := Collective.ofCard c
  k.src % 256 = 0 && k.dst % 256 = 0 && k.mlist % 8 = 0 && k.len % 256 = 0 && k.len ≠ 0 && field w 15 0 = 0
    && k.limit ≠ 0 && field v 47 40 = 0 && k.op ≤ 5 && field v 31 28 = 0 && 2 ≤ k.members && field v 15 12 = 0
    && zeroFrom c 0x68 && s.homedRange die k.src k.len && s.homedRange die k.dst k.len && s.homedRange die k.mlist (2 * k.members)
    && (k.src + k.len ≤ k.dst || k.dst + k.len ≤ k.src) && k.rank < k.members
    && readCovered rs k.src k.len && readCovered rs k.mlist (2 * k.members) && writeCovered rs k.dst k.len

/-- The member list's entries: package × 4 + die. -/
def memberList (l : List Byte) (n : Nat) : List Nat :=
  (List.range n).map fun i => fromLe ((l.drop (2 * i)).take 2)

/-- Does a member list name the submitting die at its rank, and no die twice, with its reserved bits zero? -/
def memberListOk (s : State) (die rank : Nat) (ms : List Nat) : Bool :=
  (ms.all fun m => m < 2 ^ 14) && ms[rank]? = some (s.sirxon.package.toNat * 4 + die) && ms.eraseDups.length = ms.length

/-- The common part of a card. -/
def cardHeadOk (c : List Byte) : Bool :=
  let w := wordAt c 0
  field w 55 44 = 0 && field w 41 39 = 0 && field w 35 0 = 0 && field w 38 36 ≠ 7 && field (wordAt c 8) 5 0 = 0

/-- The body of a kind; a collective's member list is read as a computation says. -/
def cardBodyOk (die : Nat) (read : Nat → Nat → M (List Byte)) (kind : BitVec 8) (rs : List Region) (c : List Byte) :
    M Bool := do
  let s ← get
  if kind = kindCopy then return copyCardOk c
  else if kind = kindCollective then
    if !collectiveCardOk s die rs c then return false
    let k := Collective.ofCard c
    let l ← read k.mlist (2 * k.members)
    return memberListOk s die k.rank (memberList l k.members)
  else if kind = kindBankmac then return bankmacCardOk s die rs c
  else if kind = kindAttn then return attnCardOk s die rs c
  else if kind = kindRowzero then return rowCardOk s die false rs c
  else if kind = kindRowcopy then return rowCardOk s die true rs c
  else if kind = kindMigration then return migrationCardOk s die rs c
  else return false

/-- The checks of R273; the answer is the entry for a graph. -/
def checkCard (die graph : Nat) (read : Nat → Nat → M (List Byte)) (c : List Byte) : M Entry := do
  let w := wordAt c 0
  raiseIf (!cardHeadOk c) 0x143
  match allSome ((List.range (field w 38 36)).map fun i => regionOf (wordAt c (0x10 + 8 * i))) with
  | none => raise 0x143
  | some rs =>
    let kind : BitVec 8 := w.extractLsb' 56 8
    let ok ← cardBodyOk die read kind rs c
    raiseIf (!ok) 0x143
    return freshEntry graph (some kind) (c.drop 0x40) noTask (field w 43 42) (wordAt c 8).toNat rs

/-- A card's 128 bytes with its body in place, as the field readers take them. -/
def Entry.cardBytes (e : Entry) : List Byte := zeros 0x40 ++ e.body

/-! ### JOB and TASK (R204, R253) -/

/-- The graph of a sequencer's task, and for a trap service group that of the trapped task (R267). -/
def State.graphOf (s : State) (w : SeqId) : Nat :=
  match (s.seq w).task with
  | some t => match s.entry t.die t.serial with
    | some e => e.graph
    | none => 0
  | none => 0

/-- The bytes of a record or card by its operand: global at the bundle's scope, or in A space. -/
def submitBytes (o : Operands) (n : Nat) : M (List Byte) := do
  let a := o.xa
  raiseIf (a.toNat % n ≠ 0) 0x084 a
  if o.slot.f.getLsbD 3 then
    let _ ← aCheck o.who.core a.toNat n
  raiseEarlier o.who (scopeMax .die o.scope)
  if o.slot.f.getLsbD 3 then aRead o.who.core a.toNat n
  else readGlobal (.seq o.who) o.scope 0 a.toNat n

/-- The entry takes its place when the table has room; else the slot waits its turn (R268). -/
def submitEntry (o : Operands) (die : Nat) (e : Entry) : M Result := do
  let s ← get
  let d := s.die die
  if s.roomFor die e.graph then
    modDie die fun d => d.enter e s.stamp s.sirxon.stopped
    return Result.ofX (BitVec.ofNat 64 d.nextSerial)
  else
    modDie die fun d => { d with roomQueue := d.roomQueue ++ [(o.who, e)] }
    waitFor .room

def jobBody (o : Operands) : M Result := do
  let die := dieOf o.who.core
  let c ← submitBytes o 128
  let e ← checkCard die ((← get).graphOf o.who) (readGlobal (.seq o.who) o.scope 0) c
  submitEntry o die e

def taskBody (o : Operands) : M Result := do
  let die := dieOf o.who.core
  let r ← submitBytes o 64
  let e ← checkRecord die ((← get).graphOf o.who) (readGlobal (.seq o.who) o.scope 0) r
  submitEntry o die e

/-- JOB (R204). -/
def execJob (w : Slot) (s : State) : Outcome := runSlot 0x64 w jobBody s
/-- TASK (R253). -/
def execTask (w : Slot) (s : State) : Outcome := runSlot 0x70 w taskBody s

/-- A sequencer no longer waits for room. -/
def State.dropRoom (s : State) (who : SeqId) : State :=
  let n := dieOf who.core
  let d := s.die n
  s.setDie n { d with roomQueue := d.roomQueue.filter fun e => e.1 ≠ who }

/-- The wait for room of a slot with an opcode ends in a cause after 1,048,576 cycles. -/
def State.roomLimit (s : State) (who : SeqId) (op : BitVec 7) (code : Nat) : State :=
  match (s.seq who).wait with
  | some p =>
    if p.kind = .room && p.op = op && Config.waitLimit ≤ s.cycle - p.since then (s.dropRoom who).raiseWait who p code 0 0
    else s
  | none => s

/-- JOB_SUBMISSION_WAIT_LIMIT (R204): 0x144, unperformed. -/
def execJobSubmissionWaitLimit (who : SeqId) (s : State) : Outcome := .next (s.roomLimit who 0x64 0x144)
/-- TASK_SUBMISSION_WAIT_LIMIT (R268): 0x202, unperformed. -/
def execTaskSubmissionWaitLimit (who : SeqId) (s : State) : Outcome := .next (s.roomLimit who 0x70 0x202)

end Sys2Proof.Machine
end

