-- ==== Sys2Proof/Machine/Context.lean ====
section
/-! DEFINITION. The context area of a hard pre-empted rank: what is written into it and what a resume takes from it (spec 13
R285, R286, R417). -/

namespace Sys2Proof.Machine

/-- Bytes of a rank's context area by LONG, and its address (R285). -/
def contextStride (long : Bool) : Nat := if long then 0x88000 else 0x4000
def rankCtx (t : TaskRec) (rank : Nat) : Word := t.ctx + BitVec.ofNat 64 (rank * contextStride t.long)

/-! ### Writing (R285, R286) -/

/-- The tiles of a live-tile map, ascending. -/
def tilesOf (map : BitVec 512) : List Nat := (List.range 512).filter fun i => map.getLsbD i

/-- The 1 KiB of a tile: its 128 lanes, value and bound. -/
def Core.tileBytes (k : Core) (tile : Nat) : List Byte :=
  (List.range 128).flatMap fun i => wordBytes (tabGet 0#64 (128 * tile + i) k.lanes)

/-- Word 1 of the header. -/
def headerWord1 (state spilled cluster team rank mdepth depth : Nat) : Word :=
  place 60 state + place 38 spilled + place 18 cluster + place 10 (team - 1) + place 8 rank + place 4 mdepth + place 0 depth

/-- T of a save: the largest of the sequencer's and its channels' (R330). -/
def Seq.savedTime (q : Seq) : Nat := q.channels.toList.foldl (fun m c => max m c.time) q.time

/-- Offsets 0x4000 on of the context area of a rank that a core ran. -/
def contextBytes (s : State) (w : SeqId) (team rank : Nat) (points : List Point) : List Byte :=
  let q := s.seq w
  let k := s.core w.core
  let r := q.now
  let tiles := tilesOf k.live
  let ms := r.masks.reverse
  wordBytes (r.vpc ++ r.lpc)
    ++ wordBytes (headerWord1 1 tiles.length (clusterOf w.core) team rank ms.length r.loops.length)
    ++ wordBytes s.stamp ++ zeros 40
    ++ loopBytes r.loops
    ++ r.sticky.toList.flatMap (fun k => wordBytes k.word ++ wordBytes k.stamp)
    ++ r.x.toList.flatMap wordBytes
    ++ r.v.toList.flatMap vecBytes
    ++ r.p.toList.flatMap (fun p => leBytes 32 p.toNat)
    ++ (List.range 8).flatMap (fun i => leBytes 32 (ms.getD i 0).toNat)
    ++ r.streams.toList.flatMap (fun d => d.words.flatMap wordBytes)
    ++ k.windows.toList.flatMap (fun e => wordBytes e.word)
    ++ (List.range 24).flatMap (fun i => if rank = 0 then wordBytes (points.getD i {}).word else zeros 8)
    ++ q.channels.toList.flatMap (fun c => wordBytes c.ptr ++ wordBytes c.status ++ wordBytes c.stamp)
    ++ wordBytes (r.round.setWidth 64) ++ wordBytes r.mmode
    ++ leBytes 8 q.savedTime ++ zeros 8
    ++ leBytes 64 k.live.toNat
    ++ tiles.flatMap k.tileBytes

/-- The structural fields of a rank that its table entry keeps (R417), and its watermark (R289). -/
def savedRank (s : State) (w : SeqId) (rank : Nat) (bins : List (Fin 64 × Fin 16)) : SavedRank :=
  let r := (s.seq w).now
  { vpc := r.vpc, depth := r.loops.length, rank := rank, cluster := clusterOf w.core,
    loops := r.loops.map fun e => (e.start, e.endV), windows := (s.core w.core).windows.toList.map Window.word, bins := bins,
    wmark := (r.loopAt 0).index.toNat, flat := r.loops.isEmpty, evict := 0 }

/-! ### Reading back (R417) -/

/-- What is read of a rank's area: the bytes from 0x4000 to 0x7800, and the spilled tiles. -/
structure Area where
  bytes : List Byte
  tiles : List Byte

/-- A word of the area by its offset in it. -/
def Area.word (a : Area) (off : Nat) : Word := wordAt a.bytes (off - 0x4000)
/-- n bytes of the area as a number. -/
def Area.number (a : Area) (off n : Nat) : Nat := fromLe ((a.bytes.drop (off - 0x4000)).take n)

def Area.liveMap (a : Area) : BitVec 512 := BitVec.ofNat 512 (a.number 0x77C0 64)

/-- A sticky record from its two words; reserved bits are ignored (R5, R26, R27). -/
def Sticky.ofWords (w stamp : Word) : Sticky :=
  { firstVpc := w.extractLsb' 32 32, firstSlot := w.extractLsb' 29 3, valid := w.getLsbD 28, cause := w.extractLsb' 0 16 &&& 0x1FF,
    stamp := stamp }

/-- A bank-map entry from its word. -/
def Window.ofWord (w : Word) : Window :=
  { att := w.getLsbD 15, shr := w.getLsbD 14, inc := w.getLsbD 13, drn := w.getLsbD 12, bin := Fin.ofNat 64 (field w 5 0) }

/-- A channel from its saved words (R195), with the time of the resume. -/
def Channel.ofWords (ptr st stamp : Word) (time : Nat) : Channel :=
  { ptr := ptr, done := st.extractLsb' 16 24, reported := st.getLsbD 14, failed := st.getLsbD 13, kind := st.extractLsb' 10 2,
    cause := st.extractLsb' 0 10, stamp := stamp, time := time }

/-- The structural fields of an area match the entry's copy (R417). -/
def Area.matches (a : Area) (x : SavedRank) (state team : Nat) : Bool :=
  let w1 := a.word 0x4008
  a.word 0x4000 >>> 32 == x.vpc.setWidth 64 && field w1 63 60 = state && field w1 24 18 = x.cluster
    && field w1 11 10 + 1 = team && field w1 9 8 = x.rank && field w1 2 0 = x.depth && a.word 0x4018 = x.evict
    && ((List.range x.depth).all fun i =>
      let e := x.loops.getD i (0, 0)
      a.word (0x4048 + 16 * i) == e.2 ++ e.1)
    && ((List.range 16).all fun i => (Window.ofWord (a.word (0x7600 + 8 * i))).word == x.windows.getD i 0)

/-- The other refusals of R417. -/
def Area.sound (a : Area) : Bool :=
  let w1 := a.word 0x4008
  field w1 7 4 ≤ 8 && field (a.word 0x4000) 1 0 = 0 && field w1 47 38 = (tilesOf a.liveMap).length
    && ((List.range 24).all fun i =>
      let p := Point.ofWord (a.word (0x7680 + 8 * i))
      !(p.init && p.expected = 0))
    && ((List.range 4).all fun i =>
      let st := a.word (0x7740 + 24 * i + 8)
      !st.getLsbD 12 && field st 11 10 ≠ 3)

/-- The registers that a resume takes from an area (R23, R417): latches and held operands are zero. -/
def Area.regs (a : Area) : Regs :=
  let w0 := a.word 0x4000
  let w1 := a.word 0x4008
  let d := field w1 2 0
  let m := field w1 7 4
  { vpc := w0.extractLsb' 32 32, lpc := w0.extractLsb' 0 32,
    loops := (List.range d).map fun i => LoopEntry.ofWords (a.word (0x4040 + 16 * i)) (a.word (0x4048 + 16 * i)),
    x := Vector.ofFn fun i => if i.val = 0 then 0 else a.word (0x4100 + 8 * i.val),
    v := Vector.ofFn fun i => BitVec.ofNat 2048 (a.number (0x4200 + 256 * i.val) 256),
    p := Vector.ofFn fun i => BitVec.ofNat 256 (a.number (0x6200 + 32 * i.val) 32),
    masks := ((List.range m).map fun i => BitVec.ofNat 256 (a.number (0x7200 + 32 * i) 32)).reverse,
    streams := Vector.ofFn fun i =>
      (List.range 6).foldl (fun (d : Stream) j => d.setWord j (a.word (0x7300 + 48 * i.val + 8 * j))) {},
    sticky := Vector.ofFn fun i => Sticky.ofWords (a.word (0x40A0 + 16 * i.val)) (a.word (0x40A8 + 16 * i.val)),
    round := (a.word 0x77A0).setWidth 2, mmode := a.word 0x77A8 &&& mmodeMask }

/-- Channels of a resume. -/
def Area.channels (a : Area) (time : Nat) : Vector Channel 4 :=
  Vector.ofFn fun i =>
    let o := 0x7740 + 24 * i.val
    Channel.ofWords (a.word o) (a.word (o + 8)) (a.word (o + 16)) time

/-- Points that rank 0's area holds. -/
def Area.points (a : Area) : Vector Point 24 := Vector.ofFn fun i => Point.ofWord (a.word (0x7680 + 8 * i.val))

/-- Spilled tiles go back to the tiles whose bits are set, ascending (R160). -/
def Area.restoreTiles (a : Area) (k : Core) : Core :=
  let tiles := tilesOf a.liveMap
  let lanes := (List.range (128 * tiles.length)).foldl (fun (t : Tab Word) i =>
    tabPut (128 * tiles.getD (i / 128) 0 + i % 128) (wordAt a.tiles (8 * i)) t) k.lanes
  { k with lanes := lanes, live := a.liveMap }

/-- Read a rank's area, as the die's scheduler. -/
def readArea (die : Nat) (ctx : Nat) : M Area := do
  let b ← readGlobal (.scheduler die) .system 0 (ctx + 0x4000) 0x3800
  let a : Area := { bytes := b, tiles := [] }
  let t ← readGlobal (.scheduler die) .system 0 (ctx + 0x7800) (1024 * (tilesOf a.liveMap).length)
  return { bytes := b, tiles := t }

end Sys2Proof.Machine
end

