-- ==== Sys2Proof/Machine/Scheduler.lean ====
section
/-! DEFINITION. The die task scheduler: priority and aging, placement, team start, pre-emption and resume, reservations, and
completion records (spec 13 R278 to R289, R417; spec 11 R258). -/

namespace Sys2Proof.Machine

/-! ### Priority and aging (R278, R281) -/

/-- The effective priority of a graph; none without a ready, unissued task. -/
def Die.level (d : Die) (g : Nat) : Option Nat :=
  ((d.readyOf g).head?).map fun e => min 3 (e.prio + (d.graph g).raised)

/-- Does a graph of higher effective priority hold a ready task? -/
def Die.outranked (d : Die) (g : Nat) : Bool :=
  match d.level g with
  | none => false
  | some l => (List.range 64).any fun h => match d.level h with
    | some m => decide (l < m)
    | none => false

/-- The aging interval of a level in ns. -/
def State.agingOf (s : State) (level : Nat) : Nat := s.sirxon.aging.toList.getD (min level 3) Config.agingNs

/-- AGING_INTERVAL_EXPIRY (R278): a full interval of the level being left has passed on the graph's clock. -/
def execAgingIntervalExpiry (die : Fin 4) (graph : Fin 64) (s : State) : Outcome :=
  let d := s.die die
  let x := d.graph graph
  match d.level graph, x.clock with
  | some l, some t =>
    if l < 3 && t + s.agingOf l ≤ s.stamp.toNat then
      .next (s.setDie die (d.setGraph graph { x with raised := x.raised + 1, clock := some (t + s.agingOf l) }))
    else .next s
  | _, _ => .next s

/-- Does the scheduler hold a task ready on idle groups, its graph stopped? It goes back to the queue, its cores free for the
higher graph (R281, log entry 13). -/
def State.takeBack (s : State) (die : Fin 4) (graph : Nat) : State :=
  (s.die die).table.foldl (fun (s : State) e =>
    match e.status with
    | .placed _ =>
      if e.graph = graph then
        s.unplace { die := die, serial := e.serial, rank := 0, size := e.task.team, ctx := e.task.ctx, long := e.task.long, args := e.task.args }
      else s
    | _ => s) s

/-- SOFT_PREEMPTION (R281): a graph with a higher one ready is stopped; its clock and priority are kept. -/
def execSoftPreemption (die : Fin 4) (graph : Fin 64) (s : State) : Outcome :=
  let d := s.die die
  let x := d.graph graph
  match x.clock with
  | some t =>
    if d.outranked graph && !x.stopped then
      .next ((s.setDie die (d.setGraph graph { x with stopped := true, clock := none, elapsed := s.stamp.toNat - t })).takeBack die graph)
    else .next s
  | none => .next s

/-- Stopped graphs that no higher graph keeps waiting are served again, their clocks going on (R281). -/
def Die.serveAgain (d : Die) (now : Nat) : Die :=
  (List.range 64).foldl (fun d g =>
    let x := d.graph g
    if x.stopped && !d.outranked g then d.setGraph g { x with stopped := false, clock := some (now - x.elapsed) } else d) d

/-- A task of a graph issues: the aging clock restarts while the graph still holds a ready task (R278). -/
def Die.restartClock (d : Die) (g : Nat) (now : Word) : Die :=
  if (d.readyOf g).isEmpty then d.refresh now false
  else (d.setGraph g { d.graph g with raised := 0, clock := some now.toNat }).refresh now false

/-! ### Placement (R279, R280, R283) -/

/-- Graph numbers in round robin order after one. -/
def roundRobin (last : Nat) : List Nat := (List.range 64).map fun i => (last + 1 + i) % 64

def Entry.unplaced (e : Entry) : Bool :=
  match e.status with
  | .waiting => true
  | .saved _ _ => true
  | _ => false

/-- Ready tasks in the order in which the scheduler tries them. -/
def Die.order (d : Die) : List Entry :=
  [3, 2, 1, 0].flatMap fun l => (roundRobin d.serveLast).flatMap fun g =>
    if d.level g = some l && !(d.graph g).stopped then (d.readyOf g).filter Entry.unplaced else []

/-- Is a core free for a task: live, idle, of no team, and not reserved for another task (R279, R280)? -/
def State.coreFree (s : State) (die serial c : Nat) : Bool :=
  let k := s.core c
  !k.retired && k.g0.phase = .empty && k.g1.phase = .empty && (k.reserved = none || k.reserved = some serial)
    && !((s.die die).table.any fun e => e.cores.any fun x => x.val = c)

/-- Free cores of a cluster, lowest first. -/
def State.freeCores (s : State) (die serial cluster : Nat) : List (Fin 512) :=
  ((coresOf cluster).filter (s.coreFree die serial)).map (Fin.ofNat 512)

/-- FREE bins of a cluster that no other task's reservation holds. -/
def Cluster.freeFor (k : Cluster) (serial : Nat) : List (Fin 64) :=
  (List.finRange 64).filter fun b => k.bins[b].state == .free && !k.bins[b].marked && !(k.held.any fun h => h.2 = b && h.1 ≠ serial)

/-- Bins that a saved task has parked. -/
def Entry.parked (e : Entry) : List (Nat × Fin 64 × Fin 16) :=
  e.saved.flatMap fun r => r.bins.map fun b => (r.rank, b)

/-- Does a resume in a cluster copy the bins (R283)? -/
def Entry.copies (e : Entry) (cluster : Nat) : Bool :=
  match e.status with
  | .saved c evicted => evicted || c.val ≠ cluster
  | _ => false

/-- Has a cluster the FREE bins that a resume of a task there copies into (R283)? -/
def State.binsFit (s : State) (e : Entry) (cluster : Nat) : Bool :=
  !e.copies cluster || e.parked.length ≤ ((s.cluster cluster).freeFor e.serial).length

/-- Can a task be placed in a cluster now? -/
def State.fits (s : State) (die : Nat) (e : Entry) (cluster : Nat) : Bool :=
  e.task.team ≤ (s.freeCores die e.serial cluster).length && s.binsFit e cluster

def dieClusters (die : Nat) : List Nat := (List.range 32).map fun i => 32 * die + i

/-- Clusters that can take a task: its parking cluster alone when that can. -/
def State.candidates (s : State) (die : Nat) (e : Entry) : List Nat :=
  let all := (dieClusters die).filter (s.fits die e)
  match e.status with
  | .saved c _ => if all.contains c.val then [c.val] else all
  | _ => all

/-- The tasks passed over, and the first that can be placed. -/
def State.choose (s : State) (die : Nat) : List Entry × Option Entry :=
  let l := (s.die die).order
  let placeable (e : Entry) : Bool := !(s.candidates die e).isEmpty
  (l.takeWhile fun e => !placeable e, l.find? placeable)

/-- The cluster taken, of several that can (log entry 13). -/
def State.pickCluster (s : State) (l : List Nat) : Option (Nat × State) :=
  match l with
  | [] => none
  | [c] => some (c, s)
  | _ => some (l.getD (Config.clusterChoice s.free % l.length) 0, { s with free := s.free + 1 })

/-! #### Requests for hard pre-emption (R282) -/

/-- Does a task come before another among those to pre-empt: lower level, then later start? -/
def preemptBefore (a b : Entry) : Bool := a.prio < b.prio || (a.prio = b.prio && b.since < a.since)

/-- Put an entry in its place. -/
def preemptInsert (e : Entry) : List Entry → List Entry
  | [] => [e]
  | x :: t => if preemptBefore e x then e :: x :: t else x :: preemptInsert e t

def Entry.isRunning (e : Entry) : Bool :=
  match e.status with
  | .running _ => true
  | _ => false

/-- Would some cluster have room for a task once these tasks have gone? Their cores are free then, and their bins parked. -/
def State.roomAfter (s : State) (die : Nat) (e : Entry) (gone : List Entry) : Bool :=
  (dieClusters die).any fun c =>
    e.task.team ≤ ((coresOf c).filter fun i =>
      s.coreFree die e.serial i || gone.any fun g => g.cores.any fun x => x.val = i).length && s.binsFit e c

/-- The shortest run of candidates that makes room, beside those already on their way; none when no run does. -/
def State.victims (s : State) (die : Nat) (e : Entry) (coming : List Entry) : List Entry → List Entry → Option (List Entry)
  | acc, [] => if s.roomAfter die e (coming ++ acc) then some acc else none
  | acc, x :: t => if s.roomAfter die e (coming ++ acc) then some acc else s.victims die e coming (acc ++ [x]) t

/-- Request hard pre-emption of enough running long tasks of a lower level to place a task. -/
def State.requestFor (s : State) (die : Nat) (e : Entry) : State :=
  let d := s.die die
  match d.level e.graph with
  | none => s
  | some l =>
    let long := d.table.filter fun y => y.isRunning && y.task.long
    let coming := long.filter fun y => y.preempt
    let cands := ((long.filter fun y => !y.preempt && y.prio < l).foldr preemptInsert [])
    match s.victims die e coming [] cands with
    | none => s
    | some vs => vs.foldl (fun (s : State) v => s.modEntry die v.serial fun y => { y with preempt := true }) s

/-- Tasks that cannot be placed are passed over: the first time is noted, and room is asked for. -/
def State.passOver (s : State) (die : Nat) (l : List Entry) : State :=
  l.foldl (fun (s : State) e =>
    (s.modEntry die e.serial fun y => { y with passedAt := some (y.passedAt.getD s.stamp.toNat) }).requestFor die e) s

/-! #### Preloading and start -/

/-- A rank's task reference. -/
def taskRef (die : Fin 4) (e : Entry) (rank : Nat) : TaskRef :=
  { die := die, serial := e.serial, rank := rank, size := e.task.team, ctx := rankCtx e.task rank, long := e.task.long,
    args := e.task.args }

/-- The code a handle names (R301). -/
def codeRef (die : Fin 4) (handle : BitVec 32) : CodeRef :=
  { die := die, slot := some (field handle 23 12), kernel := field handle 11 0 }

/-- Each rank of a task is preloaded into the lowest idle group of its core. -/
def State.preload (s : State) (die : Fin 4) (e : Entry) (cores : List (Fin 512)) : State :=
  cores.zipIdx.foldl (fun (s : State) (p : Fin 512 × Nat) =>
    let w : SeqId := ⟨p.1, 0⟩
    s.setSeq w { s.seq w with phase := .ready, task := some (taskRef die e p.2), code := some (codeRef die e.task.handle) }) s

/-- Do the die's graphs issue nothing: after a thermal stop (R400), or during a checkpoint (R399)? -/
def State.noIssue (s : State) (die : Nat) : Bool := s.sirxon.stopped || (s.die die).paused

/-! #### Reservation (R279) -/

/-- The chosen cluster of a task that cannot be placed. -/
def State.chosenCluster (s : State) (die : Nat) (e : Entry) : Option Nat :=
  let roomy (c : Nat) : Bool := e.task.team ≤ s.liveCores c
  let lowest := (dieClusters die).find? fun c => roomy c && (e.saved.isEmpty || e.parked.length ≤ (s.cluster c).binCount)
  match e.status with
  | .saved c _ => if roomy c then some c.val else lowest
  | _ => lowest

/-- Hold the FREE bins of the chosen cluster for a pre-empted task until it has what it needs. -/
def Cluster.holdBins (k : Cluster) (serial need : Nat) : Cluster :=
  let mine := k.held.filter fun h => h.1 = serial
  let more := ((k.freeFor serial).filter fun b => !(mine.any fun h => h.2 = b)).take (need - mine.length)
  { k with held := k.held ++ more.map fun b => (serial, b) }

/-- The reservation of a pre-empted task in a cluster, with the bins it needs. -/
def Cluster.claim (k : Cluster) (serial need : Nat) : Cluster :=
  { k with claims := (serial, need) :: k.claims.filter fun c => c.1 ≠ serial }

/-- The free cores of a task's chosen cluster, and its FREE bins for a pre-empted task, are reserved for it. -/
def State.reserveFor (s : State) (die : Nat) (e : Entry) : State :=
  match s.chosenCluster die e with
  | none => s
  | some c =>
    let s := (s.freeCores die e.serial c).foldl (fun (s : State) (i : Fin 512) =>
      s.setCore i { s.core i with reserved := some e.serial }) s
    let need := if e.copies c then e.parked.length else 0
    if need = 0 then s else s.setCluster c (((s.cluster c).holdBins e.serial need).claim e.serial need)

/-- Tasks that have been passed over for one aging interval, in the order in which the scheduler tries them. -/
def State.overdue (s : State) (die : Nat) : List Entry :=
  let d := s.die die
  d.order.filter fun e => match e.passedAt, d.level e.graph with
    | some t, some l => decide (t + s.agingOf l ≤ s.stamp.toNat)
    | _, _ => false

/-- Cores and bins that are free now are reserved for every such task, so that a later choice does not take them. -/
def State.reserveDue (s : State) (die : Nat) : State := (s.overdue die).foldl (fun (s : State) e => s.reserveFor die e) s

/-- PLACEMENT_CORE_RESERVATION (R279): what has become free is reserved; the scheduler does the same before every choice. -/
def execPlacementCoreReservation (die : Fin 4) (s : State) : Outcome := .next (s.reserveDue die)

/-- TASK_PLACEMENT (R279, R280): the scheduler's choice is preloaded, unless it is a saved task, which TASK_RESUME places;
tasks before it are passed over. -/
def execTaskPlacement (die : Fin 4) (s : State) : Outcome :=
  if s.noIssue die then .next s
  else
    let s := (s.setDie die ((s.die die).serveAgain s.stamp.toNat)).reserveDue die
    let (passed, chosen) := s.choose die
    let s := s.passOver die passed
    match chosen with
    | none => .next s
    | some e =>
      match e.status, s.pickCluster (s.candidates die e) with
      | .waiting, some (c, s) =>
        let cores := (s.freeCores die e.serial c).take e.task.team
        let s := s.preload die e cores
        let s := s.modEntry die e.serial fun y => { y with status := .placed cores }
        .next (s.setDie die { s.die die with serveLast := e.graph })
      | _, _ => .next s

/-- A reservation ends: its task starts, or is gone (R279). -/
def State.release (s : State) (die serial : Nat) : State :=
  (dieClusters die).foldl (fun (s : State) c =>
    let k := s.cluster c
    let s := if (k.held.any fun h => h.1 = serial) || k.claims.any fun h => h.1 = serial then
        s.setCluster c { k with held := k.held.filter fun h => h.1 ≠ serial, claims := k.claims.filter fun h => h.1 ≠ serial }
      else s
    (coresOf c).foldl (fun (s : State) i =>
      let k := s.core i
      if k.reserved = some serial then s.setCore i { k with reserved := none } else s) s) s

/-- A team takes a slot of its cluster's sync unit (R241, R280). -/
def Cluster.addTeam (k : Cluster) (t : Team) : Cluster :=
  match (List.finRange 4).find? fun i => k.teams[i].isNone with
  | some i => { k with teams := k.teams.set i (some t) }
  | none => k

/-- Registers at the start of a task (R11, R13). -/
def startRegs (args : Word) (rank size : Nat) : Regs :=
  let r : Regs := {}
  ((r.setX 1 args).setX 2 (BitVec.ofNat 64 rank)).setX 3 (BitVec.ofNat 64 size)

/-- A rank begins on its core (R13, R160, R195, R231, R330). -/
def State.startRank (s : State) (w : SeqId) (t : TaskRef) (code : CodeRef) : State :=
  let r := startRegs t.args t.rank t.size
  let k := s.core w.core
  let q : Seq := { now := r, before := r, phase := .running, task := some t, code := some code,
                   time := (s.die t.die).schedTime, seen := (k.seq w.group).seen }
  s.setCore w.core { k.setSeq w.group q with issuing := some w.group, live := 0, windows := Vector.replicate 16 {}, frame := none,
                                             told := some (s.discovered (clusterOf w.core)) }

/-- TEAM_START (R280): every rank issues from now on, and the team takes its slot. No task of a stopped graph issues (R281). -/
def execTeamStart (die : Fin 4) (serial : Nat) (s : State) : Outcome :=
  match s.entry die serial with
  | none => .next s
  | some e =>
    match e.status with
    | .placed cores =>
      if s.noIssue die || ((s.die die).graph e.graph).stopped then .next s
      else
        let c := clusterOf (cores.headD 0)
        let s := cores.zipIdx.foldl (fun (s : State) (p : Fin 512 × Nat) =>
          s.startRank ⟨p.1, 0⟩ (taskRef die e p.2) (codeRef die e.task.handle)) s
        let s := s.setCluster c ((s.cluster c).addTeam { die := die, serial := serial, cores := cores })
        let s := s.modEntry die serial fun y =>
          { y with status := .running cores, start := s.stamp, since := s.stamp, ranOn := some c, passedAt := none }
        let s := (s.release die serial).setDie die (((s.release die serial).die die).restartClock e.graph s.stamp)
        .next { s with sirxon := { s.sirxon with anyIssued := true } }
    | _ => .next s

/-! ### Hard pre-emption (R282, R284, R258) -/

/-- The group of a core that runs a task; group 0 when its rank has halted. -/
def State.rankSeq (s : State) (die : Fin 4) (serial : Nat) (c : Fin 512) : SeqId :=
  match (s.core c).g1.task with
  | some t => if t.die = die && t.serial = serial then ⟨c, 1⟩ else ⟨c, 0⟩
  | none => ⟨c, 0⟩

/-- Is a request honoured now: every rank stopped or halted, its transfers and weight loads ended, those that its trap service
accepted among them (R157), its send register empty? -/
def State.saveReady (s : State) (e : Entry) (cores : List (Fin 512)) : Bool :=
  e.preempt && ((List.range cores.length).all fun r => e.stopped.contains r || e.halted.contains r) && !e.stopped.isEmpty
    && cores.all fun c =>
      let quiet (q : Seq) : Bool := q.channels.toList.all fun ch => !ch.busy
      quiet (s.core c).g0 && quiet (s.core c).g1 && (s.core c).sendReg.isNone
        && !((s.core c).loads.any fun l => l.serial = some e.serial)

/-- The bins that a core's windows own. -/
def Cluster.ownedBy (k : Cluster) (c : Fin 512) : List (Fin 64 × Fin 16) :=
  (List.finRange 64).filterMap fun b => match k.bins[b].state with
    | .owned o win => if o = c then some (b, win) else none
    | _ => none

/-- OWNED bins of a team become PARKED (R258). -/
def Cluster.park (k : Cluster) (serial : Nat) (cores : List (Fin 512)) : Cluster :=
  { k with bins := k.bins.map fun b => match b.state with
      | .owned c win => match cores.idxOf? c with
        | some r => { b with state := .parked serial r win }
        | none => b
      | _ => b }

/-- Every earlier write of the cluster's cores reaches its home, and the scheduler's time covers them: is it done? -/
def State.settleCluster (s : State) (die cluster : Nat) : State × Bool :=
  let s := (coresOf cluster).foldl (fun (s : State) c => s.passAll c) s
  match drainPending cluster (fun _ => true) (s.cluster cluster).pending s 0 with
  | (s, none) => (s, false)
  | (s, some t) =>
    let met := (coresOf cluster).foldl (fun m c => max m (max (s.core c).g0.seen (s.core c).g1.seen)) t
    (s.setDie die { s.die die with schedTime := max (s.die die).schedTime met }, true)

/-- How a part's own access goes: it answers, raises a cause, or has to wait, as for a request without a response. -/
inductive Tried (α : Type) where
  | ok (a : α) (s : State)
  | fails (s : State) (code : Cause)
  | waits (s : State)

/-- Try accesses whose request without a response is kept where a function says: it is sent once more, and then fails (R348,
R411). -/
def State.tryAs {α : Type} (s : State) (sent : State → Option Sent) (mark : Option Sent → State → State) (m : M α) : Tried α :=
  match m.on s with
  | (.ok a, s) => .ok a (if (sent s).isSome then mark none s else s)
  | (.error (.cause c _ _), s) => .fails s c
  | (.error (.wait kind _), s) =>
    match askAgain (sent s) kind s.cycle with
    | some r => .waits (mark (some r) s)
    | none => .fails (mark none s) (BitVec.ofNat 10 (responseCause kind))
  | (.error _, s) => .waits s

/-- Try accesses made for an entry of a die's table. -/
def State.tryFor {α : Type} (s : State) (die serial : Nat) (m : M α) : Tried α :=
  s.tryAs (fun s => (s.entry die serial).bind Entry.sent) (fun x s => s.modEntry die serial fun e => { e with sent := x }) m

/-- Try accesses made for the command at the head of a host queue. -/
def State.tryHost {α : Type} (s : State) (q : Fin 64) (m : M α) : Tried α :=
  s.tryAs (fun s => (s.host.queue q).sent) (fun x s => s.modQueue q fun y => { y with sent := x }) m

/-- How the context areas of a task go: each is written or read, that of a rank cannot be, or they wait. -/
inductive Areas (α : Type) where
  | ok (a : α) (s : State)
  | fails (s : State) (rank : Nat)
  | waits (s : State)

/-- Write the context area of each rank. -/
def writeAreas (die : Fin 4) (e : Entry) (points : List Point) : List (Fin 512 × Nat) → State → Areas Unit
  | [], s => .ok () s
  | (c, r) :: rest, s =>
    let l := contextBytes s (s.rankSeq die e.serial c) e.task.team r points
    match s.tryFor die e.serial (writeGlobal (.scheduler die) .system 0 ((rankCtx e.task r).toNat + 0x4000) l) with
    | .fails s _ => .fails s r
    | .waits s => .waits s
    | .ok _ s => writeAreas die e points rest s

/-- The cores of a team are idle: nothing of the task is left on them. -/
def State.clearCores (s : State) (die : Fin 4) (serial : Nat) (cores : List (Fin 512)) : State :=
  cores.foldl (fun (s : State) (c : Fin 512) =>
    let w := s.rankSeq die serial c
    let k := s.core c
    s.setCore c { k.setSeq w.group (k.seq w.group).emptied with issuing := k.handOver w.group, live := 0, frame := none }) s

/-- A whole task ends by a failure of a rank: what it owns is freed. -/
def State.endTask (s : State) (die : Fin 4) (serial : Nat) (cores : List (Fin 512)) (f : EndInfo) : State :=
  let s := (s.clearCores die serial cores).endTeam die serial cores
  let s := s.modEntry die serial fun e =>
    let e := e.fail f
    { e with status := .ended (e.endInfo s.stamp), preempt := false, stopped := [], saved := [] }
  s.setDie die ((s.die die).refresh s.stamp s.sirxon.stopped)

/-- HARD_PREEMPTION_SAVE (R282, R258): bins parked, tiles spilled, contexts written, cores freed; a context area that cannot
be written ends the task with 0x205 (R285). -/
def execHardPreemptionSave (die : Fin 4) (serial : Nat) (s : State) : Outcome :=
  match s.entry die serial with
  | none => .next s
  | some e =>
    match e.status with
    | .running cores =>
      let c := clusterOf (cores.headD 0)
      if !s.saveReady e cores then .next s
      else
        match s.settleCluster die c with
        | (s, false) => .next s
        | (s, true) =>
          let points := match (s.cluster c).team die serial with
            | some t => t.points.toList
            | none => []
          let top := cores.foldl (fun m k => let q := s.seq (s.rankSeq die serial k); max m (max q.savedTime q.seen)) 0
          let s := s.setDie die { s.die die with schedTime := max (s.die die).schedTime top }
          let k := s.cluster c
          let saved := cores.zipIdx.map fun p => savedRank s (s.rankSeq die serial p.1) p.2 (k.ownedBy p.1)
          match writeAreas die e points cores.zipIdx s with
          | .fails s r =>
            let core := cores.getD r 0
            let f := failAt 0x205 0 (s.seq (s.rankSeq die serial core)).now.loops
            .next (s.endTask die serial cores (f.toEnd core s.stamp))
          | .waits s => .next s
          | .ok _ s =>
            let s := s.setCluster c (((s.cluster c).park serial cores).dropTeam die serial)
            let s := (s.detachAll cores).clearCores die serial cores
            let s := s.modEntry die serial fun y =>
              { y with status := .saved (Fin.ofNat 128 c) false, preempt := false, stopped := [], saved := saved, passedAt := none }
            .next (s.setDie die ((s.die die).refresh s.stamp s.sirxon.stopped))
    | _ => .next s

/-! ### Eviction of parked bins (R283, R286) -/

/-- One parked bin to Sirxon's own memory. -/
def State.evictBin (s : State) (die : Fin 4) (serial cluster : Nat) (p : Nat × Fin 64 × Fin 16) : State :=
  let k := s.cluster cluster
  let base := p.2.1.val * binSize
  let bytes := (k.mem.filter fun c => base ≤ c.1 && c.1 < base + binSize).map fun c => (c.1 - base, c.2)
  let poison := (k.poison.filter fun u => u / 16384 = p.2.1.val).map fun u => u % 16384
  let x : EvictedBin := { die := die, serial := serial, rank := p.1, window := p.2.2.val, bytes := bytes, poison := poison }
  let s := s.setCluster cluster (k.setBin p.2.1 .free)
  { s with sirxon := { s.sirxon with evictions := s.sirxon.evictions ++ [x] } }

/-- Every rank's header says STATE 2 and the handle; Sirxon writes it. -/
def writeEvicted (e : Entry) (handle : Word) : List SavedRank → M Unit
  | [] => return ()
  | r :: rest => do
    let a := (rankCtx e.task r.rank).toNat + 0x4008
    let w ← readGlobal .sirxon .system 0 a 8
    let x := (wordOf w &&& ~~~(0xF <<< 60 : Word)) ||| place 60 2
    writeGlobal .sirxon .system 0 a (wordBytes x)
    writeGlobal .sirxon .system 0 (a + 16) (wordBytes handle)
    writeEvicted e handle rest

/-- PARKED_BIN_EVICTION (R283): Sirxon copies the parked bins of a saved task to its memory under a handle other than 0, and
the bins become FREE. -/
def execParkedBinEviction (die : Fin 4) (serial : Nat) (handle : Word) (s : State) : Outcome :=
  match s.entry die serial with
  | none => .next s
  | some e =>
    match e.status with
    | .saved c false =>
      if handle = 0 || e.parked.isEmpty then .next s
      else
        match s.tryFor die serial (writeEvicted e handle e.saved) with
        | .fails s _ => .next s
        | .waits s => .next s
        | .ok _ s =>
          let s := e.parked.foldl (fun (s : State) (p : Nat × Fin 64 × Fin 16) => s.evictBin die serial c p) s
          .next (s.modEntry die serial fun y =>
            { y with status := .saved c true, saved := y.saved.map fun r => { r with evict := handle } })
    | _ => .next s

/-! ### Resume (R283, R417) -/

/-- The bytes and poison of a parked bin, wherever they are. -/
def State.parkedBin (s : State) (die : Fin 4) (serial cluster : Nat) (evicted : Bool) (p : Nat × Fin 64 × Fin 16) :
    List Host.Cell × List Nat :=
  if evicted then
    match s.sirxon.evictions.find? fun x => x.die = die && x.serial = serial && x.rank = p.1 && x.window = p.2.2.val with
    | some x => (x.bytes, x.poison)
    | none => ([], [])
  else
    let k := s.cluster cluster
    let base := p.2.1.val * binSize
    ((k.mem.filter fun c => base ≤ c.1 && c.1 < base + binSize).map fun c => (c.1 - base, c.2),
     (k.poison.filter fun u => u / 16384 = p.2.1.val).map fun u => u % 16384)

/-- A saved task's parked bins are given up. -/
def State.dropParked (s : State) (die : Fin 4) (e : Entry) : State :=
  let s := match e.status with
    | .saved c false => s.setCluster c (e.parked.foldl (fun (k : Cluster) (p : Nat × Fin 64 × Fin 16) => k.setBin p.2.1 .free) (s.cluster c))
    | _ => s
  { s with sirxon := { s.sirxon with
      evictions := s.sirxon.evictions.filter fun x => !(x.die = die && x.serial = e.serial) } }

/-- A resume that fails ends the task with the watermark of the pre-emption (R283, R285). -/
def State.failResume (s : State) (die : Fin 4) (e : Entry) (rank : Nat) (core : Fin 512) (code : Nat) : State :=
  let r := e.saved.find? fun r => r.rank = rank
  let (unit, wm) : BitVec 2 × Nat := match r with
    | some r => if r.flat then (0, 0) else (2, r.wmark)
    | none => (0, 0)
  let f : FailInfo := { cause := BitVec.ofNat 10 code, pstatus := 0, unit := unit, wmark := wm }
  ((s.dropParked die e).release die e.serial).endTask die e.serial [] (f.toEnd core s.stamp)

/-- Read and check every rank's area. -/
def readAreas (die : Fin 4) (e : Entry) (state : Nat) : List SavedRank → State → Areas (List Area)
  | [], s => .ok [] s
  | r :: rest, s =>
    match s.tryFor die e.serial (readArea die (rankCtx e.task r.rank).toNat) with
    | .fails s _ => .fails s r.rank
    | .waits s => .waits s
    | .ok a s =>
      if a.matches r state e.task.team && a.sound then
        match readAreas die e state rest s with
        | .ok l s => .ok (a :: l) s
        | x => x
      else .fails s r.rank

/-- The bins a task gets: each parked bin and its new one. -/
def State.binPlan (s : State) (e : Entry) (cluster : Nat) : List ((Nat × Fin 64 × Fin 16) × Fin 64) :=
  if e.copies cluster then e.parked.zip ((s.cluster cluster).freeFor e.serial)
  else e.parked.map fun p => (p, p.2.1)

/-- A bin is attached to its window again, its bytes copied where a copy is needed. -/
def State.restoreBin (s : State) (die : Fin 4) (e : Entry) (cluster : Nat) (cores : List (Fin 512))
    (x : (Nat × Fin 64 × Fin 16) × Fin 64) : State :=
  let p := x.1
  let owner := cores.getD p.1 0
  match e.status with
  | .saved c evicted =>
    let s := if e.copies cluster then
        let (bytes, _) := s.parkedBin die e.serial c evicted p
        let base := x.2.val * binSize
        let k := s.cluster cluster
        let mem := bytes.foldl (fun m (b : Host.Cell) => writeByte (base + b.1) b.2 m) (clearBytes k.mem base binSize)
        let s := s.setCluster cluster { k with mem := mem, poison := k.poison.filter fun u => u / 16384 ≠ x.2.val }
        if evicted then s else s.setCluster c ((s.cluster c).setBin p.2.1 .free)
      else s
    s.setCluster cluster ((s.cluster cluster).setBin x.2 (.owned owner p.2.2))
  | _ => s

/-- A window of a resumed rank: its bin is the one that now holds the old one's bytes. -/
def remapWindow (plan : List ((Nat × Fin 64 × Fin 16) × Fin 64)) (e : Window) : Window :=
  match plan.find? fun x => x.1.2.1 = e.bin with
  | some x => if e.att then { e with bin := x.2 } else e
  | none => e

/-- A rank goes on from its area (R23, R417, R330); a halted rank's core only holds its windows. -/
def State.resumeRank (s : State) (die : Fin 4) (e : Entry) (plan : List ((Nat × Fin 64 × Fin 16) × Fin 64))
    (core : Fin 512) (rank : Nat) (a : Area) : State :=
  let windows : Vector Window 16 := Vector.ofFn fun i => remapWindow plan (Window.ofWord (a.word (0x7600 + 8 * i.val)))
  let k := { s.core core with windows := windows, frame := none }
  if e.halted.contains rank then s.setCore core { k with live := 0 }
  else
    let t := max (a.number 0x77B0 8) (s.die die).schedTime
    let r := a.regs
    let q : Seq := { now := r, before := r, phase := .running, task := some (taskRef die e rank),
                     code := some (codeRef die e.task.handle), channels := a.channels t, time := t, seen := k.g0.seen }
    s.setCore core { (a.restoreTiles k).setSeq 0 q with issuing := some 0, told := some (s.discovered (clusterOf core)) }

/-- TASK_RESUME (R283): the scheduler's choice is a saved task: it is placed, its areas checked and restored, its bins
attached again or copied, and every rank that had not halted goes on. -/
def execTaskResume (die : Fin 4) (serial : Nat) (s : State) : Outcome :=
  if s.noIssue die then .next s
  else
    let s := (s.setDie die ((s.die die).serveAgain s.stamp.toNat)).reserveDue die
    let (passed, chosen) := s.choose die
    let s := s.passOver die passed
    match chosen with
    | none => .next s
    | some e =>
      match e.status, s.pickCluster (s.candidates die e) with
      | .saved c evicted, some (cl, s') =>
        if e.serial ≠ serial then .next s
        else
          let cores := (s'.freeCores die serial cl).take e.task.team
          match readAreas die e (if evicted then 2 else 1) e.saved s' with
          | .waits s => .next s
          | .fails s r => .next (s.failResume die e r (cores.getD r 0) 0x205)
          | .ok areas s =>
            let bad := e.parked.find? fun (p : Nat × Fin 64 × Fin 16) => e.copies cl && !(s.parkedBin die serial c evicted p).2.isEmpty
            match bad with
            | some p => .next (s.failResume die e p.1 (cores.getD p.1 0) 0x241)
            | none =>
              let plan := s.binPlan e cl
              let s := plan.foldl (fun (s : State) x => s.restoreBin die e cl cores x) s
              let s := (cores.zipIdx.zip areas).foldl (fun (s : State) (x : (Fin 512 × Nat) × Area) =>
                s.resumeRank die e plan x.1.1 x.1.2 x.2) s
              let points := match areas with
                | a :: _ => a.points
                | [] => Vector.replicate 24 {}
              let s := s.setCluster cl ((s.cluster cl).addTeam { die := die, serial := serial, cores := cores, points := points })
              let s := { s with sirxon := { s.sirxon with
                evictions := s.sirxon.evictions.filter fun x => !(x.die = die && x.serial = serial) } }
              let s := s.modEntry die serial fun y =>
                { y with status := .running cores, since := s.stamp, saved := [], passedAt := none, ranOn := some cl }
              let s := s.release die serial
              .next (s.setDie die { (s.die die).restartClock e.graph s.stamp with serveLast := e.graph })
      | _, _ => .next s

/-! ### Completion records (R287, R288) -/

/-- Words 0x00 to 0x37 of a record. -/
def recordHead (serial : Nat) (card : Option (BitVec 8)) (start : Word) (suspect : Bool) (f : EndInfo) : List Byte :=
  let w1 : Word := place 48 f.pstatus.toNat + place 36 (bit suspect) + place 32 f.state.toNat + place 28 (bit card.isSome)
    + place 20 (card.getD 0).toNat + place 10 f.whereC.toNat + place 0 f.cause.toNat
  leBytes 8 serial ++ wordBytes w1 ++ wordBytes f.stamp ++ wordBytes (place 62 f.unit.toNat + BitVec.ofNat 64 (f.wmark % 2 ^ 62))
    ++ wordBytes start ++ zeros 24

/-- The record at an address: its words, then DONE. -/
def writeRecord (die compl serial : Nat) (head : List Byte) : M Unit := do
  writeGlobal (.scheduler die) .system 0 compl head
  writeGlobal (.scheduler die) .system 0 (compl + 0x38) (leBytes 8 serial)

/-- A record that was tried is written, or, where its address cannot be written, lost: is it done? It may have to wait. -/
def Tried.record : Tried Unit → State × Bool
  | .ok _ s => (s, true)
  | .fails s _ => (s, true)
  | .waits s => (s, false)

/-- The record of an entry of the table. -/
def State.putRecord (s : State) (die compl serial : Nat) (head : List Byte) : State × Bool :=
  (s.tryFor die serial (writeRecord die compl serial head)).record

/-- How an entry stands to its record: its end, once it has one. -/
def Entry.finished (e : Entry) (now : Word) : Option EndInfo :=
  match e.status with
  | .ended f => some f
  | .waiting =>
    if e.cancelled then
      some { state := 4, cause := 0x203, unit := 0, wmark := 0, pstatus := 0, whereC := 0, stamp := now }
    else none
  | _ => none

/-- The entry leaves the table; those that waited on it lose their edge, and are cancelled by STATE 2 to 4. -/
def Die.leave (d : Die) (serial : Nat) (f : EndInfo) (now : Word) (stopped : Bool) : Die :=
  let failed := f.state ≠ 1
  let table := (d.table.filter fun e => e.serial ≠ serial).map fun e =>
    if e.preds.contains serial then
      { e with preds := e.preds.filter fun p => p ≠ serial, cancelled := e.cancelled || failed }
    else e
  ({ d with table := table } : Die).refresh now stopped

end Sys2Proof.Machine
end

