-- ==== Sys2Proof/Machine/Vector.lean ====
section
/-! DEFINITION. The V engine: element-wise arithmetic, conversions, reductions, permutes and the mask stack (spec 06). -/

namespace Sys2Proof.Machine

/-! ### Elements and the mask (R32, R134) -/

/-- Element i of width w bits. -/
def elemBits (w : Nat) (v : Vec) (i : Nat) : Nat := (v.extractLsb' (w * i) w).toNat

/-- Elements of width w packed densely, element 0 lowest (R32). -/
def packBits (w : Nat) : List Nat → Nat
  | [] => 0
  | x :: t => x % 2 ^ w + 2 ^ w * packBits w t

/-- A vector built element by element; none keeps the old element (R134). -/
def buildElems (w : Nat) (old : Vec) (f : Nat → Option (Nat × Flags)) : Vec × Flags :=
  let l := (List.range (2048 / w)).map fun i =>
    match f i with
    | some r => r
    | none => (elemBits w old i, 0)
  (BitVec.ofNat 2048 (packBits w (l.map Prod.fst)), orFlags (l.map Prod.snd))

/-- The element-wise slots with elements of g bytes (R134): element i is computed where the mask's bit g·i is 1. -/
def lanewise (g : Nat) (mask : Pred) (old : Vec) (f : Nat → Nat × Flags) : Vec × Flags :=
  buildElems (8 * g) old fun i => if mask.getLsbD (g * i) then some (f i) else none

/-- The destination value under the mask: the captured one where the slot reads D, else the register. -/
def Operands.oldV (o : Operands) : Vec := if o.form.third = .v then o.third else o.regs.getV o.slot.d

/-- The mask that governs a V slot (R134). -/
def Operands.mask (o : Operands) : Pred := o.regs.maskTop

/-- An element-wise slot that writes a v register. -/
def laneResult (g : Nat) (o : Operands) (f : Nat → Nat × Flags) : M Result := do
  let r := lanewise g o.mask o.oldV f
  return Result.ofV r.1 r.2

/-- A predicate merged bit by bit under the mask (R134). -/
def predMerge (mask old new : Pred) : Pred := (new &&& mask) ||| (old &&& ~~~mask)

/-! ### Types and modes (R133) -/

/-- Bytes of an element of type T. -/
def typeBytes (t : Nat) : Nat :=
  match t with
  | 0 | 3 => 4
  | 1 | 2 => 2
  | _ => 1

/-- The float format of T = 0, 1, 2. -/
def typeFmt (t : Nat) : Fmt :=
  match t with
  | 0 => fp32
  | 1 => bf16
  | _ => fp16

/-- A MODE code (R133). -/
def modeOf (r : Regs) (m : Nat) : Rnd := if m = 0 then Rnd.ofCode r.round.toNat else Rnd.ofCode (m - 4)

/-- The M code of an element-wise slot: nearest, toward zero, dynamic (R135). -/
def shortMode (r : Regs) (m : Nat) : Rnd :=
  match m with
  | 0 => .nearest
  | 1 => .zero
  | _ => Rnd.ofCode r.round.toNat

/-- T of an element-wise slot. -/
def Operands.t (o : Operands) : Nat := o.f / 4
/-- M of an element-wise slot. -/
def Operands.m (o : Operands) : Nat := o.f % 4

/-! ### Arithmetic (R135 to R137) -/

/-- An integer result as M says: wrapped, or clamped to the signed or unsigned range. -/
def fitInt (w m : Nat) (e : Int) : Nat × Flags :=
  match m with
  | 0 => (wrapInt w e, 0)
  | 1 => let r := clampInt (-(2 ^ (w - 1) : Nat)) (2 ^ (w - 1) - 1 : Nat) e; (wrapInt w r.1, r.2)
  | _ => let r := clampInt 0 (2 ^ w - 1 : Nat) e; (wrapInt w r.1, r.2)

/-- An element as an integer: unsigned for the unsigned saturating forms. -/
def readFor (w m p : Nat) : Int := if m = 2 then (p : Int) else signedOf w p

/-- An element-wise slot of two operands and the destination. -/
def elementwise (fl : Fmt → Rnd → Nat → Nat → Nat → Nat × Flags) (int : Int → Int → Int → Int) (o : Operands) : M Result := do
  let t := o.t
  let g := typeBytes t
  let w := 8 * g
  laneResult g o fun i =>
    let a := elemBits w o.a i
    let b := elemBits w o.b i
    let d := elemBits w o.oldV i
    if t < 3 then fl (typeFmt t) (shortMode o.regs o.m) a b d
    else fitInt w o.m (int (readFor w o.m a) (readFor w o.m b) (readFor w o.m d))

/-- VADD (R135). -/
def execVadd (w : Slot) (s : State) : Outcome :=
  runSlot 0x30 w (elementwise (fun f r a b _ => fAdd f r a b) fun a b _ => a + b) s
/-- VSUB (R135). -/
def execVsub (w : Slot) (s : State) : Outcome :=
  runSlot 0x31 w (elementwise (fun f r a b _ => fSub f r a b) fun a b _ => a - b) s
/-- VMUL (R135). -/
def execVmul (w : Slot) (s : State) : Outcome :=
  runSlot 0x32 w (elementwise (fun f r a b _ => fMul f r a b) fun a b _ => a * b) s
/-- VFMA (R136). -/
def execVfma (w : Slot) (s : State) : Outcome :=
  runSlot 0x33 w (elementwise fFma fun a b d => a * b + d) s

/-- The smaller or larger element of a type (R137); M names signed or unsigned for the integer types. -/
def minMaxElem (t m a b : Nat) : Nat × Flags :=
  if t < 3 then fMinMax (typeFmt t) (m % 2 = 1) a b
  else
    let w := 8 * typeBytes t
    let less : Bool := if 2 ≤ m then decide (a < b) else decide (signedOf w a < signedOf w b)
    (if less = (m % 2 = 1) then b else a, 0)

def mnxVecBody (o : Operands) : M Result := do
  let g := typeBytes o.t
  laneResult g o fun i => minMaxElem o.t o.m (elemBits (8 * g) o.a i) (elemBits (8 * g) o.b i)

/-- VMNX (R137). -/
def execVmnx (w : Slot) (s : State) : Outcome := runSlot 0x34 w mnxVecBody s

/-- One element shifted (R135). -/
def shiftElem (w m a b : Nat) : Nat :=
  let k := b % w
  match m with
  | 0 => a * 2 ^ k % 2 ^ w
  | 1 => a / 2 ^ k
  | 2 => wrapInt w (signedOf w a / (2 ^ k : Nat))
  | _ => a / 2 ^ k + a % 2 ^ k * 2 ^ (w - k)

def shiftVecBody (o : Operands) : M Result := do
  let g := typeBytes o.t
  laneResult g o fun i => (shiftElem (8 * g) o.m (elemBits (8 * g) o.a i) (elemBits (8 * g) o.b i), 0)

/-- VSHF (R135). -/
def execVshf (w : Slot) (s : State) : Outcome := runSlot 0x36 w shiftVecBody s

/-! ### Logic, compare, select (R138 to R140) -/

/-- The bitwise operation that a VLOG form names. -/
def logicOp {n : Nat} (k : Nat) (a b : BitVec n) : BitVec n :=
  match k with
  | 0 => a &&& b
  | 1 => a ||| b
  | 2 => a ^^^ b
  | 3 => a &&& ~~~b
  | 4 => a ||| ~~~b
  | _ => ~~~a

/-- The mask spread from bytes to bits. -/
def byteMask (p : Pred) : Vec :=
  BitVec.ofNat 2048 (packBits 8 ((List.range 256).map fun j => if p.getLsbD j then 255 else 0))

/-- A value merged byte by byte under the mask (R134). -/
def byteMerge (mask : Pred) (old new : Vec) : Vec :=
  let m := byteMask mask
  (new &&& m) ||| (old &&& ~~~m)

def byteResult (o : Operands) (new : Vec) : M Result := return Result.ofV (byteMerge o.mask o.oldV new)

def vlogBody (o : Operands) : M Result := byteResult o (logicOp (o.f % 8) o.a o.b)

/-- VLOG on v registers (R138). -/
def execVlog (w : Slot) (s : State) : Outcome := runSlot 0x35 w vlogBody s

/-- Predicate n of bank k. -/
def bankPred (n : BitVec 6) (k : BitVec 2) : BitVec 7 := k ++ n.setWidth 5

def vlogPBody (o : Operands) : M Result := do
  let k := o.slot.f.extractLsb' 0 2
  let new := logicOp (o.f / 4 % 4) (o.regs.getP (bankPred o.slot.a k)) (o.regs.getP (bankPred o.slot.b k))
  return Result.ofP (predMerge o.mask (o.regs.getP (lowPredDest o.slot)) new)

/-- VLOG on predicates (R138). -/
def execVlogP (w : Slot) (s : State) : Outcome := runSlot 0x35 w vlogPBody s

/-- A VCMP condition on one pair of elements of a type (R139). -/
def vcmpHolds (t c a b : Nat) : Bool × Flags :=
  if t < 3 then
    let x := Val.read (typeFmt t) a
    let y := Val.read (typeFmt t) b
    let un := x.isNan || y.isNan
    let h : Bool := match c with
      | 0 => x.eqv y
      | 1 => !x.eqv y
      | 2 => x.lt y
      | 3 => !un && !y.lt x
      | 4 => y.lt x
      | 5 => !un && !x.lt y
      | 6 => un
      | _ => !un
    (h, x.sigFlag ||| y.sigFlag)
  else
    let w := 8 * typeBytes t
    let h : Bool := match c with
      | 0 => a = b
      | 1 => a ≠ b
      | 2 => signedOf w a < signedOf w b
      | 3 => signedOf w a ≤ signedOf w b
      | 4 => a < b
      | 5 => a ≤ b
      | 6 => a &&& b ≠ 0
      | _ => a &&& b = 0
    (h, 0)

def vcmpBody (o : Operands) : M Result := do
  let t := (o.lit.getD 0).toNat % 8
  let g := typeBytes t
  let old := o.regs.getP (predDest o.slot)
  let ones := 2 ^ g - 1
  let l := (List.range (256 / g)).map fun i =>
    if o.mask.getLsbD (g * i) then
      let h := vcmpHolds t (o.f % 8) (elemBits (8 * g) o.a i) (elemBits (8 * g) o.b i)
      (if h.1 then ones else 0, h.2)
    else ((old.extractLsb' (g * i) g).toNat, 0)
  return Result.ofP (BitVec.ofNat 256 (packBits g (l.map Prod.fst))) (orFlags (l.map Prod.snd))

/-- VCMP (R139). -/
def execVcmp (w : Slot) (s : State) : Outcome := runSlot 0x3C w vcmpBody s

def vselBody (o : Operands) : M Result := byteResult o (byteMerge (o.regs.getP (o.slot.f.setWidth 7)) o.b o.a)

/-- VSEL (R140). -/
def execVsel (w : Slot) (s : State) : Outcome := runSlot 0x3D w vselBody s

/-! ### Conversion and quantisation (R141 to R143) -/

/-- The element formats that VCVT names. -/
inductive Elem where
  | float (f : Fmt)
  | int (w : Nat)
  | i4x | i2 | x8
deriving DecidableEq, Repr

def Elem.bits : Elem → Nat
  | .float f => f.width
  | .int w => w
  | .i4x => 4
  | .i2 => 2
  | .x8 => 8

/-- Source element si of a vector, with the flags of its decode (R38 to R40). -/
def Elem.take (e : Elem) (v : Vec) (si : Nat) : Val × Flags :=
  match e with
  | .float f => (Val.read f (elemBits f.width v si), 0)
  | .int w => (Val.ofInt (signedOf w (elemBits w v si)), 0)
  | .i4x => let d := decodeI4X (elemBits 8 v (si / 2)) (si % 2 = 1); (Val.ofInt d.1, flagIf d.2 Flags.reservedData)
  | .i2 => let d := decodeI2 (elemBits 2 v si); (Val.ofInt d.1, flagIf d.2 Flags.reservedData)
  | .x8 => readX8 (elemBits 8 v si)

/-- A value delivered in a format (R44). -/
def Elem.give (e : Elem) (mode : Rnd) (v : Val) : Nat × Flags :=
  let int (lo hi : Int) (w : Nat) : Nat × Flags :=
    let r := cvtInt lo hi mode v
    (wrapInt w r.1, r.2)
  match e with
  | .float f => cvtFloat f mode v
  | .int w => int (-(2 ^ (w - 1) : Nat)) (2 ^ (w - 1) - 1 : Nat) w
  | .i4x => int (-7) 7 4
  | .i2 => int (-1) 1 2
  | .x8 => cvtX8 v

/-- Destination and source of a VCVT pair (R141). -/
def vcvtPair (f : Nat) : Elem × Elem :=
  match f with
  | 0 => (.float bf16, .float fp32)
  | 1 => (.float fp16, .float fp32)
  | 2 => (.float fp32, .float bf16)
  | 3 => (.float fp32, .float fp16)
  | 4 => (.float fp16, .float bf16)
  | 5 => (.float bf16, .float fp16)
  | 6 => (.float e4m3, .float fp32)
  | 7 => (.float e5m2, .float fp32)
  | 8 => (.float fp32, .float e4m3)
  | 9 => (.float fp32, .float e5m2)
  | 10 => (.float e4m3, .float bf16)
  | 11 => (.float e5m2, .float bf16)
  | 12 => (.float bf16, .float e4m3)
  | 13 => (.float bf16, .float e5m2)
  | 14 => (.int 32, .float fp32)
  | 15 => (.float fp32, .int 32)
  | 16 => (.int 8, .float fp32)
  | 17 => (.float fp32, .int 8)
  | 18 => (.int 8, .float bf16)
  | 19 => (.float bf16, .int 8)
  | 20 => (.int 8, .int 32)
  | 21 => (.int 32, .int 8)
  | 22 => (.float bf16, .i4x)
  | 23 => (.float fp32, .i4x)
  | 24 => (.int 8, .i2)
  | 25 => (.float bf16, .i2)
  | 26 => (.float fp32, .x8)
  | _ => (.x8, .float fp32)

/-- Convert into a series of narrower elements: part p takes elements n·p to n·p + n − 1 (R142, R143). -/
def narrowInto (w n p : Nat) (mask : Pred) (old : Vec) (f : Nat → Nat × Flags) : Vec × Flags :=
  buildElems w old fun j =>
    if n * p ≤ j && j < n * p + n && mask.getLsbD (256 / n * (j - n * p)) then some (f (j - n * p)) else none

def vcvtBody (o : Operands) : M Result := do
  let (dst, src) := vcvtPair o.f
  let mode := modeOf o.regs (o.slot.b.toNat % 8)
  let p := o.slot.b.toNat / 8
  let n := 2048 / max src.bits dst.bits
  let conv (si : Nat) : Nat × Flags :=
    let v := src.take o.a si
    let r := dst.give mode v.1
    (r.1, v.2 ||| r.2)
  let r := if src.bits < dst.bits then lanewise (dst.bits / 8) o.mask o.oldV fun k => conv (n * p + k)
    else narrowInto dst.bits n p o.mask o.oldV conv
  return Result.ofV r.1 r.2

/-- VCVT (R141, R142). -/
def execVcvt (w : Slot) (s : State) : Outcome := runSlot 0x37 w vcvtBody s

/-- A VQNT target (R143). -/
def vqntTarget (t : Nat) : Elem :=
  match t with
  | 0 => .int 8
  | 1 => .i4x
  | 2 => .i2
  | 3 => .float e4m3
  | _ => .float e5m2

def vqntBody (o : Operands) : M Result := do
  let e := vqntTarget o.t
  let mode := shortMode o.regs o.m
  let p := (o.lit.getD 0).toNat % 16
  let scale := Val.read fp32 (o.xb.toNat % 2 ^ 32)
  let r := narrowInto e.bits 64 p o.mask o.oldV fun i =>
    let prod := (Val.read fp32 (elemBits 32 o.a i)).mul scale
    let y := e.give mode prod.1
    (y.1, prod.2 ||| y.2)
  return Result.ofV r.1 r.2

/-- VQNT (R143). -/
def execVqnt (w : Slot) (s : State) : Outcome := runSlot 0x41 w vqntBody s

/-! ### Scale and accumulate (R144) -/

def vscaBody (o : Operands) : M Result := do
  let form := o.f / 8
  let p := (o.lit.getD 0).toNat % 8
  let per := o.f % 2 = 1
  let x8 := o.f / 2 % 4 = 1
  let source : Elem := match form with
    | 0 => .float fp32
    | 1 => .int 32
    | _ => .i4x
  let mode := Rnd.ofCode o.regs.round.toNat
  laneResult 4 o fun i =>
    let a := source.take o.a (if form = 2 then 64 * p + i else i)
    let k := if per then i else 0
    let s := if x8 then readX8 (elemBits 8 o.b k) else (Val.read fp32 (elemBits 32 o.b k), 0)
    let y := finish fp32 mode (Val.fma mode a.1 s.1 (Val.read fp32 (elemBits 32 o.oldV i)))
    (y.1, a.2 ||| s.2 ||| y.2)

/-- VSCA (R144). -/
def execVsca (w : Slot) (s : State) : Outcome := runSlot 0x40 w vscaBody s

/-! ### Reductions (R145) -/

/-- The elements of A with masked-off ones replaced (R50). -/
def maskedElems (g : Nat) (mask : Pred) (ident : Nat) (v : Vec) : List Nat :=
  (List.range (256 / g)).map fun i => if mask.getLsbD (g * i) then elemBits (8 * g) v i else ident

/-- Levels of the tree over the elements of a type. -/
def typeLevels (t : Nat) : Nat :=
  match typeBytes t with
  | 4 => 6
  | 2 => 7
  | _ => 8

/-- The identity of a maximum or minimum (R50). -/
def minMaxIdentity (t : Nat) (isMax : Bool) : Nat :=
  if t < 3 then
    let f := typeFmt t
    if isMax then f.signBit + f.infBits else f.infBits
  else
    let w := 8 * typeBytes t
    if isMax then 2 ^ (w - 1) else 2 ^ (w - 1) - 1

/-- An element widened exactly to FP32. -/
def widen32 (f : Fmt) (p : Nat) : Nat × Flags := cvtFloat fp32 .nearest (Val.read f p)

/-- A floating sum in FP32, then its final rounding (R51, R145). -/
def redFloatSum (t : Nat) (mode : Rnd) (wide : Bool) (mask : Pred) (a : Vec) : Nat × Flags :=
  let f := typeFmt t
  let l := (maskedElems (typeBytes t) mask f.signBit a).map fun p => if t = 0 then (p, (0 : Flags)) else widen32 f p
  let r := treeAdd mode (typeLevels t) (l.map Prod.fst)
  let fl := orFlags (l.map Prod.snd) ||| r.2
  if t = 0 || wide then (r.1, fl)
  else
    let y := cvtFloat f mode (Val.read fp32 r.1)
    (y.1, fl ||| y.2)

/-- An integer sum, exact, then saturated to its width (R51, R145). -/
def redIntSum (t : Nat) (wide : Bool) (mask : Pred) (a : Vec) : Nat × Flags :=
  let w := 8 * typeBytes t
  let sum := ((maskedElems (typeBytes t) mask 0 a).map (signedOf w)).foldl (· + ·) 0
  fitInt (if wide then 32 else w) 1 sum

def redMinMax (t : Nat) (isMax : Bool) (mask : Pred) (a : Vec) : Nat × Flags :=
  let l := (maskedElems (typeBytes t) mask (minMaxIdentity t isMax) a).map fun p => (p, (0 : Flags))
  let op (x y : Nat × Flags) : Nat × Flags :=
    let r := minMaxElem t (if isMax then 1 else 0) x.1 y.1
    (r.1, x.2 ||| y.2 ||| r.2)
  tree op (0, 0) (typeLevels t) l

def vredBody (o : Operands) : M Result := do
  let mode := modeOf o.regs (o.slot.b.toNat % 8)
  let wide := o.slot.b.toNat / 8 % 2 = 1
  let r := match o.m with
    | 0 => if o.t < 3 then redFloatSum o.t mode wide o.mask o.a else redIntSum o.t wide o.mask o.a
    | k => redMinMax o.t (k = 1) o.mask o.a
  return Result.ofV (BitVec.ofNat 2048 r.1) r.2

/-- VRED (R145). -/
def execVred (w : Slot) (s : State) : Outcome := runSlot 0x38 w vredBody s

/-! ### Exponent and reciprocal functions, VRMX (R146, R147) -/

def unaryBody (f : Fmt → Rnd → Nat → Nat × Flags) (o : Operands) : M Result := do
  let mode := modeOf o.regs (o.slot.b.toNat % 8)
  let g := typeBytes o.t
  laneResult g o fun i => f (typeFmt o.t) mode (elemBits (8 * g) o.a i)

/-- VEXP (R146). -/
def execVexp (w : Slot) (s : State) : Outcome :=
  runSlot 0x39 w (unaryBody fun f r a => fExp f r (w.f.toNat % 4 = 1) a) s
/-- VRCP (R146). -/
def execVrcp (w : Slot) (s : State) : Outcome := runSlot 0x3A w (unaryBody fRecip) s
/-- VRSQ, reciprocal square root (R146). -/
def execVrsq (w : Slot) (s : State) : Outcome := runSlot 0x3B w (unaryBody fRsqrt) s
/-- VRSQ, square root (R146). -/
def execVsqrt (w : Slot) (s : State) : Outcome := runSlot 0x3B w (unaryBody fSqrt) s

def vrmxBody (o : Operands) : M Result := do
  let mode := shortMode o.regs (if o.f % 2 = 1 then 2 else 0)
  let g := typeBytes o.t
  laneResult g o fun i =>
    fRescale (typeFmt o.t) mode (o.f / 2 % 2 = 1) (elemBits (8 * g) o.a i) (elemBits (8 * g) o.b i)

/-- VRMX (R147). -/
def execVrmx (w : Slot) (s : State) : Outcome := runSlot 0x47 w vrmxBody s

/-! ### Permutes, broadcasts, index vectors, moves (R148 to R151) -/

/-- Destination element k of VPRM (R148). -/
def permElem (form g : Nat) (a b : Vec) (k : Nat) : Nat :=
  let w := 8 * g
  let n := 256 / g
  match form with
  | 0 => let i := elemBits w b k; if i < n then elemBits w a i else 0
  | 1 => elemBits w (if k % 2 = 0 then a else b) (k / 2)
  | 2 => elemBits w (if k % 2 = 0 then a else b) (n / 2 + k / 2)
  | 3 => if k < n / 2 then elemBits w a (2 * k) else elemBits w b (2 * k - n)
  | _ => if k < n / 2 then elemBits w a (2 * k + 1) else elemBits w b (2 * k - n + 1)

def vprmBody (o : Operands) : M Result := do
  let g := 2 ^ o.m
  laneResult g o fun k => (permElem o.t g o.a o.b k, 0)

/-- VPRM (R148). -/
def execVprm (w : Slot) (s : State) : Outcome := runSlot 0x3E w vprmBody s

/-- One value in every element (R149). -/
def broadcastBody (value : Operands → Word) (o : Operands) : M Result := do
  let g := 2 ^ o.m
  laneResult g o fun _ => ((value o).toNat % 2 ^ (8 * g), 0)

/-- The immediate of VBRD (R149). -/
def vbrdImmediate (o : Operands) : Word :=
  match o.lit with
  | none => o.slot.a.setWidth 64
  | some l => (l ++ o.slot.a).signExtend 64

/-- VBRD of a scalar (R149). -/
def execVbrd (w : Slot) (s : State) : Outcome := runSlot 0x3F w (broadcastBody Operands.xa) s
/-- VBRD of an immediate (R149). -/
def execVbrdImm (w : Slot) (s : State) : Outcome := runSlot 0x3F w (broadcastBody vbrdImmediate) s

def viotBody (o : Operands) : M Result := do
  let g := 2 ^ o.m
  let step := if o.f / 4 % 2 = 1 then o.xb.toNat else 1
  laneResult g o fun i => ((o.xa.toNat + i * step) % 2 ^ (8 * g), 0)

/-- VIOT (R150). -/
def execViot (w : Slot) (s : State) : Outcome := runSlot 0x46 w viotBody s

/-- VMOV, the copy form (R151). -/
def execVmov (w : Slot) (s : State) : Outcome := runSlot 0x45 w (fun o => byteResult o o.a) s

/-- The predicate that A and F[1:0] name (R151, R152). -/
def Operands.namedPred (o : Operands) : Pred := o.regs.getP (bankPred o.slot.a (o.slot.f.extractLsb' 0 2))

/-- vmov.fp (R151). -/
def execVmovFp (w : Slot) (s : State) : Outcome := runSlot 0x45 w (fun o => byteResult o (o.namedPred.setWidth 2048)) s

/-- vmov.exp (R151). -/
def execVmovExp (w : Slot) (s : State) : Outcome := runSlot 0x45 w (fun o => byteResult o (byteMask o.namedPred)) s

def vmovTpBody (o : Operands) : M Result := do
  return Result.ofP (predMerge o.mask (o.regs.getP (lowPredDest o.slot)) (o.a.setWidth 256))

/-- vmov.tp (R151). -/
def execVmovTp (w : Slot) (s : State) : Outcome := runSlot 0x45 w vmovTpBody s

def vmovInsBody (o : Operands) : M Result := do
  let lane := o.slot.b.toNat
  let r := buildElems 64 o.oldV fun i =>
    if i = lane && o.mask.getLsbD (8 * lane) then some (o.xa.toNat, 0) else none
  return Result.ofV r.1

/-- vmov.ins (R151). -/
def execVmovIns (w : Slot) (s : State) : Outcome := runSlot 0x45 w vmovInsBody s

/-! ### The mask stack (R18, R30, R152) -/

def setMasks (o : Operands) (l : List Pred) : M Result := do
  modSeq o.who fun q => { q with now := { q.now with masks := l } }
  return {}

def vmpsBody (o : Operands) : M Result := do
  raiseIf (8 ≤ o.regs.masks.length) 0x048
  setMasks o ((o.namedPred &&& o.mask) :: o.regs.masks)

def vmivBody (o : Operands) : M Result := do
  match o.regs.masks with
  | [] => raise 0x049
  | top :: rest => setMasks o ((~~~top &&& rest.headD (BitVec.allOnes 256)) :: rest)

def vmppBody (o : Operands) : M Result := do
  match o.regs.masks with
  | [] => raise 0x049
  | _ :: rest => setMasks o rest

/-- VMPS (R152). -/
def execVmps (w : Slot) (s : State) : Outcome := runSlot 0x42 w vmpsBody s
/-- VMIV (R152). -/
def execVmiv (w : Slot) (s : State) : Outcome := runSlot 0x43 w vmivBody s
/-- VMPP (R152). -/
def execVmpp (w : Slot) (s : State) : Outcome := runSlot 0x44 w vmppBody s

end Sys2Proof.Machine
end

