-- ==== Sys2Proof/Machine/Cards.lean ====
section
/-! DEFINITION. Cards at their engines: the order in which they are served, the die copy channel (spec 13 R274, R279), and the
collective engine (spec 20 R413 to R415). A card's work is performed whole at its event; its completion record follows it. -/

namespace Sys2Proof.Machine

/-! ### Service order and ends (R279, R288) -/

/-- The pseudo-channel of a selector on a die (R370). -/
def selectedPc (die pcsel : Nat) : Nat := (2 * die + pcsel / 16 % 2) * 32 + 2 * (pcsel % 16) + pcsel / 32

/-- The pseudo-channel of a BANKMAC or ATTN card. -/
def Entry.towerPc (die : Nat) (e : Entry) : Option Nat :=
  if e.card = some kindBankmac then some (selectedPc die (BankMac.ofCard e.cardBytes).pcsel)
  else if e.card = some kindAttn then some (selectedPc die (Attention.ofCard e.cardBytes).pcsel)
  else none

/-- A card whose rows a pseudo-channel does beside its bank units. -/
def Entry.isRow (e : Entry) : Bool := e.card = some kindRowzero || e.card = some kindRowcopy

/-- The card engine or tower unit that a card goes to, which is the agent of its accesses (R316). -/
def Entry.unit (die : Nat) (e : Entry) : CardUnit :=
  let tower : Fin 8 := Fin.ofNat 8 ((e.towerPc die).getD (64 * die) / 32)
  match e.card.map BitVec.toNat with
  | some 0x02 => .collective
  | some 0x10 => .bankMac tower
  | some 0x11 => .attention tower
  | some 0x12 => .row tower
  | some 0x13 => .row tower
  | some 0x20 => .migration
  | _ => .copy

/-- The first of some cards in the order in which engines serve them: highest PRIO, graphs round robin, lowest serial number. -/
def Die.firstCard (d : Die) (p : Entry → Bool) : Option Entry :=
  ([3, 2, 1, 0].flatMap fun l => (roundRobin d.cardLast).flatMap fun g =>
    d.table.filter fun e => e.graph == g && e.prio == l && p e).head?

/-- The next card that an engine takes; none while the die issues nothing (R399, R400). -/
def State.nextCard (s : State) (die : Nat) (p : Entry → Bool) : Option Entry :=
  if s.noIssue die then none else (s.die die).firstCard fun e => e.cardReady && p e

/-- Is it a card's turn at an engine that runs one card at a time: it is in progress there, or the engine is free and takes it
next? -/
def State.cardTurn (s : State) (die : Nat) (e : Entry) (p : Entry → Bool) : Bool :=
  e.status = .issued
    || (!((s.die die).table.any fun y => p y && y.status = .issued)
        && match s.nextCard die p with
          | some y => y.serial == e.serial
          | none => false)

/-- A card issues to its engine, whose T becomes the scheduler time (R330); one in progress goes on. -/
def State.issueCard (s : State) (die : Nat) (e : Entry) : State :=
  if e.status = .issued then s
  else
    let s := s.modEntry die e.serial fun y => { y with status := .issued, start := s.stamp, since := s.stamp }
    (s.setDie die { s.die die with cardLast := e.graph }).startUnit die (e.unit die)

/-- The end of a card (R288): bytes done, and the cause of a failure. -/
def cardEnd (now : Word) (bytes : Nat) (fail : Option Cause) : EndInfo :=
  let st : BitVec 4 := match fail with
    | none => 1
    | some _ => if bytes = 0 then 2 else 3
  { state := st, cause := fail.getD 0, unit := 1, wmark := bytes, pstatus := 0, whereC := 0, stamp := now }

/-- A card has finished; the scheduler time covers its unit's T (R330, R334). -/
def State.finishCard (s : State) (die serial bytes : Nat) (fail : Option Cause) : State :=
  let s := match s.entry die serial with
    | some e => s.endUnit die (e.unit die)
    | none => s
  s.modEntry die serial fun y =>
    { y with status := .ended (cardEnd s.stamp bytes fail), start := if y.start = 0 then s.stamp else y.start }

/-- A card of a kind that stands ready or issued. -/
def State.cardAt (s : State) (die serial : Nat) (kind : BitVec 8) : Option Entry :=
  match s.entry die serial with
  | some e => if e.card = some kind && (e.cardReady || e.status = .issued) then some e else none
  | none => none

/-- Has a card's engine been retired (R273)? -/
def Die.gone (d : Die) (kind : BitVec 8) : Bool := d.retiredEngines.contains kind

/-- A card that cannot go on now changes nothing but what waits: the slices' queues, the networks with what it sent, and its
request without a response (R348, R367, R368, R406). -/
def State.noteQueued (s s' : State) (die serial : Nat) : State :=
  let s : State := { s with nets := s'.nets, pcs := s.pcs.map fun e =>
    (e.1, { e.2 with queuedAt := (s'.pcAt e.1).queuedAt, queue := (s'.pcAt e.1).queue }) }
  s.modEntry die serial fun e => { e with sent := (s'.entry die serial).bind Entry.sent }

/-- Bytes of a card in progress that are done. -/
def State.markDone (s : State) (die serial bytes : Nat) : State := s.modEntry die serial fun e => { e with doneBytes := bytes }

/-! ### The die copy channel (R274) -/

/-- How a run of bytes ends. -/
inductive CopyRun where
  | done (s : State)
  | fails (s : State) (off : Nat) (code : Cause)
  | blocked (s : State) (off : Nat)

/-- Bytes left to the end of a line. -/
def toLine (a : Nat) : Nat := 128 - a % 128

/-- One piece of a copy by a card engine. -/
def copyPiece (die src dst n : Nat) : M Unit := do
  let l ← readGlobal (.engine die .copy) .fabric 1 (src % 2 ^ 64) n
  writeGlobal (.engine die .copy) .fabric 1 (dst % 2 ^ 64) l

/-- Copy bytes in ascending order, in pieces within a line of both sides and no longer than the distance at which written
bytes become source bytes (R198). -/
def copyRun (die serial src dst len : Nat) : Nat → Nat → State → CopyRun
  | 0, _, s => .done s
  | fuel + 1, off, s =>
    if len ≤ off then .done s
    else
      let n := min (len - off) (min (toLine (src + off)) (toLine (dst + off)))
      let n := if src < dst && dst < src + len then min n (dst - src) else n
      match s.tryFor die serial (copyPiece die (src + off) (dst + off) n) with
      | .ok _ s => copyRun die serial src dst len fuel (off + n) s
      | .fails s c => .fails s off c
      | .waits s => .blocked s off

/-- Suspect bytes at and past the watermark: each is its old value or the copied one, as free values say (R199, R289). -/
def suspectRun (die src dst draw : Nat) : List Nat → State → State
  | [], s => s
  | i :: rest, s =>
    let s := if Config.suspectCopied draw i then
        match (copyPiece die (src + i) (dst + i) 1).on s with
        | (.ok _, s') => s'
        | (.error _, _) => s
      else s
    suspectRun die src dst draw rest s

/-- DIE_COPY_CARD (R274). -/
def execDieCopyCard (die : Fin 4) (serial : Nat) (s : State) : Outcome :=
  match s.cardAt die serial kindCopy with
  | none => .next s
  | some e =>
    if !s.cardTurn die e (fun y => y.card = some kindCopy) then .next s
    else if (s.die die).gone kindCopy then .next ((s.issueCard die e).finishCard die serial e.doneBytes (some 0x150))
    else
      let c := e.cardBytes
      let src := (wordAt c 0x40).toNat
      let dst := (wordAt c 0x48).toNat
      let len := (wordAt c 0x50).toNat
      match copyRun die serial src dst len len e.doneBytes (s.issueCard die e) with
      | .done s => .next (s.finishCard die serial len none)
      | .blocked s off => .next (s.markDone die serial off)
      | .fails s off code =>
        let draw := s.free
        let s := suspectRun die src dst draw ((List.range (len - off)).map (off + ·)) { s with free := draw + 1 }
        .next (s.finishCard die serial off (some code))

/-! ### Collectives (R413 to R415) -/

/-- The member list of a collective card. -/
def readMembers (die : Nat) (k : Collective) : M (List Nat) := do
  return memberList (← readGlobal (.engine die .collective) .fabric 0 k.mlist (2 * k.members)) k.members

/-- A local member of a group: die, entry, card. -/
structure Member where
  die : Fin 4
  entry : Entry
  card : Collective

/-- The issued collective card of a die that belongs to a group: same TAG, same list, and its group has not run yet. -/
def State.memberOf (s : State) (tag : Nat) (list : List Nat) (die : Fin 4) : Option Member :=
  (s.die die).table.findSome? fun e =>
    if e.card = some kindCollective && e.status = .issued && e.gathered.isNone then
      let k := Collective.ofCard e.cardBytes
      match (readMembers die k).on s with
      | (.ok l, _) => if k.tag = tag && l = list then some ⟨die, e, k⟩ else none
      | (.error _, _) => none
    else none

/-- One member's part: local, or as its contribution arrived; none until its card has issued. -/
inductive Part where
  | here (m : Member)
  | there (m : RemoteMember)

/-- The contribution of another package's member to a group: same TAG, same list. -/
def State.contributionOf (s : State) (tag : Nat) (list : List Nat) (member : Nat) : Option RemoteMember :=
  s.contributions.find? fun r => r.pkg = member / 4 && r.die = member % 4 && r.tag = tag && r.list = list

/-- The part of a list entry. -/
def State.partOf (s : State) (tag : Nat) (list : List Nat) (member : Nat) : Option Part :=
  if member / 4 = s.sirxon.package.toNat then (s.memberOf tag list (Fin.ofNat 4 member)).map .here
  else (s.contributionOf tag list member).map .there

/-- Is a member in a package that gives a die's collective engine no response? -/
def State.memberSilent (s : State) (die member : Nat) : Bool :=
  member / 4 ≠ s.sirxon.package.toNat && !fabricResponds s.nets (s.nets.entry (.engine die .collective)) (member / 4)

/-- Has a member failed, or can its contribution not come: its package gives no response (R415)? -/
def State.memberLost (s : State) (die tag : Nat) (list : List Nat) (member : Nat) : Bool :=
  match s.contributionOf tag list member with
  | some r => member / 4 ≠ s.sirxon.package.toNat && r.failed
  | none => s.memberSilent die member

def Part.op : Part → Nat
  | .here m => m.card.op
  | .there m => m.op
def Part.len : Part → Nat
  | .here m => m.card.len
  | .there m => m.len

/-- The local members among parts. -/
def localMembers (ps : List Part) : List Member :=
  ps.filterMap fun p => match p with
    | .here m => some m
    | .there _ => none

/-- A range in pieces of one 64 KiB page each. -/
def pageSpans (va n : Nat) : List (Nat × Nat) :=
  (List.range (if n = 0 then 0 else (va % 65536 + n + 65535) / 65536)).map fun i =>
    let lo := if i = 0 then va else (va / 65536 + i) * 65536
    (lo, min (va + n) ((va / 65536 + i + 1) * 65536) - lo)

/-- Bytes of DST at and past the watermark are suspect: free values, where they can be written (R415, log entry 5). -/
def State.suspectDst (s : State) (die dst len done : Nat) : State :=
  let draw := s.free
  (pageSpans (dst + done) (len - done)).foldl (fun (s : State) p =>
    let l : List Byte := (List.range p.2).map fun i => Config.suspectByte draw (p.1 - dst + i)
    match (writeGlobal (.engine die .collective) .fabric 0 p.1 l).on s with
    | (.ok _, s') => s'
    | (.error _, _) => s) { s with free := draw + 1 }

/-- A member's card ends by a failure, at the bytes it has done. -/
def State.endMember (s : State) (m : Member) (code : Cause) : State :=
  (s.suspectDst m.die m.card.dst m.card.len m.entry.doneBytes).finishCard m.die m.entry.serial m.entry.doneBytes (some code)

/-- Every local member named ends with a cause. -/
def State.failMembers (s : State) (ms : List Member) (code : Cause) : State :=
  ms.foldl (fun (s : State) m => s.endMember m code) s

/-- How the reading of every member's SRC in rank order goes. -/
inductive Parts where
  | ok (l : List (List Byte)) (s : State)
  | fails (s : State) (m : Member) (code : Cause)
  | waits (s : State)

def readParts : List Part → State → Parts
  | [], s => .ok [] s
  | .there m :: rest, s =>
    match readParts rest s with
    | .ok l s => .ok (m.data :: l) s
    | x => x
  | .here m :: rest, s =>
    match s.tryFor m.die m.entry.serial (readGlobal (.engine m.die .collective) .fabric 0 m.card.src m.card.len) with
    | .fails s c => .fails s m c
    | .waits s => .waits s
    | .ok b s =>
      match readParts rest s with
      | .ok l s => .ok (b :: l) s
      | x => x

/-- Levels of the tree over n inputs (R50). -/
def treeLevels (n : Nat) : Nat := if n ≤ 1 then 0 else (n - 1).log2 + 1

/-- The R50 tree of an operation over inputs, padded with its identity. -/
def paddedTree (op : Nat → Nat → Nat) (ident : Nat) (l : List Nat) : Nat :=
  let levels := treeLevels l.length
  tree op ident levels (l ++ List.replicate (2 ^ levels - l.length) ident)

/-- FP32 sum of a group (R50). -/
def groupSum (l : List Nat) : Nat := paddedTree (fun a b => (fAdd fp32 .nearest a b).1) 0x80000000 l

/-- Bytes of an element of an operation. -/
def collectiveWidth (op : Nat) : Nat := if op = 1 then 2 else 4

/-- The reduction of one element over the members, in rank order (R413). -/
def collectiveElem (op : Nat) (l : List Nat) : Nat :=
  match op with
  | 0 => groupSum l
  | 1 => ((Val.read fp32 (groupSum (l.map fun p => (widen32 bf16 p).1))).round bf16 .nearest).1
  | 2 => paddedTree (fun a b => (fMinMax fp32 true a b).1) 0xFF800000 l
  | 3 => paddedTree (fun a b => (fMinMax fp32 false a b).1) 0x7F800000 l
  | _ => paddedTree (fun a b => (a + b) % 2 ^ 32) 0 l

/-- The bytes that every DST receives. -/
def collectiveResult (op len : Nat) (srcs : List (List Byte)) : List Byte :=
  if op = 5 then srcs.headD []
  else
    let w := collectiveWidth op
    (List.range (len / w)).flatMap fun i =>
      leBytes w (collectiveElem op (srcs.map fun b => fromLe ((b.drop (w * i)).take w)))

/-- Write DST in ascending order from an offset on; the end is that of the card, or the bytes written so far while it waits. -/
def writeDst (die serial dst : Nat) (l : List Byte) : Nat → Nat → State → State
  | 0, off, s => s.finishCard die serial off none
  | fuel + 1, off, s =>
    if l.length ≤ off then s.finishCard die serial off none
    else
      match s.tryFor die serial (writeGlobal (.engine die .collective) .fabric 0 (dst + off) ((l.drop off).take 128)) with
      | .ok _ s => writeDst die serial dst l fuel (off + 128) s
      | .fails s c => (s.suspectDst die dst l.length off).finishCard die serial off (some c)
      | .waits s => s.markDone die serial off

/-- Every local member's DST is written. -/
def State.writeMembers (s : State) (l : List Byte) (ms : List Member) : State :=
  ms.foldl (fun (s : State) m => writeDst m.die m.entry.serial m.card.dst l (l.length + 1) m.entry.doneBytes s) s

/-- The contributions to a group have been used, or its card has ended. -/
def State.dropParts (s : State) (tag : Nat) (list : List Nat) : State :=
  { s with contributions := s.contributions.filter fun r => !(r.tag = tag && r.list = list) }

/-- A member's card has ended without success: contributions to its group, whose list may not be readable, serve no later card. -/
def State.dropGroup (s : State) (tag member : Nat) (list : Option (List Nat)) : State :=
  match list with
  | some l => s.dropParts tag l
  | none => { s with contributions := s.contributions.filter fun r => !(r.tag = tag && r.list.contains member) }

/-- The result stands for every member, whose input is not read again. -/
def State.gather (s : State) (ms : List Member) (l : List Byte) : State :=
  ms.foldl (fun (s : State) m => s.modEntry m.die m.entry.serial fun e => { e with gathered := some l }) s

/-- A group runs once every member's card has issued (R414); its failures are those of R415. -/
def runCollective (op : Nat) (die : Fin 4) (serial : Nat) (s : State) : Outcome :=
  match s.cardAt die serial kindCollective with
  | none => .next s
  | some e =>
    let k := Collective.ofCard e.cardBytes
    let me : Member := ⟨die, e, k⟩
    if e.status ≠ .issued || k.op ≠ op then .next s
    else
      match s.tryFor die serial (readMembers die k) with
      | .fails s c => .next (s.endMember me c)
      | .waits s => .next s
      | .ok list s =>
        let parts := list.map (s.partOf k.tag list)
        let ms := localMembers (parts.filterMap id)
        match e.gathered with
        | some l => .next (if list.any (s.memberSilent die) then s.endMember me 0x283 else s.writeMembers l [me])
        | none =>
          match list.any (s.memberLost die k.tag list), allSome parts with
          | true, _ => .next ((s.failMembers ms 0x283).dropParts k.tag list)
          | false, none => .next s
          | false, some ps =>
            if !ms.any fun m => m.die = die && m.entry.serial = serial then .next s
            else if ps.any fun p => p.op ≠ k.op || p.len ≠ k.len then .next ((s.failMembers ms 0x285).dropParts k.tag list)
            else
              match readParts ps s with
              | .waits s => .next s
              | .fails s m c =>
                .next (((s.failMembers (ms.filter fun x => x.die ≠ m.die) 0x283).endMember m c).dropParts k.tag list)
              | .ok srcs s =>
                let l := collectiveResult k.op k.len srcs
                .next (((s.gather ms l).writeMembers l ms).dropParts k.tag list)

/-- COLLECTIVE_SUM_FP32 (R413, R414). -/
def execCollectiveSumFp32 (die : Fin 4) (serial : Nat) (s : State) : Outcome := runCollective 0 die serial s
/-- COLLECTIVE_SUM_BF16 (R413, R414). -/
def execCollectiveSumBf16 (die : Fin 4) (serial : Nat) (s : State) : Outcome := runCollective 1 die serial s
/-- COLLECTIVE_MAX (R413, R414). -/
def execCollectiveMax (die : Fin 4) (serial : Nat) (s : State) : Outcome := runCollective 2 die serial s
/-- COLLECTIVE_MIN (R413, R414). -/
def execCollectiveMin (die : Fin 4) (serial : Nat) (s : State) : Outcome := runCollective 3 die serial s
/-- COLLECTIVE_SUM_INT32 (R413, R414). -/
def execCollectiveSumInt32 (die : Fin 4) (serial : Nat) (s : State) : Outcome := runCollective 4 die serial s
/-- COLLECTIVE_BROADCAST (R413, R414). -/
def execCollectiveBroadcast (die : Fin 4) (serial : Nat) (s : State) : Outcome := runCollective 5 die serial s

/-- The members of this package that wait on a member that has ended without success take 0x283 (R415): those whose card issued
by then with its TAG and a list that names its die, and is its list where that can be read. -/
def State.failWaiters (s : State) (die : Fin 4) (e : Entry) (f : EndInfo) : State :=
  let k := Collective.ofCard e.cardBytes
  let list : Option (List Nat) := match (readMembers die k).on s with
    | (.ok l, _) => some l
    | (.error _, _) => none
  let waits (s : State) (d : Fin 4) (y : Entry) : Bool :=
    d ≠ die && y.card = some kindCollective && y.status = .issued && y.since.toNat ≤ f.stamp.toNat
      && (Collective.ofCard y.cardBytes).tag = k.tag && match (readMembers d (Collective.ofCard y.cardBytes)).on s with
        | (.ok l, _) => l.contains (4 * s.sirxon.package.toNat + die) && (list.isNone || list = some l)
        | (.error _, _) => false
  let s := (List.finRange 4).foldl (fun (s : State) (d : Fin 4) => (s.die d).table.foldl (fun (s : State) y =>
    if waits s d y then s.endMember ⟨d, y, Collective.ofCard y.cardBytes⟩ 0x283 else s) s) s
  s.dropGroup k.tag (4 * s.sirxon.package.toNat + die) list

/-- COLLECTIVE_WAIT_LIMIT (R415): LIMIT ms after this card issued some member's card has not; this one ends with 0x284, and
the members that wait on it with 0x283. -/
def execCollectiveWaitLimit (die : Fin 4) (serial : Nat) (s : State) : Outcome :=
  match s.cardAt die serial kindCollective with
  | none => .next s
  | some e =>
    let k := Collective.ofCard e.cardBytes
    let me : Member := ⟨die, e, k⟩
    if e.status ≠ .issued || e.gathered.isSome || s.stamp.toNat < e.since.toNat + k.limit * 1000000 then .next s
    else
      match (readMembers die k).on s with
      | (.error _, _) => .next (s.endMember me 0x284)
      | (.ok list, _) =>
        let parts := list.map (s.partOf k.tag list)
        if (allSome parts).isSome then .next s
        else
          let others := (localMembers (parts.filterMap id)).filter fun m => m.die ≠ die
          .next (((s.failMembers others 0x283).endMember me 0x284).dropParts k.tag list)

/-! ### Completion records (R288) -/

/-- Has a task a weight load whose source is still to be read (R276, R288)? -/
def State.stillReads (s : State) (e : Entry) : Bool :=
  match e.ranOn with
  | some c => (coresOf c).any fun i => (s.core i).loads.any fun l => l.serial = some e.serial
  | none => false

/-- A task's accesses are performed at die scope: is it done? -/
def State.settle (s : State) (die : Nat) (e : Entry) : State × Bool :=
  match e.ranOn with
  | some c => s.settleCluster die c
  | none => (s, true)

/-- COMPLETION_RECORD_WRITE (R288): the entry has ended and its accesses are performed at die scope; a migration that withdrew
pages is reported only when no copy of them can be left (R352). -/
def execCompletionRecordWrite (die : Fin 4) (serial : Nat) (s : State) : Outcome :=
  match s.entry die serial with
  | none => .next s
  | some e =>
    match e.finished s.stamp with
    | none => .next s
    | some f =>
      if s.stillReads e || s.cycle < e.due then .next s
      else
        match s.settle die e with
        | (s, false) => .next s
        | (s, true) =>
          let suspect := (f.state = 2 || f.state = 3) && e.regions.any fun r => r.wr
          match s.putRecord die e.compl serial (recordHead serial e.card e.start suspect f) with
          | (s, false) => .next s
          | (s, true) =>
            let s := if e.card = some kindCollective && f.state ≠ 1 then s.failWaiters die e f else s
            let s := s.release die serial
            .next (s.setDie die ((s.die die).leave serial f s.stamp s.sirxon.stopped))

end Sys2Proof.Machine
end

