-- ==== Sys2Proof/Machine/Migration.lean ====
section
/-! DEFINITION. The migration engine, splintering and Sirxon's residency service (spec 17 R352 to R358). A page moves whole at
its event, so MIG and SPL are never seen set between steps; a page that has to wait leaves the card where it is. -/

namespace Sys2Proof.Machine

/-! ### Splintering (R353) -/

/-- Take a block of table space from the reserved pool. -/
def Die.takeTable (d : Die) : Option (Nat × Die) :=
  match d.tables with
  | [] => none
  | a :: t => some (a, { d with tables := t })

/-- Write a table of leaves that cover an old leaf. -/
def State.writeTable (s : State) (die table level : Nat) (e : Word) : State :=
  let step := 2 ^ levelShift level
  s.writePa die table ((List.range (levelEntries level)).flatMap fun i =>
    wordBytes (mkLeaf (pteRes e) (pteW e) (pteRd e) false false false (pteAddr e + i * step)))

/-- A block of table space from the reserved pool, whose lines can be written (R353, R366). -/
def newTable (ag : Agent) (die va : Nat) : M (Nat × Die) := do
  match (← getDie die).takeTable with
  | none => raise 0x0C8
  | some (t, _) =>
    needRows ag die va ((List.range 8).map fun i => t + 512 * i)
    match (← getDie die).takeTable with
    | none => raise 0x0C8
    | some x => return x

/-- The leaf that a walk for a page finds, or the cause it meets: the walk's reads go through the slices (R351). -/
def findPage (ag : Agent) (die va : Nat) : M (Nat × Nat × Word) := do
  match ← translate ag die (va % 2 ^ 50) va with
  | .unmapped => raise 0x0C1 (BitVec.ofNat 64 va)
  | .malformed => raise 0x0C7 (BitVec.ofNat 64 va)
  | .unreadable pa =>
    modify fun s => s.addError die pa va srcWalk 3
    raise 0x242 (BitVec.ofNat 64 va)
  | .splintering => stall
  | .leaf level pa e => return (level, pa, e)

/-- The page's own 64 KiB leaf, larger ones splintered on the way; a leaf lies at most two levels above it. -/
def ownLeaf (ag : Agent) (die va : Nat) : Nat → M (Nat × Word)
  | 0 => do
    let (level, pa, e) ← findPage ag die va
    if level = 0 then return (pa, e) else stall
  | fuel + 1 => do
    let (level, pa, e) ← findPage ag die va
    match level with
    | 0 => return (pa, e)
    | l + 1 =>
      let (t, d) ← newTable ag die va
      needHome ag (.dram die pa) va .write
      modify fun s => ((s.setDie die d).writeTable die t l e).writeEntry die pa (mkPointer t)
      ownLeaf ag die va fuel

/-! ### Merging (R353) -/

/-- The entry of a level on the way to an offset that points to a table, with its PA. -/
def pointerAt (s : State) (die off target : Nat) : Nat → Nat → Option (Nat × Word)
  | level, t =>
    let pa := t + 8 * (off / 2 ^ levelShift level % levelEntries level)
    let e := wordOf (s.readPa die pa 8)
    if (s.die die).poison.contains (pa / 128) || !pteV e || pteMalformed level e || pteLeaf e then none
    else if level = target then some (pa, e)
    else match level with
      | 0 => none
      | l + 1 => pointerAt s die off target l (pteAddr e)

/-- The entries of a table of a level. -/
def State.tableOf (s : State) (die table level : Nat) : List Word :=
  (List.range (levelEntries level)).map fun i => wordOf (s.readPa die (table + 8 * i) 8)

/-- Resident leaves of a table with one set of rights over one aligned range of frames: what a larger leaf says of them. -/
def mergedLeaf (level : Nat) (es : List Word) : Option Word :=
  match es with
  | [] => none
  | e :: _ =>
    let plain (x : Word) : Bool := pteV x && pteLeaf x && pteRes x && !pteMalformed level x && !pteCmp x && !pteMig x && !pteSpl x
    let ok := es.zipIdx.all fun x =>
      plain x.1 && pteW x.1 = pteW e && pteRd x.1 = pteRd e && pteAddr x.1 = pteAddr e + x.2 * 2 ^ levelShift level
    if ok && pteAddr e % 2 ^ levelShift (level + 1) = 0 then some (mkLeaf true (pteW e) (pteRd e) false false false (pteAddr e)) else none

/-- Sirxon merges the leaves below an entry into one leaf (R353): no value changes; the leaves leave the TLBs (R352), and the table's
block goes back to the reserved pool. Nothing is done where they cannot be merged, or a compute phase keeps their entries. -/
def State.merge (s : State) (die off : Nat) (big : Bool) : State :=
  let level := if big then 1 else 0
  match pointerAt s die off (level + 1) 3 (s.die die).root with
  | none => s
  | some (pa, p) =>
    let t := pteAddr p
    let n := 8 * levelEntries level
    let busy := (pa :: (List.range 8).map fun i => t + 512 * i).any fun a => (s.pcAt (pcOf die a)).compute
    let spoilt := (s.die die).poison.any fun x => t ≤ 128 * x + 127 && 128 * x < t + n
    match busy || spoilt, mergedLeaf level (s.tableOf die t level) with
    | false, some e =>
      let d := s.die die
      let d := { d with tlbs := d.tlbs.map fun x => (x.1, x.2.filter fun y => !(t ≤ y.entryPa && y.entryPa < t + n)),
                        tables := if t % 4096 = 0 then d.tables ++ [t] else d.tables }
      (s.setDie die d).writeEntry die pa e
    | _, _ => s

/-! ### Pages (R356 to R358) -/

/-- The clusters whose caches or cores hold writes that have not reached their homes. -/
def State.writers (s : State) : List Nat :=
  ((s.clusters.filter fun e => !e.2.pending.isEmpty).map Prod.fst
    ++ (s.cores.filter fun e => !e.2.writePath.isEmpty).map fun e => clusterOf e.1).eraseDups

/-- Does a row card that has issued act on the page of a VA? -/
def State.rowsOpen (s : State) (va : Nat) : Bool :=
  match placeOf s va with
  | .home die off =>
    match walk s die off with
    | .leaf level _ e => (s.die die).table.any fun y =>
        y.status = .issued && y.pages.any fun p => p.1 = leafPa die off level e || p.2 = leafPa die off level e
    | _ => false
  | _ => false

/-- Every access to a range of VAs under its old entry is performed first (R352 step 3, R357): writes on their way reach their
home, and a row card on the page runs to its end. -/
def awaitWrites (va n : Nat) : M Unit := do
  let s ← get
  if s.rowsOpen va then stall
  match drainRange va n s.writers s with
  | (s, true) => set s
  | (s, false) =>
    set s
    stall

/-- The source of a page's migration: no line of it is poisoned (R358), and its rows can be read. -/
def pageSource (ag : Agent) (die va : Nat) (e : Word) : M Unit := do
  let s ← get
  let f := s.leafFrame die e
  let bad := if pteCmp e then s.poisonAt die (leafPa die 0 0 e) else ((s.die die).framePoison f).head?
  match bad with
  | some l =>
    set (s.addError die (128 * l) (if pteCmp e then va else va + 128 * (l - f * 512)) srcCard 3)
    raise 0x241 (BitVec.ofNat 64 va)
  | none => needRows ag die va (frameRows f)

/-- A frame from the free pool, whose rows can be written. -/
def destFrame (ag : Agent) (die va : Nat) : M (Nat × Die) := do
  match (← getDie die).takeFrame with
  | none => raise 0x0C8
  | some (f, _) =>
    needRows ag die va (frameRows f)
    match (← getDie die).takeFrame with
    | none => raise 0x0C8
    | some x => return x

/-- A page's bytes move from one home of its die to another, which becomes its leaf's: the slice's lines of the source go, the
destination is written whole, the monitors on the page are lost (R124), and the source frame is released. -/
def State.rehome (s : State) (die entryPa : Nat) (e : Word) (d : Die) (f : Nat) (cmp : Bool) : State :=
  let src := leafPa die 0 0 e
  let dst := if cmp then compressedPa die (f * 65536) else f * 65536
  let old := s.leafFrame die e
  let kib := ((tabFind (pteAddr e) (s.die die).compressed).map Prod.snd).getD 0
  let d := d.cleanFrame f
  let d := if pteCmp e then { d with compressed := tabDel (pteAddr e) d.compressed } else d
  let d := if cmp then { d with compressed := tabPut (f * 65536) (f, kib) d.compressed } else d
  let s := s.setDie die ((d.dropPage src).freeFrame old)
  let s := { s with dram := moveCells s.dram (dramKey die src) (dramKey die dst) 65536 }
  (s.loseMonitors (Home.dram die src).line).writeEntry die entryPa
    (mkLeaf (pteRes e) (pteW e) (pteRd e) cmp false false (f * 65536))

/-- OP 0 move. -/
def pageMove (ag : Agent) (die va entryPa : Nat) (e : Word) : M Unit := do
  raiseIf (!pteRes e) 0x0C3 (BitVec.ofNat 64 va)
  pageSource ag die va e
  let (f, d) ← destFrame ag die va
  modify fun s => s.rehome die entryPa e d f (pteCmp e)

/-- A page leaves its frames: its bytes, expanded, go nowhere on the die any more. -/
def State.takePage (s : State) (die : Nat) (e : Word) : State :=
  let pa := leafPa die 0 0 e
  let d := (s.die die).dropPage pa
  let d := if pteCmp e then d.releaseCompressed (pteAddr e) else d.freeFrame (pteAddr e / 65536)
  let s := (s.setDie die d).loseMonitors (Home.dram die pa).line
  { s with dram := clearBytes s.dram (dramKey die pa) 65536 }

/-- OP 1 evict. -/
def pageEvict (ag : Agent) (die va host entryPa : Nat) (e : Word) : M Unit := do
  pageSource ag die va e
  modify fun s =>
    let l := s.readPa die (leafPa die 0 0 e) 65536
    let s := ((s.takePage die e).putBytes (.host (host % 2 ^ 50)) l).writeEntry die entryPa
      (mkLeaf false (pteW e) (pteRd e) false false false 0)
    let d := s.die die
    s.setDie die { d with evicted := tabPut (va / 65536) host d.evicted }

/-- A page takes a frame and becomes resident: no request for it waits any more. -/
def Die.settlePage (d : Die) (va f : Nat) : Die :=
  { d.cleanFrame f with evicted := tabDel (va / 65536) d.evicted,
                        residency := d.residency.filter fun p => p ≠ va / 65536,
                        residencyFailed := d.residencyFailed.filter fun p => p ≠ va / 65536 }

/-- OP 2 fetch. -/
def pageFetch (ag : Agent) (die va host entryPa : Nat) (e : Word) : M Unit := do
  let (f, d) ← destFrame ag die va
  modify fun s =>
    let s := s.setDie die (d.settlePage va f)
    (s.writePa die (f * 65536) (readBytes s.hostMem (host % 2 ^ 50) 65536)).writeEntry die entryPa
      (mkLeaf true (pteW e) (pteRd e) false false false (f * 65536))

/-- OP 3 compress: a page that is not reducible to 48 KiB is skipped. -/
def pageCompress (ag : Agent) (die va entryPa : Nat) (e : Word) : M Unit := do
  raiseIf (!pteRes e) 0x0C3 (BitVec.ofNat 64 va)
  pageSource ag die va e
  let n := Config.compressedKiB ((← get).readPa die (pteAddr e) 65536)
  if n = 16 || n = 32 || n = 48 then
    let (f, d) ← destFrame ag die va
    modify fun s =>
      let s := s.rehome die entryPa e d f true
      s.setDie die { s.die die with compressed := tabPut (f * 65536) (f, n) (s.die die).compressed }

/-- OP 4 expand. -/
def pageExpand (ag : Agent) (die va entryPa : Nat) (e : Word) : M Unit := do
  pageSource ag die va e
  let (f, d) ← destFrame ag die va
  modify fun s => s.rehome die entryPa e d f false

/-- Is a page of an operation skipped before its leaf is touched (R356)? -/
def pageSkipped (op : Nat) (e : Word) : Bool :=
  (op = 1 && !pteRes e) || (op = 2 && pteRes e) || (op = 3 && pteCmp e) || (op = 4 && !(pteRes e && pteCmp e))

/-- One page of an operation: skipped, or its leaf splintered and the page moved. -/
def runPage (ag : Agent) (op die va host : Nat) : M Unit := do
  let (_, _, e) ← findPage ag die va
  if !pageSkipped op e then
    awaitWrites va 65536
    let (pa, e) ← ownLeaf ag die va 2
    match op with
    | 0 => pageMove ag die va pa e
    | 1 => pageEvict ag die va host pa e
    | 2 => pageFetch ag die va host pa e
    | 3 => pageCompress ag die va pa e
    | _ => pageExpand ag die va pa e

/-- How the pages of a card go: pages done, and the cause that stopped them, or a wait. -/
inductive PageRun where
  | ended (s : State) (n : Nat) (c : Option Cause)
  | waits (s : State) (n : Nat)

/-- Pages in ascending VA. -/
def runPages (op die serial va host : Nat) : Nat → Nat → State → PageRun
  | 0, i, s => .ended s i none
  | n + 1, i, s =>
    match s.tryFor die serial (runPage (.engine die .migration) op die (va + 65536 * i) (if host = 0 then 0 else host + 65536 * i)) with
    | .ok _ s => runPages op die serial va host n (i + 1) s
    | .fails s c => .ended s i (some c)
    | .waits s => .waits s i

/-- A migration card of an operation (R357). The end of an evict is reported when no copy of a page it withdrew can be left in a
cluster cache (R352). -/
def runMigration (op : Nat) (die : Fin 4) (serial : Nat) (s : State) : Outcome :=
  match s.cardAt die serial kindMigration with
  | none => .next s
  | some e =>
    let m := Migration.ofCard e.cardBytes
    if m.op ≠ op || !s.cardTurn die e (fun y => y.card = some kindMigration) then .next s
    else if (s.die die).gone kindMigration then .next ((s.issueCard die e).finishCard die serial e.doneBytes (some 0x150))
    else
      let i := e.doneBytes / 65536
      match runPages op die serial m.va m.host (m.npages - i) i (s.issueCard die e) with
      | .waits s n => .next (s.markDone die serial (65536 * n))
      | .ended s n c =>
        let s := s.finishCard die serial (65536 * n) c
        .next (if op = 1 && n ≠ 0 then s.modEntry die serial fun y => { y with due := s.cycle + Config.copyLife } else s)

/-- MIGRATION_MOVE (R356, R357). -/
def execMigrationMove (die : Fin 4) (serial : Nat) (s : State) : Outcome := runMigration 0 die serial s
/-- MIGRATION_EVICT (R356, R357). -/
def execMigrationEvict (die : Fin 4) (serial : Nat) (s : State) : Outcome := runMigration 1 die serial s
/-- MIGRATION_FETCH (R356, R357). -/
def execMigrationFetch (die : Fin 4) (serial : Nat) (s : State) : Outcome := runMigration 2 die serial s
/-- MIGRATION_COMPRESS (R355, R356). -/
def execMigrationCompress (die : Fin 4) (serial : Nat) (s : State) : Outcome := runMigration 3 die serial s
/-- MIGRATION_EXPAND (R355, R356). -/
def execMigrationExpand (die : Fin 4) (serial : Nat) (s : State) : Outcome := runMigration 4 die serial s

/-- RESIDENCY_REQUEST_SERVICE (R354): Sirxon serves its oldest request by a fetch from where the page's contents live: the
host address that its evict named, or the one it knows for a page that no migration evicted. -/
def execResidencyRequestService (die : Fin 4) (host : Word) (s : State) : Outcome :=
  let d := s.die die
  match d.residency with
  | [] => .next s
  | page :: rest =>
    let from_ := (tabFind page d.evicted).getD host.toNat
    let drop (s : State) (failed : Bool) : State :=
      let d := s.die die
      s.setDie die { d with residency := d.residency.filter fun p => p ≠ page,
                            residencyFailed := if failed then page :: d.residencyFailed else d.residencyFailed }
    match (runPage .sirxon 2 die (65536 * page) from_).on (s.setDie die { d with residency := rest }) with
    | (.ok _, s) => .next (drop s false)
    | (.error (.cause _ _ _), s) => .next (drop s true)
    | (.error _, s) => .next (s.setDie die { s.die die with residency := page :: (s.die die).residency })

end Sys2Proof.Machine
end

