-- ==== Sys2Proof/Machine/Thresher.lean ====
section
/-! DEFINITION. The thresher's checks of a code body (spec 03 R53 to R71, spec 01 R20 to R22, spec 04 R90 to R102, spec 14
R307): how a body falls into bundles, what one bundle may hold, its loops and branches, and which latches a path has
written. Each failure is a bundle, a slot position and a check code; the lowest of them is reported (R71, R302). -/

namespace Sys2Proof.Machine

/-- A failed check: VPC of the bundle, slot position (0 where the code names a bundle or a path, R418), check code. -/
structure Breach where
  vpc : Nat
  pos : Nat
  code : Nat
deriving DecidableEq, Repr

def Breach.before (a b : Breach) : Bool :=
  a.vpc < b.vpc || (a.vpc = b.vpc && (a.pos < b.pos || (a.pos = b.pos && a.code < b.code)))

/-- The failure that is reported: lowest bundle, then lowest position, then lowest code. -/
def firstBreach : List Breach → Option Breach
  | [] => none
  | b :: t => match firstBreach t with
    | none => some b
    | some c => if c.before b then some c else some b

/-! ### Bundles (R53) -/

/-- A slot of a bundle: its position, opcode and fields, and the literal of a LIT directly before it. -/
structure Placed where
  pos : Nat
  word : BitVec 32
  op : BitVec 7
  slot : Slot
  lit : Option (BitVec 24)

/-- Slots of a bundle in order. -/
def placeSlots : Nat → Option (BitVec 24) → List (BitVec 32) → List Placed
  | _, _, [] => []
  | pos, lit, w :: t =>
    let op : BitVec 7 := w.extractLsb' 24 7
    { pos := pos, word := w, op := op, slot := Slot.ofWord w, lit := lit }
      :: placeSlots (pos + 1) (if op = 1 then some (w.extractLsb' 0 24) else none) t

/-- A bundle: its VPC and slots. -/
structure Bundled where
  vpc : Nat
  slots : List Placed

/-- Cut a body at its stop bits: a bundle starts at the body's first slot and behind every slot with S = 1, however long the run
before it is. -/
def cutBundles : List (BitVec 32) → List (BitVec 32) → Nat → List Bundled
  | [], [], _ => []
  | [], cur, vpc => [⟨vpc, placeSlots 0 none cur⟩]
  | w :: t, cur, vpc =>
    let run := cur ++ [w]
    if w.getLsbD 31 then ⟨vpc, placeSlots 0 none run⟩ :: cutBundles t [] (vpc + 4 * run.length)
    else cutBundles t run vpc

/-- A run of eight slots with no stop bit, or one that the body ends inside (K-004). -/
def Bundled.unstopped (b : Bundled) : Bool :=
  8 < b.slots.length || match b.slots.getLast? with
    | some p => !p.word.getLsbD 31
    | none => true

def Placed.isPrefix (p : Placed) : Bool := p.op.toNat < 4

/-- The engine of an opcode (R69); none for a prefix. -/
def engineOf (op : Nat) : Option Engine :=
  if op < 8 then none
  else if op < 0x20 then some .x
  else if op < 0x30 then some .g
  else if op < 0x50 then some .v
  else if op < 0x60 then some .m
  else if op < 0x68 then some .k
  else some .y

def Placed.engine (p : Placed) : Option Engine := engineOf p.op.toNat
def Placed.form (p : Placed) : Option Form := if opAssigned p.op.toNat then Sys2Proof.form p.op p.slot p.lit.isSome else none

/-- The bundle's GUARD mask; 0 with none. -/
def Bundled.mask (b : Bundled) : BitVec 8 :=
  match b.slots.find? fun p => p.op = 2 with
  | some p => p.word.extractLsb' 8 8
  | none => 0

def Bundled.guarded (b : Bundled) (p : Placed) : Bool := b.mask.getLsbD p.pos

/-- The slots of the X engine: one, but for a bundle that K-006 refuses. -/
def Bundled.xSlots (b : Bundled) : List Placed := b.slots.filter fun p => p.engine = some .x && opAssigned p.op.toNat

/-- The VPC behind a bundle. -/
def Bundled.next (b : Bundled) : Nat := b.vpc + 4 * b.slots.length

/-! ### One bundle (R59 to R71) -/

/-- Registers a slot writes, numbered x from 0, v from 100, p from 200; x0 does not count (R67). The residency companion of
v[D] is 296 + D: VLD (R115), qpop.v (R120) and RECV (R250) write it. -/
def Placed.writes (p : Placed) : List Nat :=
  let d := p.slot.d.toNat
  let f := p.slot.f.toNat
  let o := p.op.toNat
  let base (code : BitVec 6) : List Nat :=
    if (p.lit.getD 0).getLsbD 21 && code.toNat ≠ 0 && code.toNat < 32 then [code.toNat] else []
  let dest : List Nat := match p.form with
    | none => []
    | some fm =>
      if p.slot.n then []
      else match fm.d with
        | .x => if d = 0 then [] else [d]
        | .v => [100 + d]
        | .pred => [200 + d + 32 * (f / 8)]
        | .predLow => [200 + d + 32 * (f % 4)]
        | _ => []
  let side : List Nat := match o with
    | 0x22 => base p.slot.a
    | 0x23 => base p.slot.b
    | 0x24 => base p.slot.a ++ [296 + d]
    | 0x25 => base p.slot.b
    | 0x2D => if f = 1 then [296 + d] else []
    | 0x6E => [296 + d]
    | _ => []
  dest ++ side

def codeIf (c : Bool) (n : Nat) : List Nat := if c then [n] else []

/-- The bits of a prefix that must be zero (R60). -/
def prefixZero (op : Nat) : BitVec 32 :=
  match op with
  | 0 => 0x00FFFFFF
  | 1 => 0x80000000
  | 2 => 0x8080007F
  | _ => 0x80FFFFE0

/-- Does a slot accept a literal (R62)? -/
def Placed.takesLit (p : Placed) : Bool :=
  opAssigned p.op.toNat && match Sys2Proof.form p.op p.slot true with
    | some fm => fm.lit
    | none => false

/-- Check codes of a prefix in its bundle. -/
def prefixCodes (b : Bundled) (before after : List Placed) (p : Placed) : List Nat :=
  let o := p.op.toNat
  let mask : BitVec 8 := p.word.extractLsb' 8 8
  let at_ (k : Nat) : Option Placed := b.slots[k]?
  let named : List (Option Placed) := ((List.range 8).filter fun k => mask.getLsbD k).map at_
  codeIf (o ≠ 0 && before.any fun q => !q.isPrefix) 5
    ++ codeIf (before.any fun q => q.op = p.op) 7
    ++ codeIf (o ≠ 0 && after.isEmpty) 8
    ++ codeIf (o = 1 && !(match after with
        | q :: _ => q.takesLit
        | [] => false)) 8
    ++ codeIf (o = 2 && (mask = 0 || named.any fun q => match q with
        | some q => q.isPrefix
        | none => true)) 9
    ++ codeIf (o = 3 && 6 ≤ p.word.toNat % 32) 10
    ++ codeIf (p.word &&& prefixZero o ≠ 0) 14
    ++ codeIf (o = 2 && named.any fun q => match q with
        | some q => q.op = 0x18 || q.op = 0x19
        | none => false) 15

/-- Check codes of an engine slot in its bundle; depth is the loop depth there. -/
def engineCodes (service : Bool) (depth : Nat) (before : List Placed) (p : Placed) : List Nat :=
  slotChecks p.op p.slot p.lit ++ imageKindChecks service p.op p.slot
    ++ codeIf (p.engine.isSome && before.any fun q => q.engine = p.engine) 6
    ++ codeIf (!p.writes.Nodup || p.writes.any fun r => before.any fun q => q.writes.contains r) 11
    ++ codeIf (p.op = 0x13 && (p.slot.f = 17 || p.slot.f = 18) && depth ≤ p.slot.b.toNat) 46

/-- Failures of the slots of a bundle. -/
def slotBreaches (service : Bool) (depth : Nat) (b : Bundled) : List Placed → List Placed → List Breach
  | _, [] => []
  | before, p :: after =>
    let codes := if p.isPrefix then prefixCodes b before after p else engineCodes service depth before p
    codes.map (fun c => (⟨b.vpc, p.pos, c⟩ : Breach)) ++ slotBreaches service depth b (before ++ [p]) after

/-- Does a slot produce a result of the M engine (R178), or is it a GATH? -/
def Placed.resultOf (e : Engine) (p : Placed) : Bool :=
  p.engine = some e && match p.form with
    | some fm => fm.result
    | none => false

/-- Failures of one bundle; a GATH beside a result-producing M slot is the bundle's (K-033). -/
def bundleBreaches (service : Bool) (depth : Nat) (b : Bundled) : List Breach :=
  slotBreaches service depth b [] b.slots
    ++ (if (b.slots.any fun p => p.op = 0x26) && b.slots.any (Placed.resultOf .m) then [⟨b.vpc, 0, 33⟩] else [])

/-! ### Loops and branches (R90, R95, R97) -/

/-- A bundle in its body: the LOOP bundle of its region (none at the outermost), its depth, and for a LOOP bundle the
index of its NEXT bundle. A LOOP bundle belongs to the region around its loop, a NEXT bundle to its loop's. -/
structure Node where
  idx : Nat
  bun : Bundled
  region : Option Nat
  depth : Nat
  close : Option Nat

/-- The LOOP and NEXT slots of bundle i on the stack of open loops: the stack after them, and their failures, each at its slot's
position (log entry 50). -/
def loopSlots (i vpc : Nat) : List Nat → List Placed → List Nat × List Breach
  | open_, [] => (open_, [])
  | open_, p :: t =>
    let rest (next : List Nat) (bad : Bool) (code : Nat) : List Nat × List Breach :=
      let r := loopSlots i vpc next t
      (r.1, if bad then ⟨vpc, p.pos, code⟩ :: r.2 else r.2)
    if p.op = 0x18 then rest (i :: open_) (decide (6 ≤ open_.length)) 43
    else if p.op = 0x19 then rest open_.tail open_.isEmpty 44
    else loopSlots i vpc open_ t

/-- Walk the bundles with the stack of open loops. -/
def walkLoops : Nat → List Nat → List Bundled → List Node × List Breach
  | _, _, [] => ([], [])
  | i, open_, b :: t =>
    let here := loopSlots i b.vpc open_ b.xSlots
    let r := walkLoops (i + 1) here.1 t
    ({ idx := i, bun := b, region := open_.head?, depth := open_.length, close := none } :: r.1, here.2 ++ r.2)

def Node.opIs (n : Node) (op : Nat) : Bool := n.bun.xSlots.any fun p => p.op.toNat = op

/-- The NEXT bundle of a LOOP bundle: the one whose region it opens. -/
def closeOf (nodes : List Node) (i : Nat) : Option Nat :=
  (nodes.find? fun m => m.region = some i && m.opIs 0x19).map Node.idx

/-- The nodes of a body with their loops closed, and the failures of its loops. -/
def loopNodes (bs : List Bundled) : List Node × List Breach :=
  let r := walkLoops 0 [] bs
  let nodes := r.1.map fun n => if n.opIs 0x18 then { n with close := closeOf r.1 n.idx } else n
  (nodes, r.2 ++ (nodes.filter fun n => n.close.isNone).flatMap fun n =>
    (n.bun.xSlots.filter fun p => p.op = 0x18).map fun p => (⟨n.bun.vpc, p.pos, 44⟩ : Breach))

/-- Words from a bundle's VPC to the target of its branch (R91 to R93); none without a branch. -/
def Placed.offset? (p : Placed) : Option Nat :=
  let l := (p.lit.getD 0).toNat
  let a := p.slot.a.toNat
  let b := p.slot.b.toNat
  let f := p.slot.f.toNat
  match p.op.toNat with
  | 0x15 => some (l * 1024 + b * 16 + f % 16)
  | 0x16 => some (l * 2 ^ 17 + a * 2 ^ 11 + b * 2 ^ 5 + f)
  | 0x17 => some (l * 1024 + b * 16 + f % 16)
  | _ => none

/-- The bundle that a branch names, if it is the start of one. -/
def Node.target (nodes : List Node) (n : Node) (p : Placed) : Option Node :=
  p.offset?.bind fun o => nodes.find? fun m => m.bun.vpc = n.bun.vpc + 4 * o

/-- Failures of the branches (K-040 to K-042). -/
def branchBreaches (nodes : List Node) : List Breach :=
  nodes.flatMap fun n => n.bun.xSlots.flatMap fun p =>
    if p.offset?.isNone then []
    else
      let codes := match n.target nodes p with
        | none => [40]
        | some m => codeIf (m.region ≠ n.region) 41 ++ codeIf (m.idx ≤ n.idx) 42
      codes.map fun c => (⟨n.bun.vpc, p.pos, c⟩ : Breach)

/-- Is a bundle's end never passed: an unguarded JMP, HALT or svc.tret? -/
def Node.stops (n : Node) : Bool :=
  n.bun.xSlots.any fun p => (p.op = 0x16 || p.op = 0x1B || (p.op = 0x1A && p.slot.f = 2)) && !n.bun.guarded p

/-- May a LOOP's count be zero? -/
def Node.mayskip (n : Node) : Bool :=
  n.bun.xSlots.any fun p => p.op = 0x18 && (p.slot.f.toNat / 16 = 0 || (p.lit.getD 0).toNat * 64 + p.slot.b.toNat = 0)

/-- Bundles that a path reaches next, all of them further on; the number of bundles stands for a VPC past the last. -/
def Node.succs (nodes : List Node) (n : Node) : List Nat :=
  (if n.stops then [] else [n.idx + 1])
    ++ ((n.bun.xSlots.filterMap (n.target nodes)).map Node.idx).filter (n.idx < ·)
    ++ (match n.close with
        | some c => if n.mayskip then [c + 1] else []
        | none => [])

/-- Does a path's count end here: a NEXT bundle, a HALT or an svc.tret? A guarded HALT or svc.tret that is not taken is passed
by, and the count goes on, since R97 bounds the bundles issued between two iteration boundaries. -/
def Node.counted (n : Node) : Bool := n.opIs 0x19 || (n.stops && !n.opIs 0x16)

/-- The largest count at each bundle, in order: pairs of index and count. -/
def countPaths (nodes : List Node) : List Node → Tab Nat → Tab Nat
  | [], t => t
  | n :: rest, t =>
    let raise (t : Tab Nat) (i k : Nat) : Tab Nat := tabPut i (max k (tabGet 0 i t)) t
    let ss := n.succs nodes
    let t := if n.opIs 0x18 || n.opIs 0x19 then ss.foldl (fun t i => raise t i 1) t else t
    let t := match tabFind n.idx t with
      | some k => if n.counted then t else ss.foldl (fun t i => raise t i (k + 1)) t
      | none => t
    countPaths nodes rest t

/-- Bundles that paths from the entry reach. -/
def reachable (nodes : List Node) : List Node → List Nat → List Nat
  | [], l => l
  | n :: rest, l => reachable nodes rest (if l.contains n.idx then n.succs nodes ++ l else l)

/-- K-045 and K-049. -/
def pathBreaches (nodes : List Node) : List Breach :=
  let counts := countPaths nodes nodes [(0, 1)]
  let overrun := nodes.find? fun n => 4096 < tabGet 0 n.idx counts
  let past := (reachable nodes nodes [0]).contains nodes.length
  (match overrun with
    | some n => [⟨n.bun.vpc, 0, 45⟩]
    | none => [])
    ++ (match past, nodes.getLast? with
      | true, some n => [⟨n.bun.vpc, 0, 49⟩]
      | _, _ => [])

/-- What every path to a bundle has written since its counting point: results by engine, and held operands. -/
structure Written where
  results : List Nat
  helds : List Bool

def Written.none : Written := { results := List.replicate 6 0, helds := List.replicate 6 false }

def Written.meet (a b : Written) : Written :=
  { results := List.zipWith min a.results b.results, helds := List.zipWith and a.helds b.helds }

/-- The latch that an operand code names: engine and depth (R54). -/
def latchCode (code : Nat) : Option (Engine × Nat) :=
  if 32 ≤ code && code < 34 then some (.x, code - 32)
  else if 34 ≤ code && code < 36 then some (.g, code - 34)
  else if 36 ≤ code && code < 40 then some (.v, code - 36)
  else if 40 ≤ code && code < 42 then some (.m, code - 40)
  else if code = 42 then some (.k, 0)
  else if code = 43 then some (.y, 0)
  else Option.none

/-- Check codes of the reads of a slot under what was written before. -/
def readCodes (w : Written) (p : Placed) : List Nat :=
  match p.form with
  | Option.none => []
  | some fm =>
    let one (k : Kind) (code : BitVec 6) : List Nat :=
      if k = .scalar || k = .vector then
        codeIf (match latchCode code.toNat with
          | some (e, n) => w.results.getD e.idx 0 ≤ n
          | Option.none => false) 31
          ++ codeIf (code = 47 && !w.helds.getD fm.engine.idx false) 32
      else []
    one fm.a p.slot.a ++ one fm.b p.slot.b

/-- What a slot adds: a GATH's row counts as the M engine's result (R20). -/
def Written.after (b : Bundled) (w : Written) (p : Placed) : Written :=
  match p.form with
  | Option.none => w
  | some fm =>
    if b.guarded p then w
    else
      let e : Engine := if p.op = 0x26 then .m else fm.engine
      let w := if fm.result || p.op = 0x26 then { w with results := w.results.modify e.idx (· + 1) } else w
      if p.slot.h then { w with helds := w.helds.set fm.engine.idx true } else w

/-- Failures of the latch and held reads, bundle by bundle; a bundle that no path reaches has none. A LOOP or NEXT bundle is
a counting point, so nothing before or in it counts behind it (R22). -/
def readBreaches (nodes : List Node) : List Node → List (Nat × Written) → List Breach
  | [], _ => []
  | n :: rest, ins =>
    match (ins.filter fun e => e.1 = n.idx).map Prod.snd with
    | [] => readBreaches nodes rest ins
    | w :: ws =>
      let w := ws.foldl Written.meet w
      let here := n.bun.slots.flatMap fun p => (readCodes w p).map fun c => (⟨n.bun.vpc, p.pos, c⟩ : Breach)
      let out := if n.opIs 0x18 || n.opIs 0x19 then Written.none else n.bun.slots.foldl (Written.after n.bun) w
      here ++ readBreaches nodes rest ((ins.filter fun e => e.1 ≠ n.idx) ++ (n.succs nodes).map fun i => (i, out))

/-! ### A body -/

/-- Every failure of a code body for an image of a kind. A run that breaks K-004 is judged by every other rule too, as the bundle
that its stop bit ends (R53, log entry 50). -/
def bodyBreaches (service : Bool) (code : List (BitVec 32)) : List Breach :=
  let (nodes, loops) := loopNodes (cutBundles code [] 0)
  (nodes.flatMap fun n => bundleBreaches service n.depth n.bun)
    ++ loops ++ branchBreaches nodes ++ pathBreaches nodes ++ readBreaches nodes nodes [(0, Written.none)]
    ++ (nodes.filter fun n => n.bun.unstopped).map fun n => (⟨n.bun.vpc, 0, 4⟩ : Breach)

/-- The check that refuses a code body, if one does. -/
def checkBody (service : Bool) (code : List (BitVec 32)) : Option Breach := firstBreach (bodyBreaches service code)

end Sys2Proof.Machine
end

