-- ==== Sys2Proof/Machine/Loader.lean ====
section
/-! DEFINITION. Loading a Chasia object (spec 14 R292 to R307, R418): its parts, the steps of a load in order, and the refusal
that the first failing one gives. The order of the checks within step 3 is the model's (log entry 47). -/

namespace Sys2Proof.Machine

/-- Why a load is refused (R303, R418). -/
structure LoadRefusal where
  code : Nat
  sect : Nat := 0xFFFF
  item : Nat := 0
  slot : Nat := 0
deriving DecidableEq, Repr

abbrev Load := Except LoadRefusal

def refuseIf (c : Bool) (r : LoadRefusal) : Load Unit := if c then .error r else .ok ()

/-! ### The object's parts (R292 to R298) -/

def bytesAt (l : List Byte) (off n : Nat) : List Byte := (l.drop off).take n
def numAt (l : List Byte) (off n : Nat) : Nat := fromLe (bytesAt l off n)

/-- A section table entry (R293). -/
structure Section where
  idx : Nat
  w : Bool
  rd : Bool
  req : Bool
  type : Nat
  off : Nat
  size : Nat
deriving DecidableEq, Repr

/-- The magic number of R292. -/
def objectMagic : Nat := 0x001A414953414843

def sectionAt (obj : List Byte) (table i : Nat) : Section :=
  let w := wordAt obj (table + 32 * i)
  { idx := i, w := w.getLsbD 18, rd := w.getLsbD 17, req := w.getLsbD 16, type := field w 15 0,
    off := numAt obj (table + 32 * i + 8) 8, size := numAt obj (table + 32 * i + 16) 8 }

def Section.bytes (s : Section) (obj : List Byte) : List Byte := bytesAt obj s.off s.size

/-- A launch record (R295). -/
structure Launch where
  nargs : Nat
  argBytes : Nat
  firstVar : Nat
  nvars : Nat
  long : Bool
  team : Nat
  argFirst : Nat
deriving DecidableEq, Repr

def launchAt (l : List Byte) (i : Nat) : Launch :=
  let w := wordAt l (64 * i + 0x20)
  { nargs := field w 55 48, argBytes := field w 47 32, firstVar := field w 31 16, nvars := field w 15 8, long := w.getLsbD 4,
    team := field w 1 0 + 1, argFirst := numAt l (64 * i + 0x28) 4 }

/-- A variant entry (R297). -/
structure VariantEntry where
  idx : Nat
  family : Word
  litSec : Nat
  codeSec : Nat
  kernel : Nat
  selLen : Nat
  selOff : Nat
deriving DecidableEq, Repr

def variantAt (l : List Byte) (i : Nat) : VariantEntry :=
  let w := wordAt l (64 * i + 0x20)
  { idx := i, family := wordAt l (64 * i + 0x18), litSec := field w 47 32, codeSec := field w 31 16, kernel := field w 15 0,
    selLen := numAt l (64 * i + 0x2C) 4, selOff := numAt l (64 * i + 0x28) 4 }

/-- The words of a body or stream. -/
def wordsOf (l : List Byte) : List (BitVec 32) :=
  (List.range (l.length / 4)).map fun i => BitVec.ofNat 32 (numAt l (4 * i) 4)

/-! ### Step 1 -/

def headerCheck (h : List Byte) : Load Unit := do
  refuseIf (numAt h 0 8 ≠ objectMagic || numAt h 8 4 ≠ 1) { code := 90 }
  refuseIf ((wordAt h 8).getLsbD 32) { code := 95 }
  refuseIf (numAt h 0x10 2 = 0 || numAt h 0x18 8 % 8 ≠ 0 || numAt h 0x18 8 < 64
    || numAt h 0x20 8 < numAt h 0x18 8 + 32 * numAt h 0x10 2) { code := 91 }

/-- Do two byte ranges share a byte? -/
def overlap (a n b m : Nat) : Bool := n ≠ 0 && m ≠ 0 && a < b + m && b < a + n

/-- A section lies in the object, aligned, clear of the header, the table and the sections before it: of two that overlap the one
with the higher index offends, and an empty one overlaps nothing (log entry 69). -/
def sectionBad (total table nsect : Nat) (earlier : List Section) (s : Section) : Bool :=
  s.off % 8 ≠ 0 || total < s.off + s.size || overlap s.off s.size 0 64 || overlap s.off s.size table (32 * nsect)
    || earlier.any fun t => overlap s.off s.size t.off t.size

def sectionsCheck (total table nsect : Nat) : List Section → List Section → Load Unit
  | _, [] => .ok ()
  | earlier, s :: t => do
    refuseIf (sectionBad total table nsect earlier s) { code := 91, sect := s.idx }
    sectionsCheck total table nsect (s :: earlier) t

/-! ### Step 2 -/

def sealCheck (obj : List Byte) (ss : List Section) : Load Unit :=
  match ss.find? fun s => s.type = 9 with
  | none => .error { code := 94 }
  | some s =>
    refuseIf (sha512 (obj.take s.off ++ obj.drop (s.off + s.size)) ≠ s.bytes obj) { code := 94, sect := s.idx }

/-! ### Step 3 -/

/-- Types that an object holds exactly once (R294). -/
def onceTypes : List Nat := [1, 2, 3, 7, 8, 9]

def entrySize (type : Nat) : Nat :=
  match type with
  | 1 => 64
  | 2 => 32
  | 7 => 16
  | _ => 1

/-- Type, size and number of each section in turn. -/
def typesCheck : List Section → List Section → Load Unit
  | _, [] => .ok ()
  | earlier, s :: t => do
    refuseIf (s.type = 0) { code := 92, sect := s.idx }
    refuseIf (10 ≤ s.type && s.req) { code := 93, sect := s.idx }
    refuseIf (onceTypes.contains s.type && earlier.any fun q => q.type = s.type) { code := 92, sect := s.idx }
    refuseIf (s.size % entrySize s.type ≠ 0 || (s.type = 1 && (s.size = 0 || 4096 * 64 < s.size)) || (s.type = 3 && s.size < 64)
      || (s.type = 9 && s.size ≠ 64)) { code := 92, sect := s.idx }
    typesCheck (s :: earlier) t

def missingCheck (ss : List Section) : List Nat → Load Unit
  | [] => .ok ()
  | ty :: t => do
    refuseIf (!ss.any fun s => s.type = ty) { code := 92, item := ty }
    missingCheck ss t

/-- The section of a type. -/
def theSection (ss : List Section) (type : Nat) : Section :=
  (ss.find? fun s => s.type = type).getD { idx := 0xFFFF, w := false, rd := false, req := false, type := type, off := 0, size := 0 }

/-- The size of an argument type (R296); none for an unassigned one. -/
def argSize (ty : Nat) : Option Nat :=
  match ty with
  | 1 => some 4
  | 2 => some 4
  | 3 => some 8
  | 4 => some 8
  | 5 => some 4
  | 6 => some 8
  | _ => none

/-- One kernel's arguments, in order; taken ranges before it. Reserved bits, the form of a NAME, and entries that no kernel's range
names are not checked (log entry 69). -/
def argsCheck (sect argBytes : Nat) (l : List Byte) : List (Nat × Nat) → List Nat → Load Unit
  | _, [] => .ok ()
  | taken, i :: t =>
    let w := wordAt l (32 * i + 0x18)
    let off := field w 31 16
    match argSize (field w 7 0) with
    | none => .error { code := 104, sect := sect, item := i }
    | some n => do
      refuseIf (off % n ≠ 0 || argBytes < off + n || taken.any fun q => overlap off n q.1 q.2)
        { code := 104, sect := sect, item := i }
      argsCheck sect argBytes l ((off, n) :: taken) t

/-- Each launch record's numbers lie within their sections. -/
def launchCheck (ss : List Section) (nvar nargs : Nat) (args : List Byte) (idx : Nat) (k : Launch) : Load Unit := do
  let here := (theSection ss 1).idx
  refuseIf (k.nvars = 0) { code := 92, sect := here, item := idx }
  refuseIf (nvar < k.firstVar + k.nvars || (k.nargs ≠ 0 && nargs < k.argFirst + k.nargs)) { code := 96, sect := here, item := idx }
  argsCheck (theSection ss 2).idx k.argBytes args [] ((List.range k.nargs).map (k.argFirst + ·))

/-- A section of a type at an index. -/
def sectionOf (ss : List Section) (i type : Nat) : Option Section := ss.find? fun s => s.idx = i && s.type = type

/-- A variant entry's numbers (K-096), its kernel (K-092), and the sizes and the single use of its body and stream (K-098). A
selector outside its section is K-096, whatever the variant's FAMILY (log entry 69). -/
def variantCheck (ss : List Section) (ks : List Launch) (size : Nat) (earlier : List VariantEntry) (v : VariantEntry) :
    Load Unit := do
  let here := (theSection ss 3).idx
  match ks[v.kernel]?, sectionOf ss v.codeSec 4, sectionOf ss v.litSec 5 with
  | some k, some c, some l => do
    refuseIf (v.selLen ≠ 0 && size < v.selOff + v.selLen) { code := 96, sect := here, item := v.idx }
    refuseIf (v.idx < k.firstVar || k.firstVar + k.nvars ≤ v.idx) { code := 92, sect := here, item := v.idx }
    refuseIf (c.size % 4 ≠ 0 || c.size = 0 || 4 * 4194304 < c.size || earlier.any fun u => u.codeSec = v.codeSec)
      { code := 98, sect := c.idx, item := v.idx }
    refuseIf (l.size % 4 ≠ 0 || 4 * 4194304 < l.size || earlier.any fun u => u.litSec = v.litSec)
      { code := 98, sect := l.idx, item := v.idx }
  | _, _, _ => .error { code := 96, sect := here, item := v.idx }

def variantsCheck (ss : List Section) (ks : List Launch) (size : Nat) : List VariantEntry → List VariantEntry → Load Unit
  | _, [] => .ok ()
  | earlier, v :: t => do
    variantCheck ss ks size earlier v
    variantsCheck ss ks size (v :: earlier) t

/-- A body or stream that no variant names belongs to none: ITEM is 0 (log entry 69). -/
def ownedCheck (vs : List VariantEntry) : List Section → Load Unit
  | [] => .ok ()
  | s :: t => do
    refuseIf ((s.type = 4 && !vs.any fun v => v.codeSec = s.idx) || (s.type = 5 && !vs.any fun v => v.litSec = s.idx))
      { code := 98, sect := s.idx }
    ownedCheck vs t

/-! ### Step 4: notes (R304) -/

/-- The two notes the part knows. -/
def noteKnown (name : List Byte) : Bool :=
  let pad (l : List Byte) : List Byte := l ++ List.replicate (16 - l.length) 0
  name = pad [0x74, 0x6F, 0x6F, 0x6C] || name = pad [0x62, 0x75, 0x69, 0x6C, 0x64]

/-- Notes in turn: one that is cut short is malformed; one that is unknown and mandatory is refused. -/
def notesCheck (sect : Nat) : Nat → Nat → List Byte → Load Unit
  | 0, _, _ => .ok ()
  | fuel + 1, i, l =>
    if l.isEmpty then .ok ()
    else do
      let len := numAt l 20 4
      let whole := 24 + (len + 7) / 8 * 8
      refuseIf (l.length < whole) { code := 92, sect := sect, item := i }
      refuseIf (!noteKnown (bytesAt l 0 16) && (wordAt l 16).getLsbD 0) { code := 97, sect := sect, item := i }
      notesCheck sect fuel (i + 1) (l.drop whole)

/-! ### Step 5: placement and relocations (R305) -/

/-- Addresses of the data sections, in ascending index. -/
def placeData : Nat → List Section → List (Nat × Nat)
  | _, [] => []
  | cursor, s :: t =>
    if s.type = 6 then
      let a := (cursor + 65535) / 65536 * 65536
      (s.idx, a) :: placeData (a + s.size) t
    else placeData cursor t

/-- Contents of the sections as relocations leave them, by index. -/
abbrev Contents := List (Nat × List Byte)

def contentOf (c : Contents) (i : Nat) : List Byte := ((c.find? fun e => e.1 = i).map Prod.snd).getD []
def patch (c : Contents) (i off : Nat) (new : List Byte) : Contents :=
  c.map fun e => if e.1 = i then (i, e.2.take off ++ new ++ e.2.drop (off + new.length)) else e

/-- The words of a LIT and the slot behind it with an immediate of 40 bits (form 2) or 30 bits (form 3) put in. -/
def patchImmediate (form : Nat) (w0 w1 : BitVec 32) (v : Int) : List Byte :=
  let lit : BitVec 24 := BitVec.ofInt 24 (v / (if form = 2 then 65536 else 64))
  let w0 := (w0 &&& 0xFF000000) ||| lit.setWidth 32
  let w1 := if form = 2 then (w1 &&& 0xFFFF0000) ||| (BitVec.ofInt 16 v).setWidth 32
    else (w1 &&& 0xFFFFF81F) ||| ((BitVec.ofInt 6 v).setWidth 32 <<< 5)
  leBytes 4 w0.toNat ++ leBytes 4 w1.toNat

/-- Does a target hold the two slots of its form in one bundle? -/
def immediateSlots (form : Nat) (w0 w1 : BitVec 32) : Bool :=
  let op := field w1 30 24
  !w0.getLsbD 31 && field w0 30 24 = 1
    && if form = 2 then op = 0x12 && !w1.getLsbD 16 else 0x08 ≤ op && op ≤ 0x10 && w1.getLsbD 4

/-- One relocation. -/
def relocate (ss : List Section) (places : List (Nat × Nat)) (here idx : Nat) (w0 w1 : Word) (c : Contents) : Load Contents := do
  let tsec := field w0 63 48
  let form := field w0 47 44
  let toff := field w0 31 0
  let no : LoadRefusal := { code := 101, sect := here, item := idx }
  match places.find? fun p => p.1 = field w1 63 48 with
  | none => .error no
  | some src =>
    let v : Int := (src.2 : Int) + (w1.extractLsb' 0 48).toInt
    let l := contentOf c tsec
    let n := if form = 1 then 4 else 8
    let kind := if form < 2 then 6 else 4
    refuseIf (4 ≤ form || (sectionOf ss tsec kind).isNone || l.length < toff + n) no
    let a : BitVec 32 := BitVec.ofNat 32 (numAt l toff 4)
    let b : BitVec 32 := BitVec.ofNat 32 (numAt l (toff + 4) 4)
    refuseIf (2 ≤ form && (toff % 4 ≠ 0 || !immediateSlots form a b)) no
    let fits : Bool := match form with
      | 0 => true
      | 1 => 0 ≤ v && v < 2 ^ 32
      | 2 => -2 ^ 39 ≤ v && v < 2 ^ 39
      | _ => -2 ^ 29 ≤ v && v < 2 ^ 29
    refuseIf (!fits) { code := 100, sect := here, item := idx }
    if form = 0 then return patch c tsec toff (leBytes 8 (BitVec.ofInt 64 v).toNat)
    else if form = 1 then return patch c tsec toff (leBytes 4 (BitVec.ofInt 32 v).toNat)
    else return patch c tsec toff (patchImmediate form a b v)

def relocateAll (ss : List Section) (places : List (Nat × Nat)) (here : Nat) (l : List Byte) : List Nat → Contents → Load Contents
  | [], c => .ok c
  | i :: t, c => do
    let c ← relocate ss places here i (wordAt l (16 * i)) (wordAt l (16 * i + 8)) c
    relocateAll ss places here l t c

/-! ### Step 6 -/

/-- The kept variants' bodies, in ascending variant index. -/
def bodiesCheck (c : Contents) : List VariantEntry → Load Unit
  | [] => .ok ()
  | v :: t =>
    match checkBody false (wordsOf (contentOf c v.codeSec)) with
    | some b => .error { code := b.code, sect := v.codeSec, item := b.vpc, slot := b.pos }
    | none => bodiesCheck c t

/-! ### Step 7: the sealed digest (R306) -/

/-- What the digest covers, in the order of R306. -/
def sealBytes (ss : List Section) (c : Contents) (kept : List VariantEntry) : List Byte :=
  let table := contentOf c (theSection ss 3).idx
  contentOf c (theSection ss 1).idx ++ contentOf c (theSection ss 2).idx
    ++ (kept.flatMap fun v => bytesAt table (64 * v.idx) 64)
    ++ (ss.flatMap fun s => if kept.any fun v => v.codeSec = s.idx || v.litSec = s.idx then contentOf c s.idx else [])

/-! ### Step 8: selectors (R299, R300) -/

/-- Smallest of some numbers; 0 for none. -/
def leastOf : List Nat → Nat
  | [] => 0
  | a :: t => t.foldl min a

/-- A quantity over the loading die; none for an index that R256 does not assign. -/
def State.quantity (s : State) (die n : Nat) : Option Nat :=
  let live := ((List.range 128).map (128 * die + ·)).filter fun i => !(s.core i).retired
  let clusters := ((List.range 32).map (32 * die + ·)).filter fun i => s.liveCores i ≠ 0
  match n with
  | 0 => some (s.mostLive die)
  | 1 => some (leastOf (live.map fun i => (s.core i).macroCount))
  | 2 => some (leastOf (clusters.map fun i => (s.cluster i).binCount))
  | 3 => some 512
  | 4 => some 256
  | 5 => some s.sirxon.cap
  | 6 => some Config.familyHash.toNat
  | 8 => some s.sirxon.package.toNat
  | 9 => some s.healthWord.toNat
  | _ => none

/-- a op b of a comparison or a two-operand logical operation. -/
def selectorOp (op a b : Nat) : Option Bool :=
  match op with
  | 0x10 => some (a = b)
  | 0x11 => some (a ≠ b)
  | 0x12 => some (a < b)
  | 0x13 => some (a ≤ b)
  | 0x14 => some (b < a)
  | 0x15 => some (b ≤ a)
  | 0x20 => some (a ≠ 0 && b ≠ 0)
  | 0x21 => some (a ≠ 0 || b ≠ 0)
  | _ => none

/-- Run a selector on a stack, top first; none when it breaks its form. No byte depends on a value, so the form holds for
every value of the quantities or for none. -/
def runSelector (q : Nat → Option Nat) : List Byte → List Nat → Option Bool
  | [], st =>
    match st with
    | [v] => some (v ≠ 0)
    | _ => none
  | op :: t, st =>
    if 16 < st.length then none
    else if op = 1 then
      match t with
      | n :: t => match q n.toNat with
        | some v => runSelector q t (v :: st)
        | none => none
      | [] => none
    else if op = 2 then
      match t with
      | b0 :: b1 :: b2 :: b3 :: b4 :: b5 :: b6 :: b7 :: t => runSelector q t (fromLe [b0, b1, b2, b3, b4, b5, b6, b7] :: st)
      | _ => none
    else if op = 3 then
      match t with
      | n :: t => runSelector q t (n.toNat :: st)
      | [] => none
    else if op = 0x22 then
      match st with
      | a :: st => runSelector q t (bit (a = 0) :: st)
      | [] => none
    else
      match st with
      | b :: a :: st => match selectorOp op.toNat a b with
        | some r => runSelector q t (bit r :: st)
        | none => none
      | _ => none

def selectorOf (table : List Byte) (v : VariantEntry) : List Byte := bytesAt table v.selOff v.selLen

/-- The value of a variant's selector; one of no bytes is true. -/
def variantChosen (q : Nat → Option Nat) (table : List Byte) (v : VariantEntry) : Option Bool :=
  if v.selLen = 0 then some true else runSelector q (selectorOf table v) []

def selectorsCheck (q : Nat → Option Nat) (here : Nat) (table : List Byte) : List VariantEntry → Load Unit
  | [] => .ok ()
  | v :: t => do
    refuseIf (variantChosen q table v).isNone { code := 102, sect := here, item := v.idx }
    selectorsCheck q here table t

/-- Each kernel with its first kept variant whose selector is true. -/
def chooseKernels (q : Nat → Option Nat) (here : Nat) (table : List Byte) (c : Contents) (kept : List VariantEntry) :
    Nat → List Launch → Load (List Kernel)
  | _, [] => .ok []
  | i, k :: t =>
    match kept.find? fun v => v.kernel = i && variantChosen q table v = some true with
    | none => .error { code := 103, sect := here, item := i }
    | some v => do
      let rest ← chooseKernels q here table c kept (i + 1) t
      let body : Variant := { code := wordsOf (contentOf c v.codeSec), lits := wordsOf (contentOf c v.litSec) }
      return { team := k.team, long := k.long, variant := body, index := v.idx } :: rest

/-! ### The load (R302) -/

/-- What the steps up to 8 give: kernels, sealed digest, and each data section's address, bytes, RD and W. -/
structure Loaded where
  kernels : List Kernel
  digest : List Byte
  data : List (Nat × List Byte × Bool × Bool)

/-- Steps 1 to 8 over an object's bytes. -/
def loadObject (q : Nat → Option Nat) (area : Nat) (obj : List Byte) : Load Loaded := do
  let table := numAt obj 0x18 8
  let nsect := numAt obj 0x10 2
  let ss := (List.range nsect).map (sectionAt obj table)
  sectionsCheck obj.length table nsect [] ss
  sealCheck obj ss
  typesCheck [] ss
  missingCheck ss onceTypes
  let bytes (ty : Nat) : List Byte := (theSection ss ty).bytes obj
  let ks := (List.range ((bytes 1).length / 64)).map (launchAt (bytes 1))
  let nvar := ks.foldl (fun m k => max m (k.firstVar + k.nvars)) 0
  let fit := (bytes 3).length / 64
  ks.zipIdx.forM fun e => launchCheck ss fit ((bytes 2).length / 32) (bytes 2) e.2 e.1
  let vs := (List.range nvar).map (variantAt (bytes 3))
  variantsCheck ss ks (bytes 3).length [] vs
  ownedCheck vs ss
  notesCheck (theSection ss 8).idx (bytes 8).length 0 (bytes 8)
  let places := placeData area ss
  let start : Contents := ss.map fun s => (s.idx, s.bytes obj)
  let c ← relocateAll ss places (theSection ss 7).idx (bytes 7) (List.range ((bytes 7).length / 16)) start
  let kept := vs.filter fun v => v.family = Config.familyHash
  bodiesCheck c kept
  selectorsCheck q (theSection ss 3).idx (bytes 3) kept
  let kernels ← chooseKernels q (theSection ss 1).idx (bytes 3) c kept 0 ks
  let data := places.map fun p =>
    let s := ss.find? fun s => s.idx = p.1
    (p.2, contentOf c p.1, (s.map Section.rd).getD false, (s.map Section.w).getD false)
  return { kernels := kernels, digest := sha512 (sealBytes ss c kept), data := data }

/-- The command at the head of a queue has withdrawn a page's read permission, over however many tries (R352). -/
def noteWithdrawal (q : Fin 64) (was now : Bool) : M Unit :=
  if was && !now then modify fun s => s.modQueue q fun x => { x with withdrew := true } else pure ()

/-- The rights that a page had before a load opened it are remembered once. -/
def HostQueue.noteOpened (x : HostQueue) (va : Nat) (e : Word) : HostQueue :=
  if x.opened.any fun y => y.1 = va then x else { x with opened := (va, pteRd e, pteW e) :: x.opened }

/-- The rights of a page's leaf, splintered to 64 KiB once the writes on their way have arrived (R306, R352, R353). -/
def setRights (q : Fin 64) (rd w : Bool) (va : Nat) : M Unit := do
  match placeOf (← get) va with
  | .home die _ =>
    let (_, _, e) ← findPage .sirxon die va
    if pteRd e = rd && pteW e = w then return ()
    awaitWrites va 65536
    let (pa, e) ← ownLeaf .sirxon die va 2
    modify fun s => (s.writeEntry die pa (mkLeaf (pteRes e) w rd (pteCmp e) (pteMig e) (pteSpl e) (pteAddr e))).modQueue q
      fun x => x.noteOpened va e
    noteWithdrawal q (pteRd e) rd
  | _ => return ()

/-- The rights of pages. -/
def setAllRights (q : Fin 64) (rd w : Bool) : List Nat → M Unit
  | [] => return ()
  | va :: rest => do
    setRights q rd w va
    setAllRights q rd w rest

/-- A command that withdrew pages or their read permission goes on 65,536 cycles later, when no cluster cache holds a copy
fetched under the old entries (R352). -/
def awaitCopies (q : Fin 64) : M Unit := do
  let s ← get
  if (s.host.queue q).withdrew then
    set (s.modQueue q fun x => { x with due := some (s.cycle + Config.copyLife), withdrew := false })
    stall
  match (s.host.queue q).due with
  | some t => if s.cycle < t then stall else set (s.modQueue q fun x => { x with due := none })
  | none => pure ()

/-- A data section: its address, bytes, and the access that RD and W grant. -/
abbrev DataPlace := Nat × List Byte × Bool × Bool

/-- The pages of a data section. -/
def sectionPages (x : DataPlace) : List Nat := (List.range ((x.2.1.length + 65535) / 65536)).map fun i => (x.1 + 65536 * i) % 2 ^ 64

/-- A page that will take bytes of a data section is mapped and resident, or can be written where it lies. -/
def checkPage (va : Nat) : M Unit := do
  match placeOf (← get) va with
  | .home die _ =>
    let (_, _, e) ← findPage .sirxon die va
    raiseIf (!pteRes e) 0x0C3 (BitVec.ofNat 64 va)
  | _ =>
    let _ ← resolve .sirxon .w false va
    return ()

/-- The pages of data sections become writable for Sirxon. -/
def openSections (q : Fin 64) : List DataPlace → M Unit
  | [] => return ()
  | x :: rest => do
    setAllRights q x.2.2.1 true (sectionPages x)
    openSections q rest

/-- One data section: its pages take the bytes, and then the access that RD and W grant. -/
def placeSection (q : Fin 64) (x : DataPlace) : M Unit := do
  writeGlobal .sirxon .system 0 (x.1 % 2 ^ 64) x.2.1
  setAllRights q x.2.2.1 x.2.2.2 (sectionPages x)

/-- A page that a load opened takes its rights back. -/
def State.closePage (s : State) (x : Nat × Bool × Bool) : State :=
  match placeOf s x.1 with
  | .home die off =>
    match walk s die off with
    | .leaf 0 pa e => s.writeEntry die pa (mkLeaf (pteRes e) x.2.2 x.2.1 (pteCmp e) (pteMig e) (pteSpl e) (pteAddr e))
    | _ => s
  | _ => s

/-- A load that ends without an image leaves the rights of the pages as they were (R302). -/
def State.closePages (s : State) (q : Fin 64) : State :=
  ((s.host.queue q).opened.foldl State.closePage s).modQueue q fun x => { x with opened := [] }

/-- Read an object: its header, then the rest of it. -/
def readObject (object : Nat) : M (Load (List Byte)) := do
  let h ← readGlobal .sirxon .system 0 object 64
  match headerCheck h with
  | .error r => return .error r
  | .ok _ =>
    let rest ← readGlobal .sirxon .system 0 ((object + 64) % 2 ^ 64) (numAt h 0x20 8 - 64)
    return .ok (h ++ rest)

/-- The lowest image slot that holds nothing (R301; the choice is log entry 49). -/
def Die.freeSlot (d : Die) : Option Nat :=
  (List.range 4096).find? fun i => (tabGet ({} : ImageSlot) i d.images).image.isNone

/-- The handles of an image in a slot (R301). -/
def handlesOf (generation slot n : Nat) : List Byte :=
  (List.range n).flatMap fun k => leBytes 4 (generation % 256 * 2 ^ 24 + slot * 2 ^ 12 + k)

/-- Steps 1 to 8, the slot found, the data sections placed and the handles written: before anything is written, the slot, the
pages of the data sections and the place of the handles are checked (R302; log entries 48, 51). -/
def loadBody (q : Fin 64) (die object area handles : Nat) : M (Load (Loaded × Nat)) := do
  match ← readObject object with
  | .error r => return .error r
  | .ok obj =>
    match loadObject ((← get).quantity die) area obj with
    | .error r => return .error r
    | .ok l =>
      let d ← getDie die
      match d.freeSlot with
      | none => return .error { code := 105 }
      | some i =>
        let names := handlesOf (tabGet ({} : ImageSlot) i d.images).generation i l.kernels.length
        (l.data.flatMap sectionPages).forM checkPage
        let hs ← checkSpans .sirxon .w false (lineSpans handles names.length)
        openSections q l.data
        awaitCopies q
        checkBlocked .sirxon .system hs
        l.data.forM (placeSection q)
        writeGlobal .sirxon .system 0 handles names
        return .ok (l, i)

/-- The 128 bytes of a result without DONE: words 0x00 to 0x37, and SEAL (R303). -/
def resultBytes (stamp : Word) (status fallbacks : Nat) (r : LoadRefusal) (digest : List Byte) : List Byte × List Byte :=
  (wordBytes (place 32 r.sect + place 16 r.code + place 0 status) ++ wordBytes (place 32 r.item + place 29 r.slot)
    ++ wordBytes stamp ++ leBytes 8 fallbacks ++ zeros 24, digest)

/-- Write a result, DONE last. -/
def writeResult (at_ : Nat) (x : List Byte × List Byte) : M Unit := do
  writeGlobal .sirxon .system 0 at_ x.1
  writeGlobal .sirxon .system 0 ((at_ + 0x40) % 2 ^ 64) x.2
  writeGlobal .sirxon .system 0 ((at_ + 0x38) % 2 ^ 64) (leBytes 8 1)

/-- A result is written; one whose address cannot be written is lost: is it done? It may have to wait. -/
def State.putResult (s : State) (q : Fin 64) (at_ : Nat) (x : List Byte × List Byte) : State × Bool :=
  (s.tryHost q (writeResult at_ x)).record

/-- The sealed image takes its slot. -/
def State.placeImage (s : State) (die i : Nat) (l : Loaded) : State :=
  let d := s.die die
  let slot := tabGet ({} : ImageSlot) i d.images
  s.setDie die { d with images := tabPut i { slot with image := some { kernels := l.kernels, digest := l.digest } } d.images }

/-- A load from its command's four addresses: the state with its result; it may have to wait. -/
def State.loadCommand (s : State) (q : Fin 64) (die result object area handles : Nat) : State × Bool :=
  let refuse (s : State) (r : LoadRefusal) : State × Bool :=
    let s := s.closePages q
    s.putResult q result (resultBytes s.stamp 2 0 r (zeros 64))
  match s.tryHost q (loadBody q die object area handles) with
  | .waits s => (s, false)
  | .fails s _ => refuse s { code := 0 }
  | .ok (.error r) s => refuse s r
  | .ok (.ok (l, i)) s =>
    match s.putResult q result (resultBytes s.stamp 1 (s.die die).fallbacks { code := 0, sect := 0xFFFF } l.digest) with
    | (s, true) => (s.placeImage die i l, true)
    | (s, false) => (s, false)

end Sys2Proof.Machine
end

