-- ==== Sys2Proof/Machine/Crib.lean ====
section
/-! DEFINITION. The crib: the blocks of a code body, their lowering on first execution, what invalidates an entry, and sealed
words that cannot be read (spec 14 R308 to R311, R315). -/

namespace Sys2Proof.Machine

/-! ### Blocks (R308) -/

/-- Does a slot end its block: BR, JMP, BRU, LOOP, NEXT, SVC or HALT? -/
def Placed.endsBlock (p : Placed) : Bool := 0x15 ≤ p.op.toNat && p.op.toNat ≤ 0x1B

/-- VPCs at which blocks start. -/
def blockStarts (code : List (BitVec 32)) : List Nat :=
  0 :: (cutBundles code [] 0).flatMap fun b => match b.slots.find? Placed.endsBlock with
    | some p => b.next :: (p.offset?.map fun o => b.vpc + 4 * o).toList
    | none => []

/-- The start of the block that holds a bundle. -/
def blockStart (code : List (BitVec 32)) (vpc : BitVec 32) : BitVec 32 :=
  BitVec.ofNat 32 (((blockStarts code).filter fun v => v ≤ vpc.toNat).foldl max 0)

/-- The bundle that stands some bundles on from a VPC. -/
def bundleOn (code : List (BitVec 32)) (vpc : BitVec 32) : Nat → BitVec 32
  | 0 => vpc
  | n + 1 => nextVpc code (bundleOn code vpc n)

/-- The slots of the bundle at a VPC. -/
def bundleSlots (code : List (BitVec 32)) (vpc : BitVec 32) : List Placed :=
  let rest := code.drop (vpc.toNat / 4)
  placeSlots 0 none (rest.take (slotsOf rest))

/-- Does a bundle read the literal stream, under the guard that a sequencer's registers give it (R64, R180)? -/
def readsLiteral (r : Regs) (slots : List Placed) : Bool :=
  let off (p : Placed) : Bool := slots.any fun g => match decode none g.word with
    | .ok (.guard pred mask pol) => mask.getLsbD p.pos && (r.getP pred).getLsbD 0 == pol
    | _ => false
  slots.any fun p => p.engine = some .m && !off p

/-! ### Entries -/

/-- The seal and variant of the code a group runs; the trap service image has neither. -/
def State.sealOf (s : State) (c : CodeRef) : List Byte × Nat :=
  match c.slot with
  | none => ([], 0)
  | some n => match (tabGet ({} : ImageSlot) n (s.die c.die).images).image with
    | some i => (i.digest, (i.kernels[c.kernel]?.map Kernel.index).getD 0)
    | none => ([], 0)

/-- The key of the block that a sequencer stands in. -/
def State.cribKey (s : State) (c : CodeRef) (v : Variant) (vpc : BitVec 32) : CribKey :=
  { digest := (s.sealOf c).1, index := (s.sealOf c).2, vpc := blockStart v.code vpc }

def Die.cribEntry (d : Die) (k : CribKey) : Option CribEntry := d.crib.find? fun e => e.key == k

/-- Every crib entry of a die is invalidated (R311). -/
def State.dropCrib (s : State) (die : Nat) : State := s.setDie die { s.die die with crib := [] }

/-- The crib entries of one image are invalidated (R311, R312). -/
def Die.dropImage (d : Die) (i : Image) : Die := { d with crib := d.crib.filter fun e => e.key.digest ≠ i.digest }

/-- Sirxon invalidates the crib of a die, or the entries of an image it names (R311). -/
def State.sirxonInvalidate (s : State) (die : Fin 4) (slot : Option (Fin 4096)) : State :=
  match slot with
  | none => s.dropCrib die
  | some n => match (tabGet ({} : ImageSlot) n (s.die die).images).image with
    | some i => s.setDie die ((s.die die).dropImage i)
    | none => s

/-- A die's fallback counter rises; above the threshold it is a reason for replacement (R310, R401). -/
def State.fallback (s : State) (die : Nat) : State :=
  let d := s.die die
  let n := d.fallbacks + 1
  ((s.setDie die { d with fallbacks := n }).addHealth 11 none (some n)).setReasonIf (Config.fallbackThreshold < n) 7

/-- An uncorrectable error in a crib entry: the entry is lost, to be lowered again, and counted with the fallbacks (R311). -/
def State.cribError (s : State) (die : Fin 4) (n : Nat) : State :=
  let d := s.die die
  if n < d.crib.length then (s.setDie die { d with crib := d.crib.eraseIdx n }).fallback die else s

def State.enterCrib (s : State) (die : Nat) (k : CribKey) (lost : Option LostWord) : State :=
  s.setDie die { s.die die with crib := { key := k, lost := lost } :: (s.die die).crib }

/-! ### Lowering (R308, R310) -/

/-- The block that a sequencer is about to enter and that is not in the crib: its die, key and code. -/
def State.toLower (s : State) (who : SeqId) : Option (Fin 4 × CribKey × Variant) :=
  let q := s.seq who
  match q.code, q.code.bind s.variantOf with
  | some c, some v =>
    let key := s.cribKey c v q.before.vpc
    if s.issues who && q.bundle.pos = 0 && q.bundle.replay.isNone && key.vpc = q.before.vpc && ((s.die c.die).cribEntry key).isNone
      then some (c.die, key, v) else none
  | _, _ => none

/-- The first execution of a block lowers it; whether literally is a free value (log entry 66). -/
def State.lowered (s : State) (who : SeqId) : State :=
  match s.toLower who with
  | none => s
  | some (die, key, _) =>
    let s' := { s.enterCrib die key none with free := s.free + 1 }
    if Config.loweredLiterally s.free then s'.fallback die else s'

/-- CRIB_LOWERING (R308, R310, R315): a block that a sequencer is about to execute is lowered, overlapped or literally; the
lowering may meet a code word of a bundle of the block, or a literal word, that cannot be read. -/
def execCribLowering (who : SeqId) (lowering : Lowering) (s : State) : Outcome :=
  match s.toLower who with
  | none => .next s
  | some (die, key, v) =>
    match lowering with
    | .overlapped => .next (s.enterCrib die key none)
    | .literal => .next ((s.enterCrib die key none).fallback die)
    | .codeUnreadable n =>
      let at_ := bundleOn v.code key.vpc n
      if blockStart v.code at_ = key.vpc then .next (s.enterCrib die key (some (.code at_))) else .next s
    | .literalUnreadable n => .next (s.enterCrib die key (some (.literal ((s.seq who).before.lpc + BitVec.ofNat 32 (4 * n)))))

/-! ### Words that cannot be read (R315) -/

/-- The cause that the next bundle of a sequencer meets because it needs a sealed word that cannot be read. -/
def State.wordsLost (s : State) (who : SeqId) : Option Nat :=
  let q := s.seq who
  match q.code, q.code.bind s.variantOf with
  | some c, some v =>
    if s.issues who && q.bundle.pos = 0 && q.bundle.replay.isNone then
      match ((s.die c.die).cribEntry (s.cribKey c v q.before.vpc)).bind CribEntry.lost with
      | some (.code vpc) => if vpc = q.before.vpc then some 0x1C1 else none
      | some (.literal lpc) =>
        if lpc = q.before.lpc && readsLiteral q.before (bundleSlots v.code q.before.vpc) then some 0x1C2 else none
      | none => none
    else none
  | _, _ => none

/-- The image that a sequencer runs is marked failed (R315). -/
def State.failImage (s : State) (who : SeqId) : State :=
  match (s.seq who).code with
  | some c => match c.slot with
    | some n =>
      let d := s.die c.die
      let x := tabGet ({} : ImageSlot) n d.images
      s.setDie c.die { d with images := tabPut n { x with image := x.image.map fun (i : Image) => { i with failed := true } } d.images }
    | none => s
  | none => s

/-- A bundle that needs a word that cannot be read traps, and its image is marked failed (R315). -/
def State.unreadable (s : State) (who : SeqId) (code : Nat) : State :=
  let q := s.seq who
  ((s.failImage who).openBundle who).takeTrap who
    { point := { slot := 0, cause := BitVec.ofNat 10 code, addr := 0, detail := 0 }, vpc := q.before.vpc,
      entries := [], resume := q.before.vpc, boundary := false, loops := q.before.loops }

end Sys2Proof.Machine
end

