-- ==== Sys2Proof/Machine/Message.lean ====
section
/-! DEFINITION. Messages, time and pausing: SEND, RECV, MPRB, TIME, YLD (spec 11 R248 to R255), the end of a waiting HALT (spec
04 R99), and MESSAGE_SEND_WAIT_LIMIT. -/

namespace Sys2Proof.Machine

/-! ### SEND (R249) -/

/-- The destination word. -/
structure Destination where
  tag : Nat
  pkg : Nat
  cluster : Nat
  queue : Nat

def Destination.ofWord (w : Word) : Destination :=
  { tag := field w 63 48, pkg := field w 31 20, cluster := field w 19 18 * 32 + field w 17 13, queue := field w 2 0 }

/-- The smallest scope that holds a cluster of this package and the destination. -/
def reachScope (own : Nat) (cluster : Nat) (d : Destination) : Scope :=
  if d.pkg ≠ own then .fabric
  else if d.cluster = cluster then .cluster
  else if d.cluster / 32 = cluster / 32 then .die
  else .package

def sendBody (o : Operands) : M Result := do
  let w := o.xb
  raiseIf (field w 47 32 ≠ 0 || field w 12 3 ≠ 0) 0x186
  let s ← get
  let d := Destination.ofWord w
  let own := s.sirxon.package.toNat
  raiseIf (d.pkg ≠ own && (fabricLink s.nets d.pkg).isNone) 0x281
  raiseEarlier o.who (scopeMax (reachScope own o.cluster d) o.scope)
  let s ← get
  if (s.core o.who.core).sendReg.isSome then waitFor .send
  let src : Word := place 48 d.tag + place 20 own + BitVec.ofNat 64 o.who.core.val
  let f : Flit := { payload := o.a.setWidth 256, src := src, stamp := s.stamp, time := (s.seq o.who).time }
  modCore o.who.core fun k =>
    { k with sendReg := some { flit := f, pkg := BitVec.ofNat 12 d.pkg, cluster := Fin.ofNat 128 d.cluster,
                               queue := Fin.ofNat 8 d.queue, group := o.who.group } }
  return {}

/-- SEND (R249). -/
def execSend (w : Slot) (s : State) : Outcome := runSlot 0x6D w sendBody s

/-- Entries of a queue taken or reserved (R249). -/
def Cluster.queueLoad (k : Cluster) (q : Fin 8) : Nat :=
  k.queues[q].length + (k.inbound.filter fun f => f.queue = q).length

/-- The slot of a core that waits for the send register goes on. -/
def State.wakeSender (s : State) (core : Fin 512) : State :=
  (s.resumeWait ⟨core, 0⟩ .send fun _ _ => sendBody).resumeWait ⟨core, 1⟩ .send fun _ _ => sendBody

/-- Does a flit of a cluster reach its destination, and the answer that reserves its entry come back? -/
def State.sendPassage (s : State) (core : Nat) (x : Outgoing) : Passage :=
  roundTrip s.nets (routerOf (clusterOf core)) (routerOf x.cluster)

/-- SEND_FLIT_INJECTION (R249): the destination queue reserves an entry and the send register injects its flit; one for
another package leaves through the fabric. A flit whose way is lost stays in the register. A SEND that waits for the register
then takes it. -/
def execSendFlitInjection (core : Fin 512) (s : State) : Outcome :=
  let k := s.core core
  match k.sendReg with
  | none => .next s
  | some x =>
    let empty (s : State) : State := s.setCore core { s.core core with sendReg := none }
    let who : Agent := .seq ⟨core, x.group⟩
    let pkg := x.pkg.toNat
    if x.pkg ≠ s.sirxon.package then
      if fabricResponds s.nets (s.nets.entry who) pkg && !fabricWaits s.nets pkg then
        .next ({ empty s with nets := s.nets.sendNew who (4 * pkg + x.cluster.val / 32) }.wakeSender core)
      else .next s
    else
      match s.sendPassage core x with
      | .arrives =>
        let c := s.cluster x.cluster
        if c.queueLoad x.queue < 64 then
          let f : Inbound := { queue := x.queue, flit := x.flit, origin := routerOf (clusterOf core) }
          .next ((empty (s.setCluster x.cluster { c with inbound := c.inbound ++ [f] })).wakeSender core)
        else .next s
      | fate => .next { s with nets := s.nets.countDrop fate }

/-- A waiting YLD of the cluster notes that a flit entered a queue (R255). -/
def State.noteFlit (s : State) (cluster : Nat) : State :=
  s.mapSeqs fun w q =>
    match q.wait with
    | some p => if p.kind = .yld && clusterOf w.core = cluster then { q with wait := some { p with flit := true } } else q
    | none => q

/-- The first flit on its way to a queue that no earlier one from its router precedes: packets of one router to another arrive
in the order they were sent (R347). -/
def nextArrival (q : Fin 8) : List Inbound → List Nat → Option Inbound
  | [], _ => none
  | f :: rest, seen => if f.queue = q && !seen.contains f.origin then some f else nextArrival q rest (f.origin :: seen)

/-- A flit enters its queue. -/
def State.enterQueue (s : State) (cluster : Fin 128) (queue : Fin 8) (f : Flit) : State :=
  let k := s.cluster cluster
  (s.setCluster cluster { k with queues := k.queues.set queue (k.queues[queue] ++ [f]) }).noteFlit cluster

/-- MESSAGE_QUEUE_ARRIVAL (R248): a flit on its way enters its queue. -/
def execMessageQueueArrival (cluster : Fin 128) (queue : Fin 8) (s : State) : Outcome :=
  let k := s.cluster cluster
  match nextArrival queue k.inbound [] with
  | none => .next s
  | some f => .next ((s.setCluster cluster { k with inbound := k.inbound.erase f }).enterQueue cluster queue f.flit)

/-- MESSAGE_SEND_WAIT_LIMIT (R249, R99): a SEND, or a HALT whose send register still holds the task's flit, raises 0x187
after 1,048,576 cycles. -/
def execMessageSendWaitLimit (who : SeqId) (s : State) : Outcome :=
  match (s.seq who).wait with
  | none => .next s
  | some p =>
    if s.cycle - p.since < Config.waitLimit || (s.core who.core).sendReg.isNone then .next s
    else if p.kind = .send then .next (s.raiseWait who p 0x187 0 0)
    else if p.kind = .halt && (s.seq who).bundle.endEntry.word ≠ 0 then .next (s.haltTrap who 0x187 0)
    else .next s

/-- RANK_HALT_COMPLETE (R99): the conditions of a waiting HALT hold, and the rank ends. -/
def execRankHaltComplete (who : SeqId) (s : State) : Outcome :=
  let q := s.seq who
  match q.wait, q.bundle.ending with
  | some p, some (.halt f) =>
    if p.kind = .halt && s.haltReady who then
      .next (if q.bundle.endEntry.word ≠ 0 then s.halt who f else s.haltEnd who f)
    else .next s
  | _, _ => .next s

/-! ### RECV and MPRB (R250) -/

def queueOf (o : Operands) : Fin 8 := Fin.ofNat 8 o.slot.b.toNat

/-- Bytes 0 to 47 of a flit. -/
def Flit.bytes (f : Flit) : List Byte :=
  leBytes 32 f.payload.toNat ++ wordBytes f.src ++ wordBytes f.stamp

def recvBody (o : Operands) : M Result := do
  let q := queueOf o
  let k ← getCluster o.cluster
  let line := k.receivers[q]
  let line := if line.contains o.who then line else line ++ [o.who]
  match k.queues[q] with
  | f :: rest =>
    if line.head? = some o.who then
      modCluster o.cluster fun k => { k with queues := k.queues.set q rest, receivers := k.receivers.set q line.tail }
      modSeq o.who fun x => { x with time := max x.time f.time }
      return { value := some (vecOf f.bytes), comp := some 0 }
    else
      modCluster o.cluster fun k => { k with receivers := k.receivers.set q line }
      waitFor .recv
  | [] =>
    modCluster o.cluster fun k => { k with receivers := k.receivers.set q line }
    waitFor .recv

/-- RECV (R250). -/
def execRecv (w : Slot) (s : State) : Outcome := runSlot 0x6E w recvBody s

/-- RECV_WAKE (R250): a waiting RECV receives a flit that has entered its queue. -/
def execRecvWake (who : SeqId) (s : State) : Outcome := .next (s.resumeWait who .recv fun _ _ => recvBody)

/-- A sequencer no longer waits for a flit. -/
def State.dropReceiver (s : State) (who : SeqId) : State :=
  let c := clusterOf who.core
  let k := s.cluster c
  s.setCluster c { k with receivers := k.receivers.map fun l => l.filter fun w => w ≠ who }

/-- Does a queue of its cluster hold a flit for a waiting receiver: one for it and for each that began to wait before? -/
def State.flitFor (s : State) (who : SeqId) (q : Fin 8) : Bool :=
  let k := s.cluster (clusterOf who.core)
  k.receivers[q].idxOf who < k.queues[q].length

/-- MESSAGE_RECEIVE_WAIT_LIMIT (R250): 0x188 after 1,048,576 cycles without a flit, with the queue in DETAIL. -/
def execMessageReceiveWaitLimit (who : SeqId) (s : State) : Outcome :=
  match (s.seq who).wait with
  | some p =>
    if p.kind = .recv && Config.waitLimit ≤ s.cycle - p.since && !s.flitFor who (Fin.ofNat 8 p.w.b.toNat) then
      .next ((s.dropReceiver who).raiseWait who p 0x188 0 (p.w.b.setWidth 16))
    else .next s
  | none => .next s

def mprbBody (o : Operands) : M Result := do
  let k ← getCluster o.cluster
  return Result.ofX (BitVec.ofNat 64 (k.queues[queueOf o]).length)

/-- MPRB (R250). -/
def execMprb (w : Slot) (s : State) : Outcome := runSlot 0x6F w mprbBody s

/-! ### TIME and YLD (R254, R255) -/

def timeNowBody (_ : Operands) : M Result := do return Result.ofX (← get).stamp

def timeUntilBody (o : Operands) : M Result := do
  let s ← get
  if o.xa.ule s.stamp then return Result.ofX 0
  else if s.preemptPending o.who then return Result.ofX 3
  else waitFor .time

/-- time.now (R254). -/
def execTimeNow (w : Slot) (s : State) : Outcome := runSlot 0x71 w timeNowBody s
/-- time.until (R254). -/
def execTimeUntil (w : Slot) (s : State) : Outcome := runSlot 0x71 w timeUntilBody s
/-- TIME_UNTIL_REACHED (R254): a waiting time.until returns 0, or 3 when a pre-emption is pending. -/
def execTimeUntilReached (who : SeqId) (s : State) : Outcome := .next (s.resumeWait who .time fun _ _ => timeUntilBody)

/-- The status of R255 that would end a YLD of n cycles now, the highest row first. -/
def yldStatus (s : State) (who : SeqId) (n : Nat) : Option Nat :=
  let q := s.seq who
  let fired := match q.monitor with
    | some m => m.fired
    | none => false
  let (phase, flit) := match q.wait with
    | some p => (p.phase, p.flit)
    | none => (false, false)
  if n = 0 then some 0
  else if s.preemptPending who then some 3
  else if fired then some 4
  else if phase then some 2
  else if flit then some 1
  else if q.wait.isSome && min n Config.waitLimit ≤ s.waited who then some 0
  else none

def yldBody (o : Operands) : M Result := do
  match yldStatus (← get) o.who o.xa.toNat with
  | some n => return Result.ofX (BitVec.ofNat 64 n)
  | none => waitFor .yld

/-- YLD (R255). -/
def execYld (w : Slot) (s : State) : Outcome := runSlot 0x72 w yldBody s

/-- The status that would end a waiting YLD now. -/
def State.yldNow (s : State) (who : SeqId) : Option Nat :=
  match (s.seq who).wait with
  | some p => if p.kind = .yld then yldStatus s who (p.opA.setWidth 64 : Word).toNat else none
  | none => none

/-- YLD_WAKE (R255): a waiting YLD ends on an event. -/
def execYldWake (who : SeqId) (s : State) : Outcome :=
  if s.yldNow who = some 0 then .next s else .next (s.resumeWait who .yld fun _ _ => yldBody)

/-- YLD_CYCLES_PASSED (R255): the cycles of a waiting YLD have passed. -/
def execYldCyclesPassed (who : SeqId) (s : State) : Outcome :=
  if s.yldNow who = some 0 then .next (s.resumeWait who .yld fun _ _ => yldBody) else .next s

end Sys2Proof.Machine
end

