-- ==== Sys2Proof/Machine/Tower.lean ====
section
/-! DEFINITION. Compute in the towers: phases, BANKMAC, ATTN, ROWZERO and ROWCOPY, and power states (spec 18 R364 to R385). -/

namespace Sys2Proof.Machine

/-! ### Phases (R366 to R369) -/

/-- 16 µs and 4 µs in cycles of the core clock (R368). -/
def yieldCycles : Nat := 30400
def normalCycles : Nat := 7600

/-- COMPUTE_PHASE_YIELD (R368): 16 µs after the first normal request was queued the controller gives a normal phase. -/
def execComputePhaseYield (pc : PcId) (s : State) : Outcome :=
  let p := s.pcAt (pcNum pc)
  match p.queuedAt with
  | some t =>
    if p.compute && t + yieldCycles ≤ s.cycle then
      .next (s.setPcAt (pcNum pc) { p with compute := false, yielded := true, queuedAt := none, normalAt := some s.cycle })
    else .next s
  | none => .next s

/-- NORMAL_PHASE_END (R368): every request that the compute phase kept waiting has been applied, or 4 µs have passed. -/
def execNormalPhaseEnd (pc : PcId) (s : State) : Outcome :=
  let n := pcNum pc
  let p := s.pcAt n
  match p.normalAt with
  | some t =>
    if (s.owedAt n).isEmpty || t + normalCycles ≤ s.cycle then .next (s.setPcAt n { p with normalAt := none }) else .next s
  | none => .next s

/-! ### Blocks and rows (R370, R372, R378) -/

/-- The leaf of a VA that a card names, translated at its slice port: the checks of R351 for a use. -/
def cardLeaf (ag : Agent) (die : Nat) (use : Use) (va : Nat) : M (Nat × Word) := do
  match ← translate ag die (va % 2 ^ 50) va with
  | .unmapped => raise 0x0C1 (BitVec.ofNat 64 va)
  | .malformed => raise 0x0C7 (BitVec.ofNat 64 va)
  | .unreadable pa =>
    modify fun s => s.addError die pa va srcWalk 3
    raise 0x242 (BitVec.ofNat 64 va)
  | .splintering => stall
  | .leaf level _ e =>
    match leafCause use e with
    | some c => raise c (BitVec.ofNat 64 va)
    | none => return (level, e)

/-- The PA of a 2 MiB block: its leaf must be of 2 MiB or 1 GiB (0x160). -/
def blockPa (ag : Agent) (die va : Nat) : M Nat := do
  let (level, e) ← cardLeaf ag die .r va
  raiseIf (level = 0) 0x160 (BitVec.ofNat 64 va)
  return leafPa die (va % 2 ^ 50) level e

/-- A line that a card step reads must not be poisoned (R359). -/
def rowLine (die pa va : Nat) : M Unit := do
  let s ← get
  if (s.die die).poison.contains (pa / 128) then
    set (s.addError die pa va srcCard 3)
    raise 0x241 (BitVec.ofNat 64 va)

/-- The PA of the first byte of row k of a page: its lines have offset bits [13:9] = k (R381). -/
def rowPa (page k : Nat) : Nat := page + 512 * k

/-- The four 512-byte runs of a row. -/
def rowRuns (page k : Nat) : List Nat := (List.range 4).map fun i => rowPa page k + 16384 * i

/-- Lines of a row by PA ÷ 128. -/
def rowLines (page k : Nat) : List Nat := (rowRuns page k).flatMap fun a => (List.range 4).map fun i => a / 128 + i

/-- Every dirty line of the row of a PA is written back: its bytes already stand in DRAM here (R372). -/
def State.cleanRow (s : State) (die pa : Nat) : State :=
  let ls := rowLines (pa / 65536 * 65536) (sliceOf pa)
  let d := s.die die
  if d.lines.any fun l => l.dirty && ls.contains l.line then
    s.setDie die { d with lines := d.lines.map fun l => if ls.contains l.line then { l with dirty := false } else l }
  else s

/-- The slice prepares the rows of a block's banks that a card reads. -/
def State.prepareRows (s : State) (die blk pcsel : Nat) (banks : List Nat) : State :=
  banks.foldl (fun (s : State) b => s.cleanRow die (columnVa blk pcsel b 0)) s

/-- 32 bytes of a bank's row at a column: one column access, from DRAM. -/
def columnBytes (die va blk pcsel bank col : Nat) : M (List Byte) := do
  let pa := columnVa blk pcsel bank col
  rowLine die pa (columnVa va pcsel bank col)
  return (← get).readPa die pa 32

/-- The 16 FP16 values of 32 bytes. -/
def halves (l : List Byte) : List Nat := (List.range 16).map fun i => fromLe ((l.drop (2 * i)).take 2)

/-- FP16 × FP16, exact in FP32. -/
def halfMul (a b : Nat) : Nat := (finish fp32 .nearest ((Val.read fp16 a).mul (Val.read fp16 b))).1

def add32 (a b : Nat) : Nat := (fAdd fp32 .nearest a b).1
def mul32 (a b : Nat) : Nat := (fMul fp32 .nearest a b).1

/-- A column access: acc + tree16 of the products (R51, R364). -/
def columnMac (acc : Nat) (a b : List Nat) : Nat := add32 acc (treeAdd .nearest 4 (List.zipWith halfMul a b)).1

/-! ### Reserved rows (R365) -/

/-- The selector of a pseudo-channel on its die (R370). -/
def pcSelector (n : Nat) : Nat := n % 2 * 32 + n / 32 % 2 * 16 + n % 32 / 2

/-- The PA of a column of a row of a bank of a pseudo-channel. -/
def reservedPa (n bank row col : Nat) : Nat := columnVa (row * 2 ^ 21) (pcSelector n) bank col

def spillRow : Nat := 65535
def tableRow : Nat := 65534
def sequencerRow : Nat := 65533

/-- Write bytes into a reserved row from its first column on, in whole lines; what fills the last line is zero. -/
def State.writeRow (s : State) (n bank row : Nat) (l : List Byte) : State :=
  let die := n / 64
  let l := l ++ zeros ((128 - l.length % 128) % 128)
  (List.range (l.length / 128)).foldl (fun (s : State) i =>
    s.putBytes (.dram die (reservedPa n bank row (128 * i))) ((l.drop (128 * i)).take 128)) s

/-- The first bytes of a reserved row, so many lines of them. -/
def State.readRow (s : State) (n bank row lines : Nat) : List Byte :=
  (List.range lines).flatMap fun i => s.readPa (n / 64) (reservedPa n bank row (128 * i)) 128

/-- A poisoned line among the first of a reserved row. -/
def State.rowMark (s : State) (n bank row lines : Nat) : Option Nat :=
  ((List.range lines).map fun i => reservedPa n bank row (128 * i)).find? fun pa => (s.die (n / 64)).poison.contains (pa / 128)

/-! ### Running a card that holds a compute phase -/

/-- A BANKMAC or ATTN card whose compute phase stands, and its pseudo-channel. -/
def State.towerCard (s : State) (die : Fin 4) (serial : Nat) (kind : BitVec 8) : Option (Entry × Nat) :=
  match s.cardAt die serial kind with
  | none => none
  | some e =>
    match e.towerPc die with
    | none => none
    | some n =>
      let p := s.pcAt n
      if e.status = .issued && p.compute && p.card = some (die, serial) then some (e, n) else none

/-- The compute phase of a card is over. -/
def Pc.release (p : Pc) : Pc :=
  { p with compute := false, card := none, yielded := false, queuedAt := none, held := [], parity := false }

/-- A card fails: its phase ends, the live flag is clear (R383). -/
def State.failTower (s : State) (die : Fin 4) (serial n : Nat) (code : Cause) (retire : Bool) : State :=
  let p := (s.pcAt n).release
  (s.setPcAt n { p with live := false, retired := p.retired || retire }).finishCard die serial 0 (some code)

/-- Run the steps of a card on a pseudo-channel: a cause fails it, a wait leaves it as it was. The card's own accesses to
global memory stand outside its compute phase, so the phase is lifted for them. -/
def runTower (s : State) (die : Fin 4) (serial n : Nat) (parity : Bool) (bytes : Nat) (work : M Unit) (fail : State → State) :
    Outcome :=
  if (s.pcAt n).retired then .next (fail (s.failTower die serial n 0x150 false))
  else
    match (s.setPcAt n { s.pcAt n with compute := false, held := [] }).tryFor die serial work with
    | .fails s c => .next (fail (s.failTower die serial n c false))
    | .waits s' => .next (s.noteQueued s' die serial)
    | .ok _ s' =>
      if parity || (s.pcAt n).parity then .next (fail (s.failTower die serial n 0x2C1 true))
      else .next ((s'.setPcAt n (s'.pcAt n).release).finishCard die serial bytes none)

/-! ### BANKMAC (R373 to R375) -/

def Pc.reg (p : Pc) (bank r : Nat) : BitVec 256 := tabGet 0 (16 * bank + r) p.regs
def Pc.accum (p : Pc) (bank a : Nat) : Nat := (tabGet (0 : BitVec 32) (64 * bank + a) p.acc).toNat

/-- An all-bank broadcast of a register image. -/
def Pc.broadcast (p : Pc) (banks : List Nat) (img : List Byte) : Pc :=
  let n := img.length / 32
  let put (t : Tab (BitVec 256)) (x : Nat × Nat) : Tab (BitVec 256) :=
    tabPut (16 * x.1 + x.2) (BitVec.ofNat 256 (fromLe ((img.drop (32 * x.2)).take 32))) t
  { p with regs := (banks.flatMap fun b => (List.range n).map fun j => (b, j)).foldl put p.regs }

def Pc.setAccum (p : Pc) (bank a v : Nat) : Pc := { p with acc := tabPut (64 * bank + a) (BitVec.ofNat 32 v) p.acc }

/-- One accumulator of one bank: its column accesses in order. -/
def macColumns (die va blk pcsel bank a col0 nreg : Nat) (p : Pc) : List Nat → Nat → M Nat
  | [], acc => return acc
  | j :: rest, acc => do
    let l ← columnBytes die va blk pcsel bank (col0 + 32 * (a * nreg + j))
    macColumns die va blk pcsel bank a col0 nreg p rest (columnMac acc (halves l) (halves (leBytes 32 (p.reg bank j).toNat)))

/-- Every bank and accumulator of a card. -/
def macBanks (n die blk : Nat) (b : BankMac) : List (Nat × Nat) → M Unit
  | [] => return ()
  | (bank, a) :: rest => do
    let p := (← get).pcAt n
    let v ← macColumns die b.blk blk b.pcsel bank a b.col0 b.nreg p (List.range b.nreg) (p.accum bank a)
    modify fun s => s.setPcAt n ((s.pcAt n).setAccum bank a v)
    macBanks n die blk b rest

/-- The agent of a BANKMAC card of a pseudo-channel, and of an ATTN card. -/
def bankAgent (die n : Nat) : Agent := .engine die (.bankMac (Fin.ofNat 8 (n / 32)))
def attnAgent (die n : Nat) : Agent := .engine die (.attention (Fin.ofNat 8 (n / 32)))

def bankmacWork (die n : Nat) (b : BankMac) : M Unit := do
  raiseIf (!b.clr && ((← get).pcAt n).lost) 0x2C2
  let blk ← blockPa (bankAgent die n) die b.blk
  if b.clr then modify fun s => s.setPcAt n { s.pcAt n with lost := false }
  modify fun s => s.prepareRows die blk b.pcsel b.banks
  let img ← readGlobal (bankAgent die n) .fabric 0 b.vec (32 * b.nreg)
  let pairs := b.banks.flatMap fun k => (List.range b.nacc).map fun a => (k, a)
  modify fun s =>
    let p := (s.pcAt n).broadcast b.banks img
    let p := if b.clr || !p.live then pairs.foldl (fun p x => p.setAccum x.1 x.2 0) p else p
    s.setPcAt n p
  macBanks n die blk b pairs
  let p := (← get).pcAt n
  writeGlobal (bankAgent die n) .fabric 0 b.out (pairs.flatMap fun x => leBytes 4 (p.accum x.1 x.2))
  modify fun s => s.setPcAt n { s.pcAt n with live := b.hold }

/-- BANKMAC (R373, R374). -/
def execBankmac (die : Fin 4) (serial : Nat) (parity : Bool) (s : State) : Outcome :=
  match s.towerCard die serial kindBankmac with
  | none => .next s
  | some (e, n) =>
    let b := BankMac.ofCard e.cardBytes
    runTower s die serial n parity (4 * b.nacc * b.banks.length) (bankmacWork die n b) id

/-! ### ATTN (R377 to R379) -/

/-- A block table entry: its block's VA on the home die and its key bank; none when invalid (R378). -/
def tableEntry (die va : Nat) (w : Word) : Option (Nat × Nat) :=
  let bank := field w 3 0
  if field w 63 50 ≠ 0 || field w 20 4 ≠ 0 || 8 ≤ bank then none
  else some (va / 2 ^ 52 * 2 ^ 52 + die * 2 ^ 50 + field w 49 21 * 2 ^ 21, bank)

/-- A page of the cache: its block's VA and PA, and its key bank. -/
structure KvPage where
  va : Nat
  pa : Nat
  bank : Nat

/-- Every entry of the table is checked before the first score. -/
def checkTable (ag : Agent) (die bt : Nat) : List Word → M (List KvPage)
  | [] => return []
  | w :: rest => do
    match tableEntry die bt w with
    | none => raise 0x161
    | some (va, bank) =>
      let pa ← blockPa ag die va
      let t ← checkTable ag die bt rest
      return { va := va, pa := pa, bank := bank } :: t

/-- The sequencer reads the table, stages it in its reserved row (R365, R378), and checks it. -/
def stageTable (die n : Nat) (a : Attention) : M (List KvPage) := do
  let bt ← readGlobal (attnAgent die n) .fabric 0 a.bt (8 * a.nblk)
  modify fun s => s.writeRow n 0 tableRow bt
  checkTable (attnAgent die n) die a.bt ((List.range a.nblk).map fun i => wordAt bt (8 * i))

/-- A token's dot product with the query: one column access for each 16 values. -/
def tokenDot (die : Nat) (g : KvPage) (pcsel base : Nat) (q : List Nat) : List Nat → Nat → M Nat
  | [], acc => return acc
  | j :: rest, acc => do
    let l ← columnBytes die g.va g.pa pcsel g.bank (base + 32 * j)
    tokenDot die g pcsel base q rest (columnMac acc (halves l) ((q.drop (16 * j)).take 16))

/-- A token's value vector. -/
def tokenValue (die : Nat) (g : KvPage) (pcsel base : Nat) : List Nat → M (List Nat)
  | [] => return []
  | j :: rest => do
    let l ← columnBytes die g.va g.pa pcsel (g.bank + 8) (base + 32 * j)
    let t ← tokenValue die g pcsel base rest
    return halves l ++ t

/-- The running maximum, sum and outputs. -/
structure Running where
  m : Nat
  l : Nat
  o : List Nat

/-- exp_rne (R379). -/
def expRne (v : Val) : Nat := (expVal fp32 .nearest true v).1
def diff32 (a b : Nat) : Val := ((Val.read fp32 a).sub .nearest (Val.read fp32 b)).1

/-- The sequencer's registers take new values. -/
def setRunning (n : Nat) (r : Running) : M Unit :=
  modify fun s => s.setPcAt n { s.pcAt n with
    attn := { m := BitVec.ofNat 32 r.m, l := BitVec.ofNat 32 r.l, o := r.o.zipIdx.map fun x => (x.2, BitVec.ofNat 32 x.1) } }

/-- The scores of a page's tokens. -/
def pageScores (die : Nat) (g : KvPage) (a : Attention) (q : List Nat) : List Nat → M (List Nat)
  | [] => return []
  | s :: rest => do
    let d ← tokenDot die g a.pcsel (2 * a.hd * s) q (List.range a.nh) 0
    let t ← pageScores die g a q rest
    return mul32 d a.scale.toNat :: t

/-- The tokens of a page enter sum and outputs, ascending. -/
def pageTokens (die n : Nat) (g : KvPage) (a : Attention) (mn : Nat) : List (Nat × Nat) → Running → M Running
  | [], r => return r
  | (slot, s) :: rest, r => do
    let w := expRne (diff32 s mn)
    let v ← tokenValue die g a.pcsel (2 * a.hd * slot) (List.range a.nh)
    let r := { r with l := add32 r.l w, o := List.zipWith (fun o x => add32 o (mul32 w (widen32 fp16 x).1)) r.o v }
    setRunning n r
    pageTokens die n g a mn rest r

/-- One page after another. -/
def attnPages (die n : Nat) (a : Attention) (q : List Nat) : List (KvPage × Nat) → Running → M Running
  | [], r => return r
  | (g, p) :: rest, r => do
    let slots := (List.range a.tpr).filter fun t => p * a.tpr + t < a.ntok
    let ss ← pageScores die g a q slots
    let mp := paddedTree (fun x y => (fMinMax fp32 true x y).1) 0xFF800000 ss
    let mn := (fMinMax fp32 true r.m mp).1
    let f := if (Val.read fp32 r.m).eqv (Val.read fp32 mn) then 0x3F800000 else expRne (diff32 r.m mn)
    let r := { r with l := mul32 r.l f, o := r.o.map fun x => mul32 x f }
    setRunning n r
    let r ← pageTokens die n g a mn (slots.zip ss) r
    setRunning n { r with m := mn }
    attnPages die n a q rest { r with m := mn }

def attnWork (die n : Nat) (a : Attention) : M Unit := do
  let pages ← stageTable die n a
  let img ← readGlobal (attnAgent die n) .fabric 0 a.q (2 * a.hd)
  let q := (List.range a.hd).map fun i => fromLe ((img.drop (2 * i)).take 2)
  modify fun s => pages.foldl (fun (s : State) g => s.prepareRows die g.pa a.pcsel [g.bank, g.bank + 8]) s
  let start : Running := { m := 0xFF800000, l := 0, o := List.replicate a.hd 0 }
  setRunning n start
  let r ← attnPages die n a q pages.zipIdx start
  let out := (r.o.map fun x => leBytes 4 (fDiv fp32 .nearest x r.l).1).flatten ++ leBytes 4 r.m ++ leBytes 4 r.l
  writeGlobal (attnAgent die n) .fabric 0 a.out out

/-- However an ATTN card ends, the bank units are zero and the live flag is clear (R379). -/
def State.clearUnits (s : State) (n : Nat) : State := s.setPcAt n { s.pcAt n with regs := [], acc := [], live := false }

/-- ATTN (R377 to R379). -/
def execAttn (die : Fin 4) (serial : Nat) (parity : Bool) (s : State) : Outcome :=
  match s.towerCard die serial kindAttn with
  | none => .next s
  | some (e, n) =>
    let a := Attention.ofCard e.cardBytes
    let work : M Unit := do
      attnWork die n a
      modify fun s => s.clearUnits n
    runTower s die serial n parity (4 * a.hd + 8) work fun s => s.clearUnits n

/-! ### ROWZERO and ROWCOPY (R380 to R382) -/

/-- A page of a row card under R351, a compressed one refused (R380). -/
def pagePa (ag : Agent) (die : Nat) (use : Use) (va : Nat) : M Nat := do
  let (level, e) ← cardLeaf ag die use va
  raiseIf (pteCmp e) 0x0C5 (BitVec.ofNat 64 va)
  if use.write && pteMig e then stall
  return leafPa die (va % 2 ^ 50) level e

def pagePas (ag : Agent) (die : Nat) (use : Use) (base : Nat) : List Nat → M (List Nat)
  | [] => return []
  | i :: rest => do
    let p ← pagePa ag die use (base + 65536 * i)
    let t ← pagePas ag die use base rest
    return p :: t

/-- A row's subarray: pseudo-channel, bank and row ÷ 512 (R361). -/
def subarrayKey (die pa : Nat) : Nat := (pcOf die pa * 16 + pa / 2 ^ 17 % 16) * 128 + pa / 2 ^ 30

/-- A row's own key. -/
def rowKey (die pa : Nat) : Nat := (pcOf die pa * 16 + pa / 2 ^ 17 % 16) * 65536 + pa / 2 ^ 21

/-- Poison marks of a row's lines. -/
def Die.rowPoison (d : Die) (page k : Nat) : List Nat := d.poison.filter fun x => (rowLines page k).contains x

/-- The row unit of the tower of row k of a die's pages. -/
def rowUnit (die k : Nat) : CardUnit := .row (Fin.ofNat 8 (2 * die + k / 16))

/-- A row takes one write time: its lines leave the slice and FLOOR rises to it (R372, R382, R327). -/
def State.dropRow (s : State) (die page k : Nat) : State :=
  let ls := rowLines page k
  let ag : Agent := .engine die (rowUnit die k)
  let t := ls.foldl (fun m l => let (_, rts) := s.lineTimes (.dram die (128 * l)); max m (rts + 1)) (s.timeOf ag)
  let d := s.die die
  let s := s.setDie die { d with lines := d.lines.filter fun l => !ls.contains l.line,
                                 floors := raiseFloor d.floors (sliceOf (rowPa page k)) t }
  ls.foldl (fun (s : State) l => s.fireMonitors (dramKey die (128 * l) / 128)) (s.setTime t ag)

/-- A row done through the row buffers is counted by its tower (R381). -/
def Die.countFallback (d : Die) (k : Nat) : Die :=
  { d with fallbackRows := tabPut (k / 16) (tabGet 0 (k / 16) d.fallbackRows + 1) d.fallbackRows }

/-- Copy cells of a range, which stay where they are. -/
def copyCells (m : Memory) (src dst n : Nat) : Memory :=
  (m.filter fun c => src ≤ c.1 && c.1 < src + n).foldl (fun acc c => writeByte (c.1 - src + dst) c.2 acc) (clearBytes m dst n)

/-- Zero a row. -/
def State.zeroRow (s : State) (die page k : Nat) : State :=
  let s := { s with dram := (rowRuns page k).foldl (fun m a => clearBytes m (dramKey die a) 512) s.dram }
  let d := s.die die
  let spare := tabGet 0 (subarrayKey die (rowPa page k)) d.spares < 4
  let marks := d.rowPoison page k
  let d := { d with poison := d.poison.filter fun x => !marks.contains x }
  (s.setDie die (if spare then d else d.countFallback k)).dropRow die page k

/-- Do two rows lie in one subarray of one bank of one pseudo-channel (R381)? -/
def sameSubarray (a b : Nat) : Bool := a / 2 ^ 30 == b / 2 ^ 30 && a / 2 ^ 16 % 32 == b / 2 ^ 16 % 32

/-- Copy a row, its source's dirty lines written back first (R382): cloned in DRAM with its poison marks, or through the row
buffers. -/
def State.copyRow (s : State) (die src dst k : Nat) : State :=
  let s := s.cleanRow die (rowPa src k)
  let s := { s with dram := (List.range 4).foldl (fun m i =>
    copyCells m (dramKey die (rowPa src k + 16384 * i)) (dramKey die (rowPa dst k + 16384 * i)) 512) s.dram }
  let d := s.die die
  let marks := d.rowPoison dst k
  let cleared := d.poison.filter fun x => !marks.contains x
  let d := if sameSubarray src dst then
      let moved := (d.rowPoison src k).map fun x => x + dst / 128 - src / 128
      { d with poison := cleared ++ moved }
    else ({ d with poison := cleared } : Die).countFallback k
  (s.setDie die d).dropRow die dst k

/-- One row of a page of a row card. On the fallback path every source line is read through ECC: a poisoned one stops the card
(R381), and a source row on another pseudo-channel waits for that one. -/
def rowStep (die : Nat) (copies : Bool) (src dst srcVa k : Nat) : M Unit := do
  if !copies then modify fun s => s.zeroRow die dst k
  else if sameSubarray src dst then modify fun s => s.copyRow die src dst k
  else
    let va := srcVa + 512 * k
    if pcOf die (rowPa src k) ≠ pcOf die (rowPa dst k) then needRow (.engine die (rowUnit die k)) die (rowPa src k) va
    match ((← getDie die).rowPoison src k) with
    | l :: _ =>
      modify fun s => s.addErrorAt false die (128 * l) (srcVa + (128 * l - src)) srcCard 3
      raise 0x241 (BitVec.ofNat 64 va)
    | [] => modify fun s => s.copyRow die src dst k

/-- The checks of a row card at issue: the PAs of its pages, destination and source (R380). -/
def rowPages (die : Nat) (copies : Bool) (c : RowCard) : M (List (Nat × Nat)) := do
  let ag : Agent := .engine die (.row (Fin.ofNat 8 (2 * die)))
  let ds ← pagePas ag die .w c.dst (List.range c.npages)
  if copies then
    let rs ← pagePas ag die .r c.src (List.range c.npages)
    return ds.zip rs
  else return ds.zip ds

/-- The end of a row card, which both row units of the die served; Sirxon reports the towers' counts of fallback rows (R381, the
record's place is log entry 67). -/
def State.finishRow (s : State) (die : Fin 4) (serial bytes : Nat) (fail : Option Cause) : State :=
  let s := { s with pcs := s.pcs.map fun (e : Nat × Pc) => (e.1, if e.2.card = some (die, serial) then e.2.release else e.2) }
  let s := (s.endUnit die (rowUnit die 16)).finishCard die serial bytes fail
  (List.range 2).foldl (fun (s : State) t =>
    let n := tabGet 0 t (s.die die).fallbackRows
    if n = 0 then s else s.addHealth 11 none (some n)) s

/-- A ready row card issues: its engine is there, and its pages pass. -/
def State.issueRow (s : State) (die : Fin 4) (e : Entry) : State :=
  let copies := e.card = some kindRowcopy
  if (s.die die).gone (if copies then kindRowcopy else kindRowzero) then (s.issueCard die e).finishRow die e.serial 0 (some 0x150)
  else
    match s.tryFor die e.serial (rowPages die copies (RowCard.ofCard e.cardBytes)) with
    | .waits s => s
    | .fails s c => (s.issueCard die e).finishRow die e.serial 0 (some c)
    | .ok l s => ((s.issueCard die e).startUnit die (rowUnit die 16)).modEntry die e.serial fun y => { y with pages := l }

/-- Rows of a card's first page that stand in their compute phase. -/
def State.rowsReady (s : State) (die : Fin 4) (e : Entry) : List Nat :=
  match e.pages with
  | [] => []
  | (dst, _) :: _ => (List.range 32).filter fun k =>
    let p := s.pcAt (pcOf die (rowPa dst k))
    !e.rows.contains k && p.compute && p.card = some (die, e.serial)

/-- Run rows of a page: each one that is done ends its phase. The answer is the cause that stopped the card. -/
def runRows (die : Fin 4) (serial : Nat) (copies : Bool) (src dst srcVa : Nat) : List Nat → State → State × Option Cause
  | [], s => (s, none)
  | k :: rest, s =>
    match s.tryFor die serial (rowStep die copies src dst srcVa k) with
    | .fails s c => (s, some c)
    | .waits s => runRows die serial copies src dst srcVa rest s
    | .ok _ s =>
      let n := pcOf die (rowPa dst k)
      let s := s.setPcAt n (s.pcAt n).release
      runRows die serial copies src dst srcVa rest (s.modEntry die serial fun y => { y with rows := k :: y.rows, begun := n :: y.begun })

/-- A page whose 32 rows are done gives way to the next; the last one ends the card. -/
def State.nextPage (s : State) (die : Fin 4) (serial : Nat) : State :=
  match s.entry die serial with
  | none => s
  | some e =>
    if e.rows.length < 32 then s
    else
      let s := s.modEntry die serial fun y => { y with pages := y.pages.drop 1, rows := [], doneBytes := y.doneBytes + 65536 }
      if e.pages.length ≤ 1 then s.finishRow die serial (e.doneBytes + 65536) none else s

/-- A parity error shows in a pseudo-channel that the card's rows run on (R383): the card fails and those units are retired. -/
def State.rowParity (s : State) (die : Fin 4) (serial : Nat) (parity : Bool) : Option State :=
  let mine := (s.pcs.filter fun e => e.2.card = some (die, serial)).map Prod.fst
  let shown := mine.filter fun n => (s.pcAt n).parity
  let shown := if parity && shown.isEmpty then mine.take 1 else shown
  if shown.isEmpty then none
  else some (shown.foldl (fun (s : State) n => s.setPcAt n { s.pcAt n with retired := true, parity := false }) s)

/-- A row card: it issues when its turn comes, and then does the rows whose pseudo-channels are in its compute phase. -/
def runRowCard (kind : BitVec 8) (copies : Bool) (die : Fin 4) (serial : Nat) (parity : Bool) (s : State) : Outcome :=
  match s.cardAt die serial kind with
  | none => .next s
  | some e =>
    if e.status ≠ .issued then
      .next (match s.nextCard die Entry.isRow with
        | some y => if y.serial = serial then s.issueRow die e else s
        | none => s)
    else
      match s.rowParity die serial parity with
      | some s => .next (s.finishRow die serial e.doneBytes (some 0x2C1))
      | none =>
        let c := RowCard.ofCard e.cardBytes
        let (dst, src) := e.pages.headD (0, 0)
        match runRows die serial copies src dst (c.src + e.doneBytes) (s.rowsReady die e) s with
        | (s, some code) => .next (s.finishRow die serial e.doneBytes (some code))
        | (s, none) => .next (s.nextPage die serial)

/-- ROWZERO (R380 to R382). -/
def execRowzero (die : Fin 4) (serial : Nat) (parity : Bool) (s : State) : Outcome :=
  runRowCard kindRowzero false die serial parity s
/-- ROWCOPY (R380 to R382). -/
def execRowcopy (die : Fin 4) (serial : Nat) (parity : Bool) (s : State) : Outcome :=
  runRowCard kindRowcopy true die serial parity s

/-! ### The start of a compute phase (R366, R369, R372) -/

/-- The row of a PA, held from writes, or from reads too. -/
def heldRow (pa : Nat) (reads : Bool) : HeldRow := { bank := pa / 2 ^ 17 % 16, row := pa / 2 ^ 21 % 65536, reads := reads }

/-- The rows of a pseudo-channel that a card's steps read or write there, as far as its names can be translated. -/
def State.rowsHeld (s : State) (die : Fin 4) (n : Nat) (e : Entry) : List HeldRow :=
  if e.card = some kindBankmac then
    let b := BankMac.ofCard e.cardBytes
    match (blockPa (bankAgent die n) die b.blk).on s with
    | (.ok blk, _) => b.banks.map fun k => heldRow (columnVa blk b.pcsel k 0) false
    | (.error _, _) => []
  else if e.card = some kindAttn then
    let a := Attention.ofCard e.cardBytes
    match (stageTable die n a).on s with
    | (.ok l, _) => l.flatMap fun g => [heldRow (columnVa g.pa a.pcsel g.bank 0) false, heldRow (columnVa g.pa a.pcsel (g.bank + 8) 0) false]
    | (.error _, _) => []
  else
    match e.pages with
    | [] => []
    | (dst, src) :: _ =>
      let k := ((List.range 32).find? fun k => pcOf die (rowPa dst k) = n).getD 0
      heldRow (rowPa dst k) true ::
        (if e.card = some kindRowcopy && pcOf die (rowPa src k) = n then [heldRow (rowPa src k) false] else [])

/-- A compute phase starts for a card; requests that a yield left waiting start a new count (R368). -/
def State.startPhase (s : State) (die : Fin 4) (n : Nat) (e : Entry) : State :=
  s.setPcAt n { s.pcAt n with compute := true, card := some (die, e.serial), yielded := false, held := s.rowsHeld die n e,
                              queuedAt := if (s.owedAt n).isEmpty then none else some s.cycle }

/-- Has a page a row on a pseudo-channel beside the rows done? -/
def pageOn (die n dst : Nat) (done : List Nat) : Bool := (List.range 32).any fun k => !done.contains k && pcOf die (rowPa dst k) = n

/-- Has an issued row card a row of its current page to do on a pseudo-channel? -/
def Entry.rowOn (die n : Nat) (e : Entry) : Bool :=
  e.isRow && e.status = .issued && match e.pages with
    | [] => false
    | (dst, _) :: _ => pageOn die n dst e.rows

/-- Has it a row of any page still to do there? -/
def Entry.rowsLeft (die n : Nat) (e : Entry) : Bool :=
  e.rowOn die n || (e.isRow && e.status = .issued && (e.pages.drop 1).any fun p => pageOn die n p.1 [])

/-- The next card of a pseudo-channel: a row card that has begun there and has rows left keeps it (R369); otherwise the first, in
the order in which engines serve cards (R279), of the ready cards for it and the row cards that have issued and not begun there. -/
def State.nextTower (s : State) (die n : Nat) : Option Entry :=
  let d := s.die die
  let ready (e : Entry) : Bool := !s.noIssue die && e.cardReady && (e.towerPc die = some n || e.isRow)
  match d.table.find? fun e => e.begun.contains n && e.rowsLeft die n with
  | some e => some e
  | none => d.firstCard fun e => ready e || e.rowsLeft die n

/-- The next card of a pseudo-channel takes it, issuing if it has not; a row card whose current page has no row left there does not
let another card in. -/
def State.takePhase (s : State) (die : Fin 4) (n : Nat) : State :=
  match s.nextTower die n with
  | none => s
  | some e =>
    if e.isRow then
      let s := if e.status = .issued then s else s.issueRow die e
      match s.entry die e.serial with
      | some e => if e.rowOn die n then s.startPhase die n e else s
      | none => s
    else (s.issueCard die e).startPhase die n e

/-- COMPUTE_PHASE_START (R366, R369): a card step needs the pseudo-channel: the card that a yield stopped, or the next one for it
once the requests queued before it have been applied. -/
def execComputePhaseStart (pc : PcId) (s : State) : Outcome :=
  let n := pcNum pc
  let p := s.pcAt n
  let die : Fin 4 := Fin.ofNat 4 (pc.tower.val / 2)
  if p.compute || p.normalAt.isSome || p.power ≠ .on then .next s
  else
    match p.card with
    | some (d, serial) => .next (match s.entry d serial with
      | some e => s.startPhase d n e
      | none => s)
    | none => .next (if (s.owedAt n).isEmpty then s.takePhase die n else s)

/-! ### Power states (R376) -/

/-- A bank unit's state in its spill row: registers, then accumulators (the order is log entry 67). -/
def Pc.unitBytes (p : Pc) (bank : Nat) : List Byte :=
  ((List.range 16).flatMap fun r => leBytes 32 (p.reg bank r).toNat) ++ (List.range 64).flatMap fun a => leBytes 4 (p.accum bank a)

/-- The sequencer's: m, l, o0 to o255. -/
def Pc.sequencerBytes (p : Pc) : List Byte :=
  leBytes 4 p.attn.m.toNat ++ leBytes 4 p.attn.l.toNat
    ++ (List.range 256).flatMap fun i => leBytes 4 (tabGet (0 : BitVec 32) i p.attn.o).toNat

/-- Sirxon writes the units' state to the spill rows. -/
def State.spill (s : State) (n : Nat) : State :=
  let p := s.pcAt n
  let s := (List.range 16).foldl (fun (s : State) b => s.writeRow n b spillRow (p.unitBytes b)) s
  s.writeRow n 0 sequencerRow p.sequencerBytes

/-- Numbers of w bytes in a list of bytes. -/
def numbersOf (w count : Nat) (l : List Byte) : List Nat := (List.range count).map fun i => fromLe ((l.drop (w * i)).take w)

/-- The units as the spill rows hold them. -/
def State.restored (s : State) (n : Nat) : Pc :=
  let rows := (List.range 16).map fun b => (b, s.readRow n b spillRow 6)
  let q := numbersOf 4 258 (s.readRow n 0 sequencerRow 9)
  { s.pcAt n with
    regs := rows.flatMap fun r => (numbersOf 32 16 r.2).zipIdx.map fun x => (16 * r.1 + x.2, BitVec.ofNat 256 x.1),
    acc := rows.flatMap fun r => (numbersOf 4 64 (r.2.drop 512)).zipIdx.map fun x => (64 * r.1 + x.2, BitVec.ofNat 32 x.1),
    attn := { m := BitVec.ofNat 32 (q.getD 0 0), l := BitVec.ofNat 32 (q.getD 1 0),
              o := (q.drop 2).zipIdx.map fun x => (x.2, BitVec.ofNat 32 x.1) } }

/-- An uncorrectable error has shown in the row of a PA (R361). -/
def State.failRow (s : State) (die pa : Nat) : State :=
  let d := s.die die
  let key := rowKey die pa
  if d.failedRows.contains key then s else s.setDie die { d with failedRows := key :: d.failedRows }

/-- A line of the spill rows that cannot be read. -/
def State.spillMark (s : State) (n : Nat) : Option Nat :=
  ((List.range 16).map fun b => (b, spillRow, 6)).findSome? (fun r => s.rowMark n r.1 r.2.1 r.2.2)
    <|> s.rowMark n 0 sequencerRow 9

/-- POWER_STATE_REQUEST (R376): not during a compute phase; live state is spilled first. -/
def execPowerStateRequest (pc : PcId) (deep : Bool) (s : State) : Outcome :=
  let n := pcNum pc
  let p := s.pcAt n
  if p.compute || p.power ≠ .on then .next s
  else
    let st : Power := if deep then .powerDown else .selfRefresh
    if p.live then .next ((s.spill n).setPcAt n { p with power := st, spilled := true, live := false })
    else .next (s.setPcAt n { p with power := st })

/-- A spilled state that an uncorrectable error took: the units read +0 (R376). -/
def Pc.lose (p : Pc) : Pc :=
  { p with power := .on, spilled := false, live := false, lost := true, regs := [], acc := [], attn := {} }

/-- POWER_STATE_EXIT (R376): spilled state is restored and live again, or lost to an uncorrectable error in a spill row: one
that is poisoned, or one found now. The record's SOURCE is 2 (log entry 70). -/
def execPowerStateExit (pc : PcId) (spillLost : Bool) (s : State) : Outcome :=
  let n := pcNum pc
  let p := s.pcAt n
  let die := n / 64
  if p.power = .on then .next s
  else if !p.spilled then .next (s.setPcAt n { p with power := .on })
  else
    match s.spillMark n with
    | some pa => .next (((s.failRow die pa).addErrorAt false die pa 0 srcCard 3).setPcAt n p.lose)
    | none =>
      if spillLost then
        let pa := reservedPa n 0 spillRow 0
        let s := s.failRow die pa
        let d := s.die die
        .next (((s.setDie die { d with poison := pa / 128 :: d.poison }).addErrorAt false die pa 0 srcCard 2).setPcAt n p.lose)
      else .next (s.setPcAt n { s.restored n with power := .on, spilled := false, live := true })

end Sys2Proof.Machine
end

