-- ==== Sys2Proof/Machine/Upkeep.lean ====
section
/-! DEFINITION. What the part does by itself: write paths and caches draining, requests without response, patrol and sparing,
recalibration and retirement, links, the health ring, clocks and cooling (spec 15 R325 to R331, spec 17 R348,
R359 to R361, spec 07 R161, R176, spec 11 R259, spec 19 R398 to R404, spec 20 R406 to R411). -/

namespace Sys2Proof.Machine

/-! ### Drains (R326, R328, R331) -/

/-- CORE_WRITE_PATH_DRAIN (R326): the core's writes enter the cluster cache in order. -/
def execCoreWritePathDrain (core : Fin 512) (s : State) : Outcome := .next (s.passAll core)

/-- Every pending write that its home can apply is applied, in order within each line. -/
def drainAble (cluster : Nat) : List PendingWrite → List Nat → State → State
  | [], _, s => s
  | p :: rest, held, s =>
    if held.contains (p.va / 128) then drainAble cluster rest held s
    else
      match s.applyPending cluster p with
      | (s', none) => drainAble cluster rest ((p.va / 128) :: held) s'
      | (s', some _) =>
        drainAble cluster rest held (s'.retirePending cluster p)

/-- CLUSTER_CACHE_WRITE_DRAIN (R326): queued writes reach their home slices. -/
def execClusterCacheWriteDrain (cluster : Fin 128) (s : State) : Outcome :=
  .next (drainAble cluster (s.cluster cluster).pending [] s)

/-- CLUSTER_CACHE_COPY_DROP (R328): copies fetched 65,536 cycles ago or more leave, unless a write of theirs is pending. -/
def execClusterCacheCopyDrop (cluster : Fin 128) (s : State) : Outcome :=
  .next (s.setCluster cluster ((s.cluster cluster).expire s.cycle))

/-! ### Requests without response (R348, R411) -/

/-- A slot waits for a response until a limit: the request is sent once more, and then a cause is raised. -/
def State.timeoutWait (s : State) (who : SeqId) (kind : WaitKind) (limit code : Nat) : State :=
  let q := s.seq who
  match q.wait with
  | none => s
  | some p =>
    if p.kind ≠ kind || s.cycle - p.since < limit then s
    else if q.bundle.resent then s.raiseWait who p code p.addr 0
    else s.setSeq who { q with wait := none, bundle := { q.bundle with resent := true } }

/-- NETWORK_REQUEST_TIMEOUT (R348): no response within 65,536 cycles; 0x244 after the second send. -/
def execNetworkRequestTimeout (who : SeqId) (s : State) : Outcome :=
  .next (s.timeoutWait who .network Config.networkTimeout 0x244)
/-- FABRIC_REQUEST_TIMEOUT (R411): no response within 1,048,576 cycles; 0x282 after the second send. -/
def execFabricRequestTimeout (who : SeqId) (s : State) : Outcome :=
  .next (s.timeoutWait who .fabric Config.fabricTimeout 0x282)

/-! ### Patrol and sparing (R359, R361) -/

/-- An access of a SOURCE finds an error in a line, in the slice's copy or in DRAM (R359): a corrected one is written back and
recorded, an uncorrectable one marks the line poisoned. What is found in DRAM counts for its row (R361). -/
def State.foundError (s : State) (slc : Bool) (die line va source : Nat) (found : LineCheck) : State :=
  let pa := 128 * line
  let d := s.die die
  let key := rowKey die pa
  match found with
  | .clean => s
  | .corrected =>
    let d := if slc then d else { d with corrected := tabPut key (tabGet 0 key d.corrected + 1) d.corrected }
    (s.setDie die d).addErrorAt slc die pa va source 1
  | .uncorrectable =>
    let d := { d with poison := if d.poison.contains line then d.poison else line :: d.poison }
    let d := if slc || d.failedRows.contains key then d else { d with failedRows := key :: d.failedRows }
    (s.setDie die d).addErrorAt slc die pa va source 2

/-- PATROL_READ (R359): a line of DRAM is read during a normal phase. -/
def execPatrolRead (die : Fin 4) (line : Fin 1073741824) (found : LineCheck) (s : State) : Outcome :=
  if (s.pcAt (pcOf die (128 * line.val))).compute then .next s
  else .next (s.foundError false die line.val 0 srcPatrol found)

/-- The die and PA of a row's first line (R341). -/
def rowDie (r : RowId) : Nat := r.pc.tower.val / 2
def rowAddress (r : RowId) : Nat :=
  r.row.val * 2 ^ 21 + r.bank.val * 2 ^ 17 + r.pc.channel.val % 2 * 2 ^ 16 + r.pc.tower.val % 2 * 2 ^ 13
    + r.pc.channel.val / 2 * 2 ^ 9

/-- The leaf of a table and those below it that maps a frame, or whose compressed page lies in it: its VA offset. -/
def findLeaf (s : State) (die frame : Nat) : Nat → Nat → Nat → Option Nat
  | level, table, off =>
    (List.range (levelEntries level)).findSome? fun i =>
      let e := wordOf (s.readPa die (table + 8 * i) 8)
      let at_ := off + i * 2 ^ levelShift level
      if !pteV e then none
      else if pteLeaf e then
        let first := s.leafFrame die e
        let n := if pteCmp e then 1 else 2 ^ levelShift level / 65536
        if pteRes e && first ≤ frame && frame < first + n then some (at_ + (frame - first) * 65536) else none
      else match level with
        | 0 => none
        | l + 1 => findLeaf s die frame l (pteAddr e) at_

/-- A frame leaves the free pool and does not come back. -/
def Die.withdraw (d : Die) (frame : Nat) : Die :=
  let split (x : Nat × Nat) : List (Nat × Nat) :=
    if x.1 ≤ frame && frame < x.1 + x.2 then
      [(x.1, frame - x.1), (frame + 1, x.1 + x.2 - frame - 1)].filter fun y => y.2 ≠ 0
    else [x]
  { d with frames := d.frames.flatMap split, withdrawn := frame :: d.withdrawn }

/-- Is a pseudo-channel of a die in a compute phase (R366)? -/
def State.computes (s : State) (die : Nat) : Bool := s.pcs.any fun e => e.1 / 64 = die && e.2.compute

/-- Withdraw a frame: its page moves with OP 0 first (R361). A page that cannot move now keeps its frame; the page table is read
in normal phases only (R366). -/
def State.withdrawFrame (s : State) (die frame pa : Nat) : State :=
  let d := s.die die
  if d.withdrawn.contains frame || s.computes die then s
  else
    let done (s : State) : State :=
      let s := { s with sirxon := { s.sirxon with withdrawn := s.sirxon.withdrawn + 1 } }
      ((s.addErrorAt false die pa 0 srcPatrol 5).addHealth 5 none (some (pa + die * 2 ^ 37))).setReasonIf (16384 < s.sirxon.withdrawn) 3
    let held := s.setDie die (d.withdraw frame)
    match findLeaf s die frame 3 d.root 0 with
    | none => done held
    | some off =>
      match (runPage .sirxon 0 die (s.sirxon.package.toNat * 2 ^ 52 + die * 2 ^ 50 + off) 0).on held with
      | (.ok _, s) => done s
      | (.error _, s) => s.setDie die { s.die die with frames := d.frames, withdrawn := d.withdrawn }

/-- Does Sirxon spare a row: an uncorrectable error has shown in it, or its corrected errors have reached the threshold (R361)? -/
def State.rowWorn (s : State) (die pa : Nat) : Bool :=
  let d := s.die die
  let key := rowKey die pa
  d.failedRows.contains key || (s.sirxon.rowThreshold ≠ 0 && s.sirxon.rowThreshold ≤ tabGet 0 key d.corrected)

/-- A row goes to a spare of its subarray; with none left its frame is withdrawn. The records of KIND 4 and 5 bear SOURCE 3 (log
entry 70). -/
def State.spareRow (s : State) (row : RowId) : State :=
  let die := rowDie row
  let pa := rowAddress row
  let key := subarrayKey die pa
  let d := s.die die
  let used := tabGet 0 key d.spares
  if used < 4 then
    let d := { d with spares := tabPut key (used + 1) d.spares, remap := tabPut (rowKey die pa) used d.remap,
                      corrected := tabDel (rowKey die pa) d.corrected, failedRows := d.failedRows.filter fun k => k ≠ rowKey die pa }
    ((s.setDie die d).addErrorAt false die pa 0 srcPatrol 4).addHealth 4 none (some (pa + die * 2 ^ 37))
  else s.withdrawFrame die (pa / 65536) pa

/-- ROW_SPARING (R361): Sirxon spares a worn row, in a normal phase of its pseudo-channel (R366). -/
def execRowSparing (row : RowId) (s : State) : Outcome :=
  let pa := rowAddress row
  if !s.rowWorn (rowDie row) pa || (s.pcAt (pcOf (rowDie row) pa)).compute then .next s else .next (s.spareRow row)

/-- The capacity that Sirxon reports: no reserved rows, no withdrawn frames, and three dies only in package 4,095 (R342, R361,
R365). -/
def State.capacity (s : State) : Nat :=
  (if s.sirxon.package.toNat = 4095 then 3 else 4) * (2 ^ 37 - 2 ^ 24) - 65536 * s.sirxon.withdrawn

/-! ### Recalibration and retirement (R161, R176, R259, R348, R404) -/

/-- Is a core between tasks? -/
def State.betweenTasks (s : State) (core : Nat) : Bool :=
  let k := s.core core
  let idle (q : Seq) : Bool := q.phase = .empty || q.phase = .ready
  idle k.g0 && idle k.g1 && !((s.die (dieOf core)).table.any fun e => e.isRunning && e.cores.any fun c => c.val = core)

/-- Has a macro that reaches the threshold been recalibrated one to three times already (R176, read as log entry 68 says)? -/
def Macro.again (m : Macro) : Bool := 1 ≤ m.recalibrations && m.recalibrations ≤ 3

/-- MACRO_RECALIBRATION (R176): at the threshold, between tasks, all 128 offsets are rewritten. -/
def execMacroRecalibration (core : Fin 512) (mac : Fin 8) (s : State) : Outcome :=
  let k := s.core core
  let m := k.macroAt mac
  if !s.betweenTasks core || !k.liveMacros.getLsbD mac || m.violations < s.sirxon.threshold || m.again then .next s
  else
    let n := s.sirxon.calibrations + 1
    let m := { m with calibration := n, offsets := [], valid := BitVec.allOnes 128, violations := 0, skipped := 0,
                      recalibrations := m.recalibrations + 1 }
    let s := s.setCore core (k.setMacro mac m)
    .next (({ s with sirxon := { s.sirxon with calibrations := n } } : State).addHealth 10 (some (macroLoc core mac)) none)

/-- Retire a macro: the ones above it move down, the crib is invalidated (R161). -/
def State.retireMacro (s : State) (core : Nat) (mac : Nat) : State :=
  let k := s.core core
  let k := { k with liveMacros := k.liveMacros &&& ~~~(1 <<< mac : BitVec 8) }
  let s := (s.setCore core k).dropCrib (dieOf core)
  let s := { s with sirxon := { s.sirxon with macrosRetired := s.sirxon.macrosRetired + 1 } }
  let s := (s.addHealth 2 (some (macroLoc core mac)) none).setReasonIf (k.macroCount < 7) 2
  { s.setReasonIf (Config.sirxonAsksReplacement s.free) 6 with free := s.free + 1 }

/-- MACRO_RETIREMENT (R161, R176): between tasks on the core, a macro that reached the threshold again. -/
def execMacroRetirement (core : Fin 512) (mac : Fin 8) (s : State) : Outcome :=
  let k := s.core core
  let m := k.macroAt mac
  if !s.betweenTasks core || !k.liveMacros.getLsbD mac || m.violations < s.sirxon.threshold || !m.again then .next s
  else .next (s.retireMacro core mac)

/-- The rank that a core runs, or whose trap it serves, ends with 0x341 (R404). -/
def State.retireRank (s : State) (w : SeqId) : State :=
  let q := s.seq w
  match q.phase, q.task with
  | .running, some _ => s.endRank w (some { failAt 0x341 0 q.now.loops with stamp := s.stamp })
  | .ready, some t => s.unplace t
  | _, _ => s

/-- A service group gives way to the group it serves. -/
def State.endService (s : State) (w : SeqId) : State := if (s.seq w).phase = .service then s.leaveService w else s

/-- Nothing of a sequencer waits at its cluster or its die any more. -/
def State.forget (s : State) (w : SeqId) : State := (s.dropReceiver w).dropRoom w

/-- Nothing of a core waits or is served any more: a task that runs on it has ended. -/
def State.quitCore (s : State) (core : Fin 512) : State :=
  let g0 : SeqId := ⟨core, 0⟩
  let g1 : SeqId := ⟨core, 1⟩
  let s := (s.completeGive g0).completeGive g1
  let s := (s.endService g0).endService g1
  let s := (s.retireRank g0).retireRank g1
  ((s.forget g0).forget g1).passAll core

/-- The core itself. What becomes of a flit in its send register the spec does not say: it is dropped (log entry 68). -/
def Core.retire (k : Core) : Core := { k with retired := true, sendReg := none, loads := [], reserved := none }

/-- A cluster without a live core: its queues are emptied, and REASON says so (R251, R401). -/
def State.emptyCluster (s : State) (c : Nat) : State :=
  if s.liveCores c = 0 then
    (s.setCluster c { s.cluster c with queues := Vector.replicate 8 [], receivers := Vector.replicate 8 [] }).setReason 1
  else s

/-- Retire a core (R404, R251). -/
def State.retireCore (s : State) (core : Fin 512) : State :=
  if (s.core core).retired then s
  else
    let s := s.quitCore core
    let s := (s.setCore core (s.core core).retire).dropCrib (dieOf core)
    let s := { s with sirxon := { s.sirxon with coresRetired := s.sirxon.coresRetired + 1 } }
    (s.addHealth 1 (some core.val) none).emptyCluster (clusterOf core)

/-- CORE_RETIREMENT (R404). -/
def execCoreRetirement (core : Fin 512) (s : State) : Outcome := .next (s.retireCore core)

/-- BIN_RETIREMENT (R259): a FREE bin leaves service and the lowest SPARE takes its place; a bin in use is marked. -/
def execBinRetirement (cluster : Fin 128) (bin : Fin 64) (s : State) : Outcome :=
  let k := s.cluster cluster
  let b := k.bins[bin]
  match b.state with
  | .free =>
    let k := k.setBin bin .retired
    let spare := (List.finRange 64).find? fun i => k.bins[i].state == .spare
    let k := match spare with
      | some i => k.setBin i .free
      | none => k
    let left := (List.finRange 64).any fun i => k.bins[i].state == .spare
    let s := (s.setCluster cluster k).dropCrib (cluster.val / 32)
    let s := { s with sirxon := { s.sirxon with binsRetired := s.sirxon.binsRetired + 1 } }
    .next ((s.addHealth 3 (some (cluster.val + 128 * bin.val)) none).setReasonIf (!left) 0)
  | .owned _ _ => .next (s.setCluster cluster { k with bins := k.bins.set bin { b with marked := true } })
  | .parked _ _ _ => .next (s.setCluster cluster { k with bins := k.bins.set bin { b with marked := true } })
  | _ => .next s

/-- Do tables take every packet between routers that work to its end in at most three hops, ESC marking those that need
three (R346, R348)? -/
def Nets.sound (n : Nets) : Bool :=
  (List.range 128).all fun r => !n.live r || (List.range 128).all fun dst => !n.live dst || r = dst ||
    (passage n dst 3 r = .arrives && match routeAt n r dst with
      | some (_, esc) => esc = ((passed n dst 3 r).length = 4)
      | none => false)

/-- Sirxon's tables once a router has failed: the routes it gives, where they are sound, beside those of log entry 9. -/
def Nets.reroute (n : Nets) (failed : List (Fin 128)) (routes : List (Nat × Nat × RouteEntry)) : Nets :=
  let table := routes.foldl (fun (t : Tab (Option RouteEntry)) r => tabPut (128 * (r.1 % 128) + r.2.1 % 128) (some r.2.2) t) []
  let given := { n with failedRouters := failed, routes := table }
  if routes.isEmpty || !given.sound then { n with failedRouters := failed, routes := [] } else given

/-- Flits on their way whose route leads through a failed router: those that it held are lost, as free values say (R348). -/
def State.loseHeld (s : State) (router : Nat) : State :=
  let draw := s.free
  let lost (c i : Nat) (f : Inbound) : Bool :=
    (passed s.nets (routerOf c) 3 f.origin).contains router && Config.heldInRouter draw (64 * c + i)
  { s with free := draw + 1,
           clusters := s.clusters.map fun (e : Nat × Cluster) =>
             (e.1, { e.2 with inbound := (e.2.inbound.zipIdx.filter fun x => !lost e.1 x.2 x.1).map Prod.fst }) }

/-- ROUTER_FAILURE (R348): what it held is lost, its cluster is retired, its slice served by its partner, and the tables are
rewritten. -/
def execRouterFailure (router : Fin 128) (routes : List (Nat × Nat × RouteEntry)) (s : State) : Outcome :=
  let n := s.nets
  let failed := if n.failedRouters.contains router then n.failedRouters else router :: n.failedRouters
  let s := s.loseHeld router
  let s := { s with nets := s.nets.reroute failed routes }
  .next ((coresOf router.val).foldl (fun (s : State) c => s.retireCore (Fin.ofNat 512 c)) s)

/-! ### Links (R406 to R409) -/

def State.link (s : State) (k : Fin 18) : Link := s.nets.links[k]
def State.setLink (s : State) (k : Fin 18) (l : Link) : State := { s with nets := { s.nets with links := s.nets.links.set k l } }

/-- A lane of a link fails: lane 8 is the spare (R407). The first failure of a data lane moves its traffic to the spare while
the link retrains; the second failure of a lane takes the link down. -/
def State.failLane (s : State) (link : Fin 18) (lane : Fin 9) : State :=
  let l := s.link link
  if l.down || l.failed.contains lane then s
  else
    let loc := link.val + 32 * lane.val
    if !l.failed.isEmpty then
      ((s.setLink link { l with failed := lane :: l.failed, down := true }).addHealth 7 (some loc) none).setReason 4
    else if lane.val = 8 then s.setLink link { l with failed := [lane] }
    else
      let s := s.setLink link { l with failed := [lane], retraining := true }
      ({ s with sirxon := { s.sirxon with lanesSpared := s.sirxon.lanesSpared + 1 } } : State).addHealth 6 (some loc) none

/-- LANE_FAILURE (R407). -/
def execLaneFailure (link : Fin 18) (lane : Fin 9) (s : State) : Outcome := .next (s.failLane link lane)

/-- LINK_RETRAIN_COMPLETE (R407): the flits that waited are delivered in order. -/
def execLinkRetrainComplete (link : Fin 18) (s : State) : Outcome :=
  let l := s.link link
  .next (if l.retraining then
    let s := s.setLink link { l with retraining := false, waiting := [] }
    { s with nets := s.nets.deliver l.waiting } else s)

/-- FLIT_REPLAY (R406): on a link that does not retrain the oldest flit of the replay buffer is sent again and delivered. -/
def execFlitReplay (link : Fin 18) (s : State) : Outcome :=
  let l := s.link link
  .next (if l.retraining || l.down then s
    else
      let s := s.setLink link { l with waiting := l.waiting.tail }
      { s with nets := s.nets.deliver (l.waiting.take 1) })

/-- One entry of the fabric routing table; a link above 17 is never written, reserved bits read as zero. A destination no
longer reachable is counted and recorded (R409). -/
def State.setFabric (s : State) (pkg : Nat) (e : BitVec 16) : State :=
  if 18 ≤ e.toNat % 32 then s
  else
    let lost := (fabricLink s.nets pkg).isSome && !e.getLsbD 7
    let s := { s with nets := { s.nets with fabric := tabPut pkg (e &&& 0x9F) s.nets.fabric } }
    if lost then
      ({ s with sirxon := { s.sirxon with deadPackages := s.sirxon.deadPackages + 1 } } : State).addHealth 8 (some pkg) none
    else s

/-- Fabric table entries, each with the hops of its route: one of more than 8 fabric hops is never written (R409). -/
def State.setRoutes (s : State) (routes : List (Nat × BitVec 16 × Nat)) : State :=
  (routes.filter fun r => r.2.2 ≤ 8).foldl (fun (s : State) r => s.setFabric (r.1 % 4096) r.2.1) s

/-- ROUTING_TABLE_REWRITE (R408, R409). -/
def execRoutingTableRewrite (routes : List (Nat × BitVec 16 × Nat)) (s : State) : Outcome := .next (s.setRoutes routes)

/-! ### The health ring (R403) -/

/-- Sirxon drains the dies' error rings into its records. -/
def State.drainErrors (s : State) : State :=
  (List.finRange 4).foldl (fun (s : State) (i : Fin 4) =>
    let d := s.die i
    let s := s.setDie i { d with errors := [] }
    d.errors.foldl (fun (s : State) e => s.queueRecord (.error i e)) s) s

/-- The 64 bytes of a ring entry. -/
def RingRec.bytes : RingRec → List Byte
  | .health r => leBytes 8 1 ++ wordBytes r.stamp ++ wordBytes (r.kind ++ r.loc) ++ wordBytes r.value ++ zeros 8 ++ zeros 24
  | .error i r => leBytes 8 (2 + 256 * i.val) ++ wordBytes r.stamp ++ wordBytes r.word1 ++ wordBytes r.pa ++ wordBytes r.va ++ zeros 24

/-- HEALTH_RING_WRITE (R403): the oldest record becomes entry HRTAIL, in full, and HRTAIL advances. -/
def execHealthRingWrite (s : State) : Outcome :=
  let s := s.drainErrors
  match s.sirxon.records with
  | [] => .next s
  | r :: rest =>
    if s.host.ringFull then .next s
    else
      let h := s.host
      let a := h.hrbase.toNat + 64 * (h.hrTail.toNat % 2 ^ h.hrLgn.toNat)
      let s := { s with hostMem := writeBytes a r.bytes s.hostMem, sirxon := { s.sirxon with records := rest } }
      .next { s with host := { h with hrTail := h.hrTail + 1 } }

/-! ### Clock, power and cooling (R398, R400) -/

/-- STAMP_RATE_CORRECTION (R398): a rate within 100 ppm; a package out of step writes a record of kind 13. -/
def execStampRateCorrection (ppm : Int) (inSync : Bool) (s : State) : Outcome :=
  let s := if ppm.natAbs ≤ 100 then { s with sirxon := { s.sirxon with ppm := ppm } } else s
  .next (if inSync then s else s.addHealth 13 none none)

/-- THERMAL_THROTTLE (R400): at 105 °C the clock is lowered and recorded. -/
def execThermalThrottle (s : State) : Outcome :=
  .next (({ s with sirxon := { s.sirxon with throttled := true } } : State).addHealth 13 none none)

/-- THERMAL_STOP (R400): at 115 °C the part stops issue and sets reason bit 5. -/
def execThermalStop (s : State) : Outcome :=
  .next (({ s with sirxon := { s.sirxon with stopped := true } } : State).setReason 5)

/-- Does no task run anywhere in the package? -/
def State.quiet (s : State) : Bool := (List.range 4).all fun d => !((s.die d).table.any Entry.isRunning)

/-- The nominal supply in mV (R2). -/
def nominalSupply : Nat := 600

/-- DVFS_CHANGE (R400): between tasks, supply within 520 to 720 mV; at nominal supply the cap is 5 (R165). A change of the cap
invalidates the crib. -/
def execDvfsChange (millivolts : Nat) (cap : Nat) (s : State) : Outcome :=
  if !s.quiet || millivolts < 520 || 720 < millivolts || cap = 0 || 8 < cap
      || (millivolts = nominalSupply && cap ≠ Config.nominalCap) then .next s
  else
    let s' := { s with sirxon := { s.sirxon with millivolts := millivolts, cap := cap } }
    .next (if cap = s.sirxon.cap then s' else (List.range 4).foldl State.dropCrib s')

end Sys2Proof.Machine
end

