-- ==== Sys2Proof/Machine/Host.lean ====
section
/-! DEFINITION. The host port: boot, BAR0 and BAR2, and bring-up (spec 19 R390 to R396, R403). -/

namespace Sys2Proof.Machine

/-! ### Boot (R395) -/

/-- POWER_UP (R395): every register, cache and array of the part is as at reset; what lies outside the part is kept. -/
def execPowerUp (s : State) : Outcome :=
  .next { State.reset with hostMem := s.hostMem, remote := s.remote, remoteLines := s.remoteLines, remoteFaults := s.remoteFaults,
                           contributions := s.contributions, stores := s.stores, cycle := s.cycle, agenda := s.agenda,
                           free := s.free, nets := { State.reset.nets with silent := s.nets.silent } }

def State.setBoot (s : State) (state : Nat) (cause : Cause) : State :=
  { s with host := { s.host with bootState := state, bootCause := cause } }

/-- 256 MiB (R396). -/
def imageMax : Nat := 2 ^ 28

/-- A write of the image length starts verification; a refused image lets the host start again (R395, R396). -/
def State.bootctl (s : State) (length : Word) : State :=
  if s.host.bootState = 0 || s.host.bootState = 2 then
    if imageMax < length.toNat then s.setBoot 2 0x381
    else { s.setBoot 1 0 with host := { s.host with bootState := 1, bootCause := 0, imageLength := length.toNat } }
  else s

/-- BOOTCTL_WRITE (R395). -/
def execBootctlWrite (length : Word) (s : State) : Outcome := .next (s.bootctl length)

/-- IMAGE_VERIFICATION (R395): the image at PA 0 of die 0 passes or is refused; the signature is checked first. -/
def execImageVerification (s : State) : Outcome :=
  if s.host.bootState ≠ 1 then .next s
  else
    let image := s.readPa 0 0 s.host.imageLength
    if !Config.signatureValid image then .next (s.setBoot 2 0x381)
    else if !Config.versionAccepted image then .next (s.setBoot 2 0x382)
    else .next { s.setBoot 3 0 with sirxon := { s.sirxon with digest := sha512 image } }

/-! ### Bring-up (R395) -/

/-- A macro as bring-up leaves it: calibrated in every column, its gleaner not sampling (R168, R175). -/
def freshMacro (core mac : Nat) : Macro :=
  { calibration := 1, valid := BitVec.allOnes 128, seed := Config.gleanerSeed core mac }

/-- A core as bring-up leaves it: macros calibrated, weight sets zero (R159, R168). -/
def freshCore (core : Nat) : Core := { macros := (List.range 8).map fun m => (m, freshMacro core m) }

/-- A cluster: bins 0 to 59 in service, 60 to 63 spare, queues empty (R226, R251). -/
def freshCluster : Cluster :=
  { bins := Vector.ofFn fun i => { state := if i.val < 60 then .free else .spare } }

/-- The frames of a plan's pool that no reserved row holds (R365). -/
def poolFrames (l : List (Nat × Nat)) : List (Nat × Nat) :=
  (l.map fun x => (x.1, min x.2 (reservedFrame - x.1))).filter fun x => x.2 ≠ 0

/-- A die from Sirxon's plan: page table root, pools, trap service image (R301, R349, R353). An image that the thresher refuses
is not loaded. -/
def freshDie (d : Die) (p : DiePlan) : Die :=
  let sealable := !p.service.isEmpty && (checkBody true p.service).isNone
  { d with root := p.root, frames := poolFrames p.frames, tables := p.tables,
           service := if sealable then some { code := p.service, lits := p.serviceLiterals } else none }

/-- A bin that the memory test fails (R226, R259). -/
def State.retireTested (s : State) (cluster : Fin 128) (bin : Fin 64) : State :=
  let k := s.cluster cluster
  if k.bins[bin].state == .spare then
    let k := k.setBin bin .retired
    let left := (List.finRange 64).any fun i => k.bins[i].state == .spare
    let s := s.setCluster cluster k
    (({ s with sirxon := { s.sirxon with binsRetired := s.sirxon.binsRetired + 1 } } : State).addHealth 3
      (some (cluster.val + 128 * bin.val)) none).setReasonIf (!left) 0
  else
    match execBinRetirement cluster bin s with
    | .next s => s
    | _ => s

/-- A lane that fails while its link is trained: the link uses its spare, or is down (R407). -/
def State.trainLane (s : State) (x : Fin 18 × Fin 9) : State :=
  let s := s.failLane x.1 x.2
  s.setLink x.1 { s.link x.1 with retraining := false }

/-- A router that does not work: its cluster is retired, and the tables avoid it (R348). -/
def State.retireRouter (s : State) (r : Fin 128) : State :=
  let s := { s with nets := s.nets.reroute (r :: s.nets.failedRouters) [] }
  (coresOf r.val).foldl (fun (s : State) c => s.retireCore (Fin.ofNat 512 c)) s

/-- The parts as Sirxon starts them: every table of the network written, cores and clusters fresh, dies by the plan. -/
def State.startParts (s : State) (plan : BringUp) : State :=
  let s := { s with cores := (List.range 512).map fun c => (c, freshCore c),
                    clusters := (List.range 128).map fun c => (c, freshCluster),
                    sirxon := { s.sirxon with started := true, package := plan.package, calibrations := 1,
                                              threshold := plan.gleanerThreshold, rowThreshold := plan.rowThreshold },
                    nets := { s.nets with written := true },
                    pcs := s.pcs.map fun e => (e.1, { e.2 with lost := false }) }
  plan.dies.zipIdx.foldl (fun (s : State) (e : DiePlan × Nat) =>
    if 4 ≤ e.2 then s
    else
      let s := { s with dram := clearBytes s.dram (dramKey e.2 e.1.root) 16384 }.scrub e.2 e.1.root 16384
      s.setDie e.2 (freshDie (s.die e.2) e.1)) s

/-- Sirxon's work before the queues open (R395): links trained, lanes spared; memory tested, retirement maps built. -/
def State.bringUp (s : State) (plan : BringUp) : State :=
  let s := s.startParts plan
  let s := plan.failedLanes.foldl State.trainLane s
  let s := s.setRoutes plan.fabric
  let s := plan.retiredRouters.foldl State.retireRouter s
  let s := plan.retiredRows.foldl State.spareRow s
  let s := plan.retiredMacros.foldl (fun (s : State) (r : Fin 512 × Fin 8) => s.retireMacro r.1 r.2.val) s
  let s := plan.retiredCores.foldl State.retireCore s
  plan.retiredBins.foldl (fun (s : State) (r : Fin 128 × Fin 64) => s.retireTested r.1 r.2) s

/-- SIRXON_BRING_UP (R395): links trained, memory tested, retirement maps built, and the queues opened in state 4. -/
def execSirxonBringUp (plan : BringUp) (s : State) : Outcome :=
  if s.host.bootState ≠ 3 then .next s
  else .next ((s.bringUp plan).setBoot 4 (s.bringUp plan).host.bootCause)

/-! ### BAR0 (R391, R393, R403) -/

/-- 0x301, queue state invalid, in BOOTSTS. -/
def HostPort.invalid (h : HostPort) : HostPort := { h with bootCause := 0x301 }

/-- A tail: refused beyond QHEAD + 2^LGN or while EN is 0, which clears EN (R393). -/
def HostPort.notify (h : HostPort) (q : Fin 64) (tail : BitVec 32) : HostPort :=
  let x := h.queue q
  if !x.en || 2 ^ x.lgn.toNat < (tail - x.head).toNat then (h.setQueue q { x with en := false }).invalid
  else h.setQueue q { x with tail := tail }

/-- The host sets relaxed ordering on its next notify (R394). -/
def State.relaxNotify (s : State) : State := { s with host := { s.host with relaxed := true } }

/-- A notify takes effect. -/
def State.takeNotify (s : State) (q : Fin 64) (tail : BitVec 32) : State := { s with host := s.host.notify q tail }

/-- A notify without relaxed ordering does not pass a write through BAR2 that waits (R394). -/
def State.hostNotify (s : State) (q : Fin 64) (tail : BitVec 32) : State :=
  let t : State := { s with host := { s.host with relaxed := false } }
  if s.host.relaxed || !(s.host.waiting.any fun a => a.data.isSome) then t.takeNotify q tail
  else { t with host := { t.host with waiting := t.host.waiting ++ [{ offset := 0, length := 0, data := none, notify := some (q, tail) }] } }

/-- QNOTIFY_WRITE (R393, R394); a notify before the queues open is kept. -/
def execQnotifyWrite (queue : Fin 64) (tail : BitVec 32) (s : State) : Outcome := .next (s.hostNotify queue tail)

/-- A ring's LGN lies in 4 to 15. -/
def lgnOk (lgn : BitVec 4) : Bool := 4 ≤ lgn.toNat

/-- HRCTL (R403): with EN 1 only LOST changes, and clears; EN with a bad LGN is refused. -/
def HostPort.hrctl (h : HostPort) (v : Word) : HostPort :=
  if h.hrEn then { h with hrLost := 0 }
  else if v.getLsbD 63 && !lgnOk (v.extractLsb' 16 4) then { h with hrEn := false }.invalid
  else { h with hrEn := v.getLsbD 63, hrLost := v.extractLsb' 32 16, hrLgn := v.extractLsb' 16 4 }

/-- HRCTL_WRITE (R403). -/
def execHrctlWrite (value : Word) (s : State) : Outcome := .next { s with host := s.host.hrctl value }

/-- HRHEAD (R403): a count beyond HRTAIL, more than a ring away from it, clears EN. -/
def HostPort.hrhead (h : HostPort) (v : BitVec 32) : HostPort :=
  if 2 ^ h.hrLgn.toNat < (h.hrTail - v).toNat then { h with hrEn := false }.invalid
  else { h with hrHead := v }

/-- HRHEAD_WRITE (R403). -/
def execHrheadWrite (value : Word) (s : State) : Outcome := .next { s with host := s.host.hrhead (value.setWidth 32) }

/-- QCTL (R391): EN with a bad LGN is refused as a queue state. -/
def HostPort.qctl (h : HostPort) (q : Fin 64) (v : Word) : HostPort :=
  let x := h.queue q
  if v.getLsbD 63 && !lgnOk (v.extractLsb' 16 4) then (h.setQueue q { x with en := false }).invalid
  else h.setQueue q { x with en := v.getLsbD 63, lgn := v.extractLsb' 16 4, die := v.extractLsb' 0 2 }

/-- A write of a queue's register other than QNOTIFY. Of a ring address the bits below its stated multiple are dropped (log entry 53). -/
def HostPort.queueWrite (h : HostPort) (q : Fin 64) (reg : Nat) (v : Word) : HostPort :=
  match reg with
  | 0 => h.setQueue q { h.queue q with base := v &&& ~~~0xFFF }
  | 8 => h.qctl q v
  | _ => h

/-- A host write of a BAR0 register: read-only and unassigned offsets ignore it. Of APBASE and HRBASE the bits below the stated
multiple are dropped (log entry 53). -/
def State.bar0Write (s : State) (offset : Nat) (v : Word) : State :=
  if offset = 0x08 then s.bootctl v
  else if offset = 0x10 then (if s.host.bootState = 0 then { s with stamp := v } else s)
  else if offset = 0x20 then { s with host := { s.host with apbase := v &&& ~~~0x3FFFFFFFF } }
  else if offset = 0x28 then (if s.host.hrEn then s else { s with host := { s.host with hrbase := v &&& ~~~0xFFF } })
  else if offset = 0x30 then { s with host := s.host.hrctl v }
  else if offset = 0x40 then { s with host := s.host.hrhead (v.setWidth 32) }
  else if 0x1000 ≤ offset && offset < 0x1800 then
    let q : Fin 64 := Fin.ofNat 64 ((offset - 0x1000) / 32)
    if offset % 32 = 0x18 then s.hostNotify q (v.setWidth 32) else { s with host := s.host.queueWrite q (offset % 32) v }
  else s

/-- BAR0_REGISTER_WRITE (R391). -/
def execBar0RegisterWrite (offset : BitVec 16) (value : Word) (s : State) : Outcome := .next (s.bar0Write offset.toNat value)

/-- What a read of a BAR0 register returns (R391); none for a write-only register and an offset without one. -/
def State.bar0Read (s : State) (offset : Nat) : Option Word :=
  let h := s.host
  match offset with
  | 0x00 => some (place 60 h.bootState + h.bootCause.setWidth 64)
  | 0x10 => some s.stamp
  | 0x18 => some s.healthWord
  | 0x20 => some h.apbase
  | 0x28 => some h.hrbase
  | 0x30 => some (place 63 (bit h.hrEn) + place 32 h.hrLost.toNat + place 16 h.hrLgn.toNat)
  | 0x38 => some (h.hrTail.setWidth 64)
  | 0x40 => some (h.hrHead.setWidth 64)
  | _ =>
    if 0x1000 ≤ offset && offset < 0x1800 then
      let q := h.queue (Fin.ofNat 64 ((offset - 0x1000) / 32))
      match offset % 32 with
      | 0 => some q.base
      | 8 => some (place 63 (bit q.en) + place 16 q.lgn.toNat + q.die.setWidth 64)
      | 0x10 => some (q.head.setWidth 64)
      | _ => none
    else none

/-! ### BAR2 (R396) -/

/-- An error record of a host access, SOURCE 6, in the ring of a die, with the access's VA: PA and the location fields are
those of a line, or zero (R360, R396). -/
def State.hostRecord (s : State) (die va kind : Nat) (pa : Option Nat) : State :=
  match pa with
  | some pa => s.addError die pa va srcHost kind
  | none => s.setDie die { s.die die with errors := (s.die die).errors ++
      [{ stamp := s.stamp, word1 := place 8 srcHost + place 0 kind, pa := 0, va := BitVec.ofNat 64 va }] }

/-- The frame that the translation of an address reached, for a cause of its leaf's permissions. -/
def State.reachedPa (s : State) (at_ code : Nat) : Option Nat :=
  match placeOf s at_ with
  | .home d off => match walk s d off with
    | .leaf level _ e =>
      if pteRes e && (code = 0x0C2 || code = 0x0C6) then some (if pteCmp e then pteAddr e else leafPa d off level e) else none
    | _ => none
  | _ => none

/-- A host access that met a cause at an address: KIND 6, in the ring of the home die, or of die 0 for 0x0C4. -/
def State.hostError (s : State) (va at_ code : Nat) : State :=
  s.hostRecord (if code = 0x0C4 then 0 else at_ / 2 ^ 50 % 4) va 6 (if code = 0x0C4 then none else s.reachedPa at_ code)

/-- How the host's read of a cause is answered: 1 Unsupported Request, 2 Completer Abort. -/
def hostStatus (code : Nat) : Nat := if code = 0x244 || code / 64 = 0xA then 2 else 1

/-- Each piece with its home, every check made but that for poison. -/
def hostHomes (use : Use) : List (Nat × Nat) → M (List (Nat × Nat × Option Home))
  | [] => return []
  | (va, n) :: rest => do
    let h ← resolve .host use false va
    return (va, n, h) :: (← hostHomes use rest)

/-- The first poisoned line on the way is recorded with the access's VA; the answer says so. Another package's home die answers
0x241 for its page. -/
def hostPoison (at_ : Nat) : List (Nat × Nat × Option Home) → M Bool
  | [] => return false
  | (_, _, h) :: rest => do
    let s ← get
    match h with
    | some (.dram d pa) =>
      match s.poisonAt d pa with
      | some x =>
        set (s.hostRecord d at_ 3 (some (128 * x)))
        return true
      | none => hostPoison at_ rest
    | some (.far v) =>
      if s.farCause v = some 0x241 then
        set (s.hostRecord (v / 2 ^ 50 % 4) at_ 3 none)
        return true
      else hostPoison at_ rest
    | _ => hostPoison at_ rest

/-- A host access at its VA: what a read answers, with its EP bit; nothing for a write. -/
def HostAccess.work (a : HostAccess) (va : Nat) : M (Option (List Byte × Bool)) := do
  match a.data with
  | none =>
    let hs ← hostHomes .r (lineSpans va a.length)
    let l ← readAll .host .system 0 false hs
    return some (l, ← hostPoison va hs)
  | some l =>
    writeGlobal .host .system 0 va l
    return none

def State.reply (s : State) (status : Nat) (ep : Bool) (l : List Byte) : State :=
  { s with host := { s.host with replies := s.host.replies ++ [(status, ep, l)] } }

/-- The VA behind a BAR2 offset once the queues are open. -/
def State.apertureVa (s : State) (offset : Nat) : Nat := (s.host.apbase.toNat + offset) % 2 ^ 64

/-- The oldest access that waits is over, and its requests with it. -/
def State.popAccess (s : State) : State :=
  { s with host := { s.host with waiting := s.host.waiting.drop 1 }, nets := s.nets.endRequests .host fun _ => true }

/-- A host access that met a cause: its record, and a read's answer; a write is dropped (R396). -/
def State.abortAccess (s : State) (a : HostAccess) (at_ code : Nat) : State :=
  let s := (s.hostError (s.apertureVa a.offset) at_ code).popAccess
  if a.data.isNone then s.reply (hostStatus code) false [] else s

/-- The oldest access of the host that waits is tried: is it over? -/
def State.hostTry (s : State) (a : HostAccess) : State × Bool :=
  match (a.work (s.apertureVa a.offset)).on s with
  | (.ok (some (l, ep)), s) => (s.popAccess.reply 0 ep l, true)
  | (.ok none, s) => (s.popAccess, true)
  | (.error (.cause c at_ _), s) => (s.abortAccess a at_.toNat c.toNat, true)
  | (.error (.wait kind at_), s) =>
    match askAgain a.sent kind s.cycle with
    | some r => ({ s with host := { s.host with waiting := { a with sent := some r } :: s.host.waiting.drop 1 } }, false)
    | none => (s.abortAccess a at_.toNat (responseCause kind), true)
  | (.error _, s) => (s, false)

/-- The oldest entry of the host's line is tried: a notify whose turn has come takes effect (R394). -/
def State.hostStep (s : State) (a : HostAccess) : State × Bool :=
  match a.notify with
  | some (q, tail) => (s.popAccess.takeNotify q tail, true)
  | none => s.hostTry a

/-- The host's accesses are performed in the order they arrived (R316), until one has to wait. -/
def serveHost : Nat → State → State
  | 0, s => s
  | n + 1, s =>
    match s.host.waiting with
    | [] => s
    | a :: _ =>
      match s.hostStep a with
      | (s, true) => serveHost n s
      | (s, false) => s

/-- An access of the host arrives. -/
def State.hostArrives (s : State) (a : HostAccess) : State :=
  let s := { s with host := { s.host with waiting := s.host.waiting ++ [a] } }
  serveHost s.host.waiting.length s

def State.hostRead (s : State) (offset n : Nat) : State :=
  if s.host.bootState ≠ 4 then s.reply 0 false (s.readPa 0 offset n)
  else s.hostArrives { offset := offset, length := n, data := none, sent := none }

/-- Does an access lie in the 16 GiB aperture? -/
def inAperture (offset n : Nat) : Bool := offset + n ≤ 2 ^ 34

/-- HOST_BAR2_READ (R396): its completion joins the replies, at once or when the access no longer has to wait. -/
def execHostBar2Read (offset : BitVec 34) (length : Nat) (s : State) : Outcome :=
  .next (if inAperture offset.toNat length then s.hostRead offset.toNat length else s)

def State.hostWrite (s : State) (offset : Nat) (l : List Byte) : State :=
  if s.host.bootState ≠ 4 then s.writePa 0 offset l
  else s.hostArrives { offset := offset, length := l.length, data := some l, sent := none }

/-- HOST_BAR2_WRITE (R396): a write that meets a cause is dropped. -/
def execHostBar2Write (offset : BitVec 34) (data : List Byte) (s : State) : Outcome :=
  .next (if inAperture offset.toNat data.length then s.hostWrite offset.toNat data else s)

/-- A host read of a BAR0 register: its completion joins the replies. -/
def State.registerRead (s : State) (offset : BitVec 16) : State :=
  match s.bar0Read offset.toNat with
  | some w => s.reply 0 false (wordBytes w)
  | none => s

end Sys2Proof.Machine
end

