-- ==== Sys2Proof/Machine/Fabric.lean ====
section
/-! DEFINITION. What other packages do to this one and through it (spec 20 R408 to R412, spec 11 R248), what they do to their own
memory as this one sees it, and errors that accesses find (spec 17 R359, spec 11 R229, R252). -/

namespace Sys2Proof.Machine

/-! ### Requests of other packages (R410 to R412) -/

/-- The sequence number that a remote agent's next packet toward a die bears (R410). -/
def Nets.expects (n : Nets) (pkg agent die : Nat) : Nat := ((n.expected.find? fun e => e.1 = (pkg, agent, die)).map Prod.snd).getD 0

/-- A response leaves a die for its package: it reads the entry of that package, crosses to the die that holds the link, and
leaves by it (R408). -/
def Nets.reply (n : Nets) (die : Nat) (x : Response) : Nets :=
  match fabricLink n x.pkg with
  | none => n
  | some l =>
    match oneWay n (n.dieRouter die) (n.dieRouter (hubDie l)) with
    | .arrives =>
      n.sendFlit { pkg := x.pkg, hop := 0, cls := .response, source := .remote x.pkg x.agent, sequence := x.number, reply := some x }
    | fate => n.countDrop fate

/-- The answer to a packet that was applied. -/
def Nets.answerOf (n : Nets) (r : RemoteRequest) : Option Response :=
  (n.answers.find? fun a => a.1 = r.die.val && a.2.pkg = r.pkg && a.2.agent = r.agent && a.2.number = r.number).map Prod.snd

/-- A packet of a remote agent has been applied: the next one has its turn, and the response goes out. -/
def Nets.respond (n : Nets) (r : RemoteRequest) (x : Response) : Nets :=
  ({ n with expected := ((r.pkg, r.agent, r.die.val), r.number + 1) :: n.expected.filter fun e => e.1 ≠ (r.pkg, r.agent, r.die.val),
            arrived := n.arrived.filter fun y => y ≠ r,
            answers := (r.die.val, x) :: n.answers } : Nets).reply r.die x

/-- The address of a remote access, and a message's destination by its die alone. -/
def RemoteOp.va : RemoteOp → Option Nat
  | .read va _ => some va
  | .write va _ => some va
  | .amo _ va _ _ _ => some va
  | .preq va => some va
  | .flit _ _ _ _ _ => none

/-- Is a packet for the die it names: its address is homed there, or its queue's cluster lies there? -/
def State.concerns (s : State) (r : RemoteRequest) : Bool :=
  match r.op with
  | .flit c _ _ _ _ => c.val / 32 = r.die.val
  | op => op.va.any (s.homedOn r.die)

/-- A remote access within one line finds its home, as a local one does. -/
def remoteHome (ag : Agent) (use : Use) (k : Demand) (va : Nat) : M Home := do
  match ← checkSpan ag use false va with
  | some h =>
    needHome ag h va k
    return h
  | none => stall

/-- The line's times go back with the bytes (R412). -/
def answerWith (h : Home) (data : List Byte) : M (List Byte × Nat × Nat) := do
  let (wts, rts) := (← get).lineTimes h
  return (data, wts, rts)

/-- What a remote packet does at its home: the bytes of its response, with WTS and RTS. -/
def remoteWork (ag : Agent) (die : Nat) : RemoteOp → M (List Byte × Nat × Nat)
  | .read va n => do
    let h ← remoteHome ag .r .read va
    modify fun s => s.homeLease ag .fabric h 0
    answerWith h ((← get).homeBytes h n)
  | .write va data => do
    let h ← remoteHome ag .w .write va
    modify fun s => s.homeWrite ag .fabric h data 0
    answerWith h []
  | .amo f va n b d => do
    let h ← remoteHome ag .rw .atomic va
    modify fun s => s.homeLease ag .fabric h 0
    let l := (← get).homeBytes h n
    match amoNew f n (fromLe l) b d with
    | some y => modify fun s => s.homeWrite ag .fabric h (leBytes n y) 0
    | none => pure ()
    answerWith h l
  | .preq va => do
    let (_, _, e) ← findPage ag die va
    if pteRes e then return ([0], 0, 0)
    else
      postResidency die (va / 65536)
      return ([1], 0, 0)
  | .flit c q payload src stamp => do
    let s ← get
    if (s.cluster c).queueLoad q < 64 then
      set (s.enterQueue c q { payload := payload, src := src, stamp := stamp, time := s.timeOf ag })
      return ([], 0, 0)
    else stall

/-- A packet whose turn it is crosses from its link's hub to its die and is applied, at most once (R410, R411): the agent's logical
time comes with it (R412). It stays where it has to wait; one that the way loses has to be sent again. -/
def State.applyRemote (s : State) (r : RemoteRequest) : State :=
  let ag : Agent := .remote r.pkg r.agent
  match oneWay s.nets (s.nets.dieRouter (hubDie r.link)) (s.nets.dieRouter r.die) with
  | .arrives =>
    let answer (c : Option Cause) (x : List Byte × Nat × Nat) : Response :=
      { pkg := r.pkg, agent := r.agent, number := r.number, cause := c, data := x.1, wts := x.2.1, rts := x.2.2 }
    match (remoteWork ag r.die r.op).on (s.setTime (max r.time (s.timeOf ag)) ag) with
    | (.ok x, s) => { s with nets := s.nets.respond r (answer none x) }
    | (.error (.cause c _ _), s) => { s with nets := s.nets.respond r (answer (some c) ([], 0, 0)) }
    | (.error _, s) => s
  | fate =>
    let n := s.nets.countDrop fate
    { s with nets := { n with arrived := n.arrived.filter fun y => y ≠ r } }

/-- Every packet that has come in and whose turn it is, in the order of arrival. -/
def State.serveRemote (s : State) : State :=
  s.nets.arrived.foldl (fun (s : State) r =>
    if r.number = s.nets.expects r.pkg r.agent r.die then s.applyRemote r else s) s

/-- A packet of another package comes in. One already applied is a second send: nothing is applied again, and its response goes
out once more (R411). -/
def State.remoteArrives (s : State) (r : RemoteRequest) : State :=
  if !s.concerns r || r.pkg = s.sirxon.package.toNat || s.nets.arrived.contains r then s
  else if r.number < s.nets.expects r.pkg r.agent r.die then
    match s.nets.answerOf r with
    | some x => { s with nets := s.nets.reply r.die x }
    | none => s
  else State.serveRemote { s with nets := { s.nets with arrived := s.nets.arrived ++ [r] } }

/-- Accesses that wait at the host port, and packets of other packages that wait, try again. -/
def State.serveWaiting (s : State) : State := (serveHost s.host.waiting.length s).serveRemote

/-! ### Packets on their way through (R408, R409) -/

/-- A packet at its ninth fabric hop is dropped and counted at the hub. -/
def Nets.dropHop (n : Nets) (die : Nat) : Nets := { n with hubDrops := tabPut die (tabGet 0 die n.hubDrops + 1) n.hubDrops }

/-- A packet for a third package reads this one's table, crosses to the die that holds its link, and leaves by it. -/
def State.transit (s : State) (link : Fin 18) (pkg : BitVec 12) (hops : Nat) (cls : TrafficClass) (source : Agent)
    (sequence : Nat) : State :=
  let n := s.nets
  if pkg = s.sirxon.package then s
  else
    match fabricLink n pkg.toNat with
    | none => s
    | some l =>
      if 8 ≤ hops then { s with nets := n.dropHop (hubDie l) }
      else
        match passage n (n.dieRouter (hubDie l)) 3 (n.dieRouter (hubDie link)) with
        | .arrives => { s with nets := n.sendFlit { pkg := pkg.toNat, hop := hops, cls := cls, source := source, sequence := sequence } }
        | fate => { s with nets := n.countDrop fate }

/-- The next flit on a link fails its check (R406). -/
def State.flitError (s : State) (k : Fin 18) : State := s.setLink k { s.link k with corrupt := true }

/-! ### Other packages' memory, as this one's accesses see it (R411, R412) -/

/-- An agent of another package writes its memory: each home line takes a new write time at the agent's logical time. -/
def State.remoteStore (s : State) (pkg agent va : Nat) (l : List Byte) : State :=
  let ag : Agent := .remote pkg agent
  ((lineSpans va l.length).foldl (fun (acc : State × List Byte) (p : Nat × Nat) =>
    (acc.1.homeWrite ag .fabric (.far p.1) (acc.2.take p.2) 0, acc.2.drop p.2)) (s, l)).1

/-- An agent of another package reads a line there: its time and the line's lease rise. -/
def State.remoteLoad (s : State) (pkg agent va : Nat) : State := s.homeLease (.remote pkg agent) .fabric (.far va) 0

/-- Another package's page migrates: the monitors armed on its 512 lines are lost (R124). -/
def State.remoteMove (s : State) (page : Nat) : State := s.loseMonitors (Home.far (65536 * page)).line

/-- Another package's home die answers accesses to a page with a cause of R411, or no longer does. A page that is no longer
resident has migrated. One that is resident was fetched: no request for it stands any more. -/
def State.setRemoteFault (s : State) (page : Nat) (c : Option Cause) : State :=
  match c with
  | some c =>
    if !farCauses.contains c then s
    else
      let s := { s with remoteFaults := tabPut page c s.remoteFaults }
      if c = 0x0C3 then s.remoteMove page else s
  | none => { s with remoteFaults := tabDel page s.remoteFaults,
                     nets := { s.nets with asked := s.nets.asked.filter fun p => p ≠ page } }

/-- A residency request that this package made of another one fails (R127). -/
def State.remoteRefusal (s : State) (page : Nat) : State :=
  if s.nets.asked.contains page then
    { s with nets := { s.nets with asked := s.nets.asked.filter (fun p => p ≠ page), refused := page :: s.nets.refused } }
  else s

/-- Another package falls silent, or answers again (R411). -/
def State.setSilent (s : State) (pkg : Nat) (off : Bool) : State :=
  let rest := s.nets.silent.filter fun p => p ≠ pkg
  { s with nets := { s.nets with silent := if off then pkg :: rest else rest } }

/-! ### Errors (R229, R252, R359) -/

/-- An access of a SOURCE finds an error in a line: in the slice's copy where it holds the line, patrol always in DRAM. A slice's
eviction reads only its own lines. -/
def State.lineError (s : State) (die : Fin 4) (line : Nat) (found : LineCheck) (source : Fin 7) (va : Nat) : State :=
  let held := s.inSlice die (128 * line)
  if source.val = srcEviction && !held then s
  else s.foundError (held && source.val ≠ srcPatrol) die line va source.val found

/-- An error shows in an 8-byte unit of a bin: a corrected one is counted, an uncorrectable one poisons the unit and marks the
bin for retirement. -/
def Cluster.unitError (k : Cluster) (unit : Fin 1048576) (found : LineCheck) : Cluster :=
  let b : Fin 64 := Fin.ofNat 64 (unit.val / 16384)
  match found with
  | .clean => k
  | .corrected => { k with errors := k.errors + 1 }
  | .uncorrectable => { k with poison := if k.poison.contains unit.val then k.poison else unit.val :: k.poison,
                               bins := k.bins.set b { k.bins[b] with marked := true } }

/-- A parity error in a copy with no write pending turns the access into a miss and is counted. -/
def Cluster.parityError (k : Cluster) (line : Nat) : Cluster :=
  if (k.copies.any fun c => c.line = line) && !(k.pending.any fun p => p.va / 128 = line) then
    { k.dropCopy line with errors := k.errors + 1 }
  else k

/-- An uncorrectable error strikes a queued write. -/
def Cluster.spoil (k : Cluster) (index : Nat) : Cluster :=
  { k with pending := k.pending.zipIdx.map fun x => if x.2 = index then { x.1 with spoilt := true } else x.1 }

def State.modCluster (s : State) (c : Nat) (f : Cluster → Cluster) : State := s.setCluster c (f (s.cluster c))

/-! ### Sirxon's settings (R278, R401) -/

/-- 10 µs and 1 s in ns. -/
def agingLeast : Nat := 10000
def agingMost : Nat := 1000000000

/-- Sirxon sets one aging interval per level, from 10 µs to 1 s (R278). -/
def State.setAging (s : State) (ns : Vector Nat 4) : State :=
  if ns.toList.all fun n => agingLeast ≤ n && n ≤ agingMost then { s with sirxon := { s.sirxon with aging := ns } } else s

end Sys2Proof.Machine
end

