-- ==== Sys2Proof/Machine/Agenda.lean ====
section
/-! DEFINITION. What moves between the steps of the table: time, the host's own memory, other packages, and flits on their way
(log entry 2). -/

namespace Sys2Proof.Machine

/-- The issuing group of a core comes into focus. -/
def State.focusOn (s : State) (c : Fin 512) : State :=
  match (s.core c).issuing with
  | some g => { s with focus := ⟨c, g⟩ }
  | none => { s with focus := ⟨c, 0⟩ }

/-- A parity error shows in the units of a pseudo-channel (R383). -/
def State.unitParity (s : State) (p : PcId) : State :=
  s.setPcAt (pcNum p) { s.pcAt (pcNum p) with parity := true }

/-- May only a trap service image hold this word (K-047, K-048, K-071)? -/
def serviceOnly (w : BitVec 32) : Bool :=
  !(imageKindChecks false (w.extractLsb' 24 7) (Slot.ofWord w)).isEmpty

/-- A word placed as the whole code body that group 0 of core 0 runs next, with one literal word, as a task of one rank whose
team has its slot (log entry 12). -/
def State.placeWord (s : State) (w : BitVec 32) : State :=
  let v : Variant := { code := [w], lits := [0xFFFFFFFF] }
  let sv := serviceOnly w
  let d := s.die 0
  let d := if sv then { d with service := some v }
    else
      let slot := tabGet ({} : ImageSlot) 0 d.images
      { d with images := tabPut 0 { slot with image := some { kernels := [{ team := 1, long := false, variant := v }] } } d.images }
  let q : Seq :=
    { phase := if sv then .service else .running,
      task := some { die := 0, serial := 0, rank := 0, size := 1, ctx := 0, long := false, args := 0 },
      code := some { die := 0, slot := if sv then none else some 0, kernel := 0 } }
  let k := s.core 0
  let c := s.cluster 0
  let team : Team := { die := 0, serial := 0, cores := [0] }
  let s := ((s.setDie 0 d).setCore 0 { k with g0 := q, issuing := some 0 }).setCluster 0 { c with teams := c.teams.set 0 (some team) }
  { s with focus := ⟨0, 0⟩, agenda := [], sirxon := { s.sirxon with stopped := false } }

end Sys2Proof.Machine
end

