-- ==== Sys2Proof/Machine/Command.lean ====
section
/-! DEFINITION. The host's submission queues: entries read in ring order, cards and tasks entered, and the commands carried out
(spec 19 R392 to R394, R397, R399; spec 14 R301, R311, R312; spec 13 R267, R268, R271, R273). -/

namespace Sys2Proof.Machine

/-! ### The head of a queue (R392, R393) -/

/-- The 128 bytes of its next entry, in host memory. -/
def State.headBytes (s : State) (q : Fin 64) : List Byte :=
  let x := s.host.queue q
  readBytes s.hostMem (x.base.toNat + 128 * (x.head.toNat % 2 ^ x.lgn.toNat)) 128

/-- Its type, byte 7. -/
def State.headType (s : State) (q : Fin 64) : Nat := ((s.headBytes q).getD 7 0).toNat

/-- The entry is read: QHEAD advances. -/
def State.advance (s : State) (q : Fin 64) : State :=
  s.modQueue q fun x => { x with head := x.head + 1, sent := none, due := none, withdrew := false, opened := [] }

/-- Is a queue read at all: an unread entry, room for it in the die's table, and its graph not stopped (R268, R281)? A checkpoint
that has begun goes on whatever its graph or its die's table holds, and lets no other entry pass (R399). -/
def State.readable (s : State) (q : Fin 64) : Bool :=
  s.sirxon.checkpoint == some q || (s.hostClaim (s.fedDie q) q && s.roomFor (s.fedDie q) q)

/-! ### Results of commands (R287, R392) -/

/-- How a command ended. -/
def commandEnd (s : State) (state : Nat) (cause : Nat) : EndInfo :=
  { state := BitVec.ofNat 4 state, cause := BitVec.ofNat 10 cause, unit := 0, wmark := 0, pstatus := 0, whereC := 0,
    stamp := s.stamp }

/-- A record at an address is written for the head of a queue, or lost where it cannot be: is it done? -/
def State.putHostRecord (s : State) (q : Fin 64) (at_ serial : Nat) (head : List Byte) : State × Bool :=
  (s.tryHost q (writeRecord (s.fedDie q) at_ serial head)).record

/-- An entry that has to wait leaves the state as it was, but for what waits: the slices' queues, the networks with what it
sent, and its request without a response (R348, R367, R368, R406). -/
def State.noteHost (s s' : State) (q : Fin 64) : State :=
  { s with nets := s'.nets, pcs := s.pcs.map fun e => (e.1, { e.2 with queuedAt := (s'.pcAt e.1).queuedAt, queue := (s'.pcAt e.1).queue }),
           host := (s.modQueue q fun x => { x with sent := (s'.host.queue q).sent }).host }

/-- The serial number of a command's record, which the spec does not state (log entry 14). -/
def State.commandNumber (s : State) : Nat := (Config.commandSerial s.free).toNat

/-- Write a command's record in the form of R287 at the address in word 0x08, then read on; while the record must wait the state
is one to be served again. -/
def State.answer (s : State) (q : Fin 64) (at_ : Nat) (f : EndInfo) (stay : State) : State :=
  let serial := s.commandNumber
  match s.putHostRecord q at_ serial (recordHead serial none 0 false f) with
  | (s, true) => ({ s with free := s.free + 1 } : State).advance q
  | (s, false) => stay.noteHost s q

/-- An entry that breaks its form: STATE 5 and cause 0x302 at the address in word 0x08 (R392). -/
def State.refuseEntry (s : State) (q : Fin 64) : State :=
  s.answer q (wordAt (s.headBytes q) 8).toNat (commandEnd s 5 0x302) s

/-- Word n of the head entry as a number. -/
def State.headWord (s : State) (q : Fin 64) (n : Nat) : Nat := (wordAt (s.headBytes q) n).toNat

/-- Is the result address of a record aligned (R287)? -/
def State.resultOk (s : State) (q : Fin 64) : Bool := s.headWord q 8 % 64 = 0

/-! ### Cards and tasks (R267, R271, R273) -/

/-- A refused submission takes the die's next serial number, and its record carries it. -/
def State.refuseSubmission (s : State) (q : Fin 64) (compl : Nat) (card : Option (BitVec 8)) (cause : Cause) : State :=
  let die := s.fedDie q
  let serial := (s.die die).nextSerial
  let f : EndInfo := { commandEnd s 5 0 with cause := cause }
  match s.putHostRecord q compl serial (recordHead serial card 0 false f) with
  | (s, true) => (s.setDie die { s.die die with nextSerial := serial + 1 }).advance q
  | (s, false) => s

/-- What the host path reads in global memory, Sirxon reads. -/
def hostList (va n : Nat) : M (List Byte) := readGlobal .sirxon .system 0 va n

/-- Enter what a check gives, or refuse it. -/
def State.submit (s : State) (q : Fin 64) (compl : Nat) (card : Option (BitVec 8)) (check : M Entry) : State :=
  let die := s.fedDie q
  match s.tryHost q check with
  | .ok e s => (s.setDie die ((s.die die).enter e s.stamp s.sirxon.stopped)).advance q
  | .fails s c => s.refuseSubmission q compl card c
  | .waits s => s

/-- COMPL of a word: bits [63:6]. -/
def complOf (w : Word) : Nat := w.toNat / 64 * 64

def State.serveCard (s : State) (q : Fin 64) : State :=
  let c := s.headBytes q
  let die := s.fedDie q
  s.submit q (complOf (wordAt c 8)) (some ((wordAt c 0).extractLsb' 56 8)) (checkCard die q hostList c)

def State.serveTask (s : State) (q : Fin 64) : State :=
  let r := (s.headBytes q).drop 0x40
  let die := s.fedDie q
  s.submit q (complOf (wordAt r 0x18)) none (checkRecord die q hostList r)

/-! ### Load and unload (R301, R312) -/

def State.serveLoad (s : State) (q : Fin 64) : State :=
  match s.loadCommand q (s.fedDie q) (s.headWord q 8) (s.headWord q 0x10) (s.headWord q 0x18) (s.headWord q 0x20) with
  | (s, true) => s.advance q
  | (s, false) => s

/-- The image slot that a handle names, when it holds a loaded image whose unload has not begun. -/
def Die.slotOf (d : Die) (handle : Nat) : Option (Nat × ImageSlot × Image) :=
  let n := handle / 2 ^ 12 % 2 ^ 12
  let x := tabGet ({} : ImageSlot) n d.images
  match x.image with
  | some im =>
    if 2 ^ 32 ≤ handle || x.generation % 256 ≠ handle / 2 ^ 24 || im.unloading.isSome || im.kernels.length ≤ handle % 2 ^ 12 then none
    else some (n, x, im)
  | none => none

def State.serveUnload (s : State) (q : Fin 64) : State :=
  let die := s.fedDie q
  let d := s.die die
  match d.slotOf (s.headWord q 0x10) with
  | some (n, x, im) =>
    if !s.resultOk q then s.refuseEntry q
    else (s.setDie die { d with images := tabPut n { x with image := some { im with unloading := some (s.headWord q 8) } } d.images }).advance q
  | none => s.refuseEntry q

/-- Does an entry of the table name an image slot? -/
def Entry.names (e : Entry) (slot : Nat) : Bool := e.card.isNone && field e.task.handle 23 12 == slot

/-- The image in a slot of a die. -/
def State.imageAt (s : State) (die slot : Nat) : Option Image := (tabGet ({} : ImageSlot) slot (s.die die).images).image

/-- An image is gone: its crib entries and sealed copy go, and the generation rises (R301, R312). -/
def State.freeImage (s : State) (die slot : Nat) (im : Image) : State :=
  let d := (s.die die).dropImage im
  let x := tabGet ({} : ImageSlot) slot d.images
  s.setDie die { d with images := tabPut slot { generation := (x.generation + 1) % 256 } d.images }

/-- The record of an unload: is it done? -/
def State.unloadRecord (s : State) (die slot at_ : Nat) : State × Bool :=
  let mark (x : Option Sent) (s : State) : State :=
    let d := s.die die
    let y := tabGet ({} : ImageSlot) slot d.images
    s.setDie die { d with images := tabPut slot { y with image := y.image.map fun im => { im with sent := x } } d.images }
  let serial := s.commandNumber
  (s.tryAs (fun s => (s.imageAt die slot).bind Image.sent) mark
    (writeRecord die at_ serial (recordHead serial none 0 false (commandEnd s 1 0)))).record

/-- UNLOAD_COMPLETE (R312): no entry names the image. -/
def execUnloadComplete (die : Fin 4) (slot : Fin 4096) (s : State) : Outcome :=
  match s.imageAt die slot with
  | none => .next s
  | some im =>
    match im.unloading with
    | none => .next s
    | some at_ =>
      if (s.die die).table.any fun e => e.names slot then .next s
      else
        match s.unloadRecord die slot at_ with
        | (s, true) => .next ({ s with free := s.free + 1 }.freeImage die slot im)
        | (s, false) => .next s

/-! ### Map (R349, R353, R392) -/

/-- Sirxon reads the entry of a table on the way to a page. -/
def mapEntry (die va level t : Nat) : M (Nat × Word) := do
  let pa := t + 8 * (va % 2 ^ 50 / 2 ^ levelShift level % levelEntries level)
  needHome .sirxon (.dram die pa) va .write
  let s ← get
  if (s.die die).poison.contains (pa / 128) then
    set (s.addError die pa va srcWalk 3)
    raise 0x242 (BitVec.ofNat 64 va)
  let e := wordOf (s.readPa die pa 8)
  raiseIf (pteV e && pteMalformed level e) 0x0C7 (BitVec.ofNat 64 va)
  return (pa, e)

/-- Walk from the table of a level down to the page's own leaf, making tables and splintering leaves on the way. -/
def mapWalk (die va : Nat) : Nat → Nat → M (Nat × Word)
  | 0, t => mapEntry die va 0 t
  | l + 1, t => do
    let (pa, e) ← mapEntry die va (l + 1) t
    if pteV e && !pteLeaf e then mapWalk die va l (pteAddr e)
    else
      let (a, d) ← newTable .sirxon die va
      modify fun s =>
        let s := s.setDie die d
        let s := if pteV e then s.writeTable die a l e else { s with dram := clearBytes s.dram (dramKey die a) 4096 }.scrub die a 4096
        s.writeEntry die pa (mkPointer a)
      mapWalk die va l a

/-- The page's leaf takes its rights. RES 1 keeps or takes a frame; RES 0 leaves a resident page resident, because only an
evict ends its residency (R354, log entry 55). -/
def mapLeaf (die va entryPa : Nat) (e : Word) (rd w res : Bool) : M Unit := do
  let put (res cmp : Bool) (addr : Nat) : M Unit :=
    modify fun s => s.writeEntry die entryPa (mkLeaf res w rd cmp false false addr)
  if pteV e && pteRes e then put true (pteCmp e) (pteAddr e)
  else if !res then put false false 0
  else
    match (← getDie die).takeFrame with
    | none => raise 0x0C8
    | some (f, d) =>
      modDie die fun _ => { d with evicted := tabDel (va / 65536) d.evicted,
                                   residency := d.residency.filter fun p => p ≠ va / 65536,
                                   residencyFailed := d.residencyFailed.filter fun p => p ≠ va / 65536 }
      put true false (f * 65536)

/-- Pages in ascending VA. -/
def mapPages (q : Fin 64) (die va : Nat) (rd w res : Bool) : Nat → M Unit
  | 0 => return ()
  | n + 1 => do
    awaitWrites va 65536
    let (pa, e) ← mapWalk die va 3 (← getDie die).root
    mapLeaf die va pa e rd w res
    noteWithdrawal q (pteV e && pteRd e) rd
    mapPages q die (va + 65536) rd w res n

/-- The work of a map command: what withdraws a read permission is over 65,536 cycles later (R352). -/
def mapBody (q : Fin 64) (die va n : Nat) (w : Word) : M Unit := do
  mapPages q die va (w.getLsbD 34) (w.getLsbD 33) (w.getLsbD 32) n
  awaitCopies q

def State.serveMap (s : State) (q : Fin 64) : State :=
  let die := s.fedDie q
  let va := s.headWord q 0x10
  let w := wordAt (s.headBytes q) 0x18
  let n := field w 31 0
  if !s.resultOk q || va % 65536 ≠ 0 || n = 0 || !s.homedRange die va (65536 * n) then s.refuseEntry q
  else
    match s.tryHost q (mapBody q die va n w) with
    | .ok _ s => s.answer q (s.headWord q 8) (commandEnd s 1 0) s
    | .fails s c => s.answer q (s.headWord q 8) (commandEnd s 2 c.toNat) s
    | .waits s => s

/-! ### Crib invalidate (R311) -/

def State.serveCrib (s : State) (q : Fin 64) : State :=
  let die := s.fedDie q
  let d := s.die die
  let h := s.headWord q 0x10
  let done (s' : State) : State := s'.answer q (s.headWord q 8) (commandEnd s 1 0) s
  if !s.resultOk q then s.refuseEntry q
  else if h = 0 then done (s.dropCrib die)
  else
    match d.slotOf h with
    | some (_, _, im) => done (s.setDie die (d.dropImage im))
    | none => s.refuseEntry q

/-! ### Attest (R397) -/

/-- The part number (R397). -/
def partNumber : List Byte := "VX9-4T8".toList.map fun c => BitVec.ofNat 8 c.toNat

/-- The report: what the spec says it holds, in the spec's order, with what else stands between (log entry 6). -/
def attestReport (s : State) (nonce : List Byte) : List Byte :=
  let parts := [partNumber, leBytes 8 Config.serialNumber.toNat, s.sirxon.digest, leBytes 8 Config.familyHash.toNat,
    wordBytes s.healthWord, nonce, wordBytes s.stamp]
  parts.zipIdx.flatMap fun x => (Config.attestGap x.2).take 4096 ++ x.1

/-- The report and its signature over its SHA-512 digest are written, or why not. -/
def attestBody (nonce report : Nat) : M Unit := do
  let n ← readGlobal .sirxon .system 0 nonce 64
  let l := attestReport (← get) n
  writeGlobal .sirxon .system 0 report (l ++ (Config.deviceSignature (sha512 l)).toList)

def State.serveAttest (s : State) (q : Fin 64) : State :=
  if !s.resultOk q then s.refuseEntry q
  else
    let key := Config.deviceKeyReadable s.free
    let s' := { s with free := s.free + 1 }
    if !key then s'.answer q (s.headWord q 8) (commandEnd s 2 0x383) s
    else
      match s'.tryHost q (attestBody (s.headWord q 0x10) (s.headWord q 0x18)) with
      | .ok _ s' => s'.answer q (s.headWord q 8) (commandEnd s 1 0) s
      | .fails s' c => s'.answer q (s.headWord q 8) (commandEnd s 2 c.toNat) s
      | .waits s' => s.noteHost s' q

/-! ### Checkpoint and restore (R399) -/

/-- Bytes of a die that are streamed: all of its DRAM but the reserved rows. -/
def streamBytes : Nat := 2 ^ 37 - 2 ^ 24

/-- Where a store's bytes live: host memory, or another package's. -/
inductive Store where
  | host (addr : Nat)
  | far (pkg va : Nat)

/-- A store lies outside the package, with room for all four dies behind its address. -/
def State.storeOf (s : State) (va : Nat) : Option Store :=
  if 2 ^ 50 < va % 2 ^ 50 + 4 * streamBytes then none
  else match placeOf s va with
    | .host a => some (.host a)
    | .remote pkg va => some (.far pkg va)
    | .home _ _ => none

/-- The store's package answers. -/
def storeReach : Store → M Unit
  | .host _ => pure ()
  | .far pkg va => reachPackage .sirxon pkg va

/-- Bytes that a store takes or gives before a page of it fails, and the cause. -/
def State.storeFault (s : State) (use : Use) : Store → Option (Nat × Cause)
  | .host _ => none
  | .far _ va =>
    (s.remoteFaults.find? fun e =>
      va / 65536 ≤ e.1 && e.1 * 65536 < va + 4 * streamBytes && remoteRaises .sirxon use e.2).map fun e => (e.1 * 65536 - va, e.2)

/-- Copy a range of cells from one memory to another; what the range does not list reads as unlisted. -/
def carryCells (from_ : Memory) (src n : Nat) (into : Memory) (dst : Nat) : Memory :=
  (from_.filter fun c => src ≤ c.1 && c.1 < src + n).foldl (fun (m : Memory) c => writeByte (c.1 - src + dst) c.2 m) (clearBytes into dst n)

/-- The first n bytes of the stream, die after die, as ranges: die, offset in the stream, length. -/
def streamParts (n : Nat) : List (Nat × Nat × Nat) :=
  ((List.range 4).map fun d => (d, d * streamBytes, min streamBytes (n - d * streamBytes))).filter fun p => p.2.2 ≠ 0

/-- DRAM to a store: the first n bytes. -/
def State.streamOut (s : State) (store : Store) (n : Nat) : State :=
  (streamParts n).foldl (fun (s : State) (p : Nat × Nat × Nat) =>
    match store with
    | .host a => { s with hostMem := carryCells s.dram (dramKey p.1 0) p.2.2 s.hostMem (a + p.2.1) }
    | .far _ va => { s with remote := carryCells s.dram (dramKey p.1 0) p.2.2 s.remote (va + p.2.1) }) s

/-- A store to DRAM: the first n bytes. Lines that slices hold go, and poison marks with them. -/
def State.streamIn (s : State) (store : Store) (n : Nat) : State :=
  (streamParts n).foldl (fun (s : State) (p : Nat × Nat × Nat) =>
    let s := match store with
      | .host a => { s with dram := carryCells s.hostMem (a + p.2.1) p.2.2 s.dram (dramKey p.1 0) }
      | .far _ va => { s with dram := carryCells s.remote (va + p.2.1) p.2.2 s.dram (dramKey p.1 0) }
    let d := s.die p.1
    s.setDie p.1 { d with lines := d.lines.filter fun l => p.2.2 ≤ l.line * 128,
                          floors := (d.lines.filter fun l => l.line * 128 < p.2.2).foldl (fun v l => raiseFloor v (l.line / 4) l.rts) d.floors,
                          poison := d.poison.filter fun x => p.2.2 ≤ x * 128, tlbs := [] }) s

/-- Compressed pages are kept beside the stream, whose form for them is the part's own (log entry 7). -/
def State.storedPages (s : State) (store : Nat) : StoredPages :=
  { store := store, dies := (List.range 4).map fun d => (s.die d).compressed, cells := s.dram.filter fun c => 2 ^ 60 ≤ c.1 }

/-- Do all work that a checkpoint waits for have ended: no task runs, no card is at its engine (R399)? -/
def State.atRest (s : State) : Bool :=
  (List.range 4).all fun d => !((s.die d).table.any fun e => e.isRunning || e.status = .issued)

/-- Is a pseudo-channel in a compute phase, so that its DRAM serves card steps only (R366)? -/
def State.anyCompute (s : State) : Bool := s.pcs.any fun e => e.2.compute

/-- Have the write paths and queues of the clusters drained (R252, R399)? -/
def State.drained (s : State) : Bool :=
  (s.clusters.all fun e => e.2.pending.isEmpty) && s.cores.all fun e => e.2.writePath.isEmpty

/-- Stop or resume issue in every graph. -/
def State.setPaused (s : State) (p : Bool) : State :=
  (List.range 4).foldl (fun (s : State) d => s.setDie d (({ s.die d with paused := p } : Die).refresh s.stamp s.sirxon.stopped)) s

/-- Request the hard pre-emption of every long task that runs (R282). -/
def State.preemptLong (s : State) : State :=
  (List.range 4).foldl (fun (s : State) d =>
    let x := s.die d
    s.setDie d { x with table := x.table.map fun e => if e.isRunning && e.task.long then { e with preempt := true } else e }) s

/-- Every dirty line of the slices is flushed to DRAM, where the model keeps its bytes already. -/
def State.flushSlices (s : State) : State :=
  (List.range 4).foldl (fun (s : State) d =>
    let x := s.die d
    s.setDie d { x with lines := x.lines.map fun l => { l with dirty := false } }) s

/-- Steps 3 and 4 of a checkpoint, once all is at rest, up to a store fault. -/
def State.checkpointStream (s : State) (q : Fin 64) (va : Nat) (store : Store) (fault : Option (Nat × Cause)) : State :=
  let n := (fault.map Prod.fst).getD (4 * streamBytes)
  let s1 := (s.flushSlices).streamOut store n
  let s1 := if fault.isSome then s1
    else { s1 with stores := s1.storedPages va :: s1.stores.filter fun p => p.store ≠ va }
  let f : EndInfo := { commandEnd s 1 0 with unit := 1, wmark := n }
  let f := match fault with
    | some (_, c) => { f with state := 3, cause := c }
    | none => f
  let s1 := ({ s1 with sirxon := { s1.sirxon with checkpoint := none } } : State).setPaused false
  s1.answer q (s.headWord q 8) f s

def State.serveCheckpoint (s : State) (q : Fin 64) : State :=
  let va := s.headWord q 0x10
  match s.storeOf va with
  | none => s.refuseEntry q
  | some store =>
    if !s.resultOk q then s.refuseEntry q
    else if s.sirxon.checkpoint.isNone then
      ({ s.preemptLong with sirxon := { s.sirxon with checkpoint := some q } } : State).setPaused true
    else if s.atRest && s.drained && !s.anyCompute then
      match s.tryHost q (storeReach store) with
      | .waits s => s
      | .fails s c => s.checkpointStream q va store (some (0, c))
      | .ok _ s => s.checkpointStream q va store (s.storeFault .w store)
    else s

/-- The compressed pages of a store return with it. -/
def State.restorePages (s : State) (va : Nat) : State :=
  match s.stores.find? fun p => p.store = va with
  | none => s
  | some p =>
    let s := { s with dram := p.cells.foldl (fun (m : Memory) c => writeByte c.1 c.2 m) s.dram }
    p.dies.zipIdx.foldl (fun (s : State) (e : Tab (Nat × Nat) × Nat) => s.setDie e.2 { s.die e.2 with compressed := e.1 }) s

/-- The frames that a store gives before a fault of it, and the record. -/
def State.restoreStream (s : State) (q : Fin 64) (va : Nat) (store : Store) (fault : Option (Nat × Cause)) : State :=
  match fault with
  | some (n, c) =>
    let f : EndInfo := { commandEnd s 3 0 with unit := 1, wmark := n, cause := c }
    (s.streamIn store n).answer q (s.headWord q 8) f s
  | none =>
    let f : EndInfo := { commandEnd s 1 0 with unit := 1, wmark := 4 * streamBytes }
    ((s.streamIn store (4 * streamBytes)).restorePages va).answer q (s.headWord q 8) f s

def State.serveRestore (s : State) (q : Fin 64) : State :=
  let va := s.headWord q 0x10
  match s.storeOf va with
  | none => s.refuseEntry q
  | some store =>
    if !s.resultOk q || s.sirxon.anyIssued then s.refuseEntry q
    else if s.anyCompute then s
    else
      match s.tryHost q (storeReach store) with
      | .waits s => s
      | .fails s c => s.restoreStream q va store (some (0, c))
      | .ok _ s => s.restoreStream q va store (s.storeFault .r store)

/-! ### Entries (R392) -/

/-- What an entry type is. -/
inductive EntryKind where
  | card | task | load | unload | map | crib | attest | checkpoint | restore | invalid
deriving DecidableEq, Repr

def entryKind (ty : Nat) : EntryKind :=
  if 1 ≤ ty && ty ≤ 0x20 then .card
  else match ty with
    | 0x80 => .task
    | 0xC0 => .load
    | 0xC1 => .unload
    | 0xC2 => .map
    | 0xC3 => .crib
    | 0xC4 => .attest
    | 0xC5 => .checkpoint
    | 0xC6 => .restore
    | _ => .invalid

/-- Serve the head of a queue. -/
def State.serve (s : State) (q : Fin 64) (k : EntryKind) : State :=
  match k with
  | .card => s.serveCard q
  | .task => s.serveTask q
  | .load => s.serveLoad q
  | .unload => s.serveUnload q
  | .map => s.serveMap q
  | .crib => s.serveCrib q
  | .attest => s.serveAttest q
  | .checkpoint => s.serveCheckpoint q
  | .restore => s.serveRestore q
  | .invalid => s.refuseEntry q

/-- Serve the head of a queue when it is of a kind and the queue is read. -/
def State.serveKind (s : State) (q : Fin 64) (k : EntryKind) : State :=
  if s.readable q && entryKind (s.headType q) = k then s.serve q k else s

/-- HOST_JOB_CARD_ENTRY (R392, R273). -/
def execHostJobCardEntry (queue : Fin 64) (s : State) : Outcome := .next (s.serveKind queue .card)
/-- HOST_TASK_ENTRY (R392, R271). -/
def execHostTaskEntry (queue : Fin 64) (s : State) : Outcome := .next (s.serveKind queue .task)
/-- LOAD (R302). -/
def execLoad (queue : Fin 64) (s : State) : Outcome := .next (s.serveKind queue .load)
/-- UNLOAD (R312). -/
def execUnload (queue : Fin 64) (s : State) : Outcome := .next (s.serveKind queue .unload)
/-- MAP (R392). -/
def execMap (queue : Fin 64) (s : State) : Outcome := .next (s.serveKind queue .map)
/-- CRIB_INVALIDATE (R311). -/
def execCribInvalidate (queue : Fin 64) (s : State) : Outcome := .next (s.serveKind queue .crib)
/-- ATTEST (R397). -/
def execAttest (queue : Fin 64) (s : State) : Outcome := .next (s.serveKind queue .attest)
/-- CHECKPOINT (R399): the first time issue stops and long tasks are pre-empted; once all is at rest the frames are streamed. -/
def execCheckpoint (queue : Fin 64) (s : State) : Outcome := .next (s.serveKind queue .checkpoint)
/-- RESTORE (R399). -/
def execRestore (queue : Fin 64) (s : State) : Outcome := .next (s.serveKind queue .restore)
/-- ENTRY_INVALID (R392). -/
def execEntryInvalid (queue : Fin 64) (s : State) : Outcome := .next (s.serveKind queue .invalid)

/-! ### Room in the table (R268) -/

/-- May a submission that waits for room still be entered: a card, or a task whose image no unload has begun to take away
(R271, R312)? -/
def Die.stillFit (d : Die) (e : Entry) : Bool := e.card.isSome || (d.kernelOf e.task.handle).isSome

/-- A waiting TASK or JOB gets the room; a task whose kernel is gone raises 0x201 instead. -/
def State.grantWaiting (s : State) (die : Nat) (who : SeqId) (e : Entry) : State :=
  let d := s.die die
  if d.stillFit e then
    let d' := ({ d with roomQueue := d.roomQueue.erase (who, e) } : Die).enter e s.stamp s.sirxon.stopped
    (s.setDie die d').resumeWait who .room fun _ _ _ => return Result.ofX (BitVec.ofNat 64 d.nextSerial)
  else
    let s := s.setDie die { d with roomQueue := d.roomQueue.erase (who, e) }
    match (s.seq who).wait with
    | some p => s.raiseWait who p 0x201 0 0
    | none => s

/-- The graphs in turn: the first with a claim gets the room, its waiting TASKs and JOBs before its host queue; a queue whose
entry has to wait lets the next graph have it. A graph received room when an entry of it entered the table. -/
def grantRoom (die : Nat) : List Nat → State → State
  | [], s => s
  | g :: rest, s =>
    let q : Fin 64 := Fin.ofNat 64 g
    if !s.claims die g then grantRoom die rest s
    else
      match (s.die die).roomQueue.find? fun e => e.2.graph = g with
      | some (who, e) => s.grantWaiting die who e
      | none =>
        let t := s.serve q (entryKind (s.headType q))
        if (t.host.queue q).head ≠ (s.host.queue q).head then t else grantRoom die rest t

/-- TABLE_ROOM_GRANT (R268). -/
def execTableRoomGrant (die : Fin 4) (s : State) : Outcome :=
  let d := s.die die
  .next (if d.hasRoom then grantRoom die (roundRobin d.roomLast) s else s)

end Sys2Proof.Machine
end

