-- ==== Sys2Proof/Machine/LoadStore.lean ====
section
/-! DEFINITION. Loads, stores and row gather (spec 05 R111 to R117), and the queue-space forms (R119). -/

namespace Sys2Proof.Machine

/-! ### Literal fields (R112) -/

def litHint (o : Operands) : BitVec 2 := (o.lit.getD 0).extractLsb' 22 2
def litPi (o : Operands) : Bool := (o.lit.getD 0).getLsbD 21
def litOffhi (o : Operands) : BitVec 20 := (o.lit.getD 0).extractLsb' 0 20

/-- LD, VLD: OFFHI × 64 + B in 26 bits; without a literal B × size. -/
def loadOffset (o : Operands) (size : Nat) : Word :=
  match o.lit with
  | some _ => (litOffhi o ++ o.slot.b).signExtend 64
  | none => BitVec.ofNat 64 (o.slot.b.toNat * size)

/-- ST, VST: OFFHI in 20 bits; without a literal 0. -/
def storeOffset (o : Operands) : Word :=
  match o.lit with
  | some _ => (litOffhi o).signExtend 64
  | none => 0

/-- The address accessed and the post-increment (R113). -/
def accessAddr (o : Operands) (base off : Word) : Word := if litPi o then base else base + off
def postIncrement (o : Operands) (code : BitVec 6) (base off : Word) : Option (BitVec 5 × Word) :=
  if litPi o then some (code.setWidth 5, base + off) else none

/-- F[4:3]: 0 global, 1 A space, 3 queue space. -/
def spaceOf (o : Operands) : Nat := o.f / 8

/-- The bytes of a scalar access: 2^F[2:1]. -/
def sizeOf (o : Operands) : Nat := 2 ^ (o.f / 2 % 4)

/-! ### LD and ST -/

def readSpace (o : Operands) (addr : Word) (n : Nat) : M (List Byte) :=
  if spaceOf o = 0 then readGlobal (.seq o.who) o.scope (litHint o) addr.toNat n else aRead o.who.core addr.toNat n

def ldBody (o : Operands) : M Result := do
  let base := o.xa
  let off := loadOffset o (sizeOf o)
  let l ← readSpace o (accessAddr o base off) (sizeOf o)
  return { Result.ofX (extendBytes (o.f % 2 == 1) l) with base := postIncrement o o.slot.a base off }

def stBody (o : Operands) : M Result := do
  let base := o.xb
  let off := storeOffset o
  let addr := accessAddr o base off
  let l := leBytes (sizeOf o) o.xa.toNat
  if spaceOf o = 0 then writeGlobal (.seq o.who) o.scope (litHint o) addr.toNat l
  else aWrite o.who.core addr.toNat l
  return { base := postIncrement o o.slot.b base off }

/-! ### Queue space (R119) -/

/-- Alignment first, then the A-space checks of R114. -/
def queueWordPlace (o : Operands) (addr : Word) : M Nat := do
  raiseIf (addr.toNat % 8 ≠ 0) 0x084 addr
  aCheck o.who.core addr.toNat 8

def ldQeBody (o : Operands) : M Result := do
  let addr := o.xa + loadOffset o 8
  let p ← queueWordPlace o addr
  aPoison o.who.core addr.toNat p 8
  awaitBin o.who.core false p 8
  return Result.ofX (wordOf (← binRead o.who.core p 8))

/-- Word 0 sets TAIL and HEAD together; word 1 also sets word 0 to zero. -/
def stQeBody (o : Operands) : M Result := do
  let addr := o.xb + storeOffset o
  let p ← queueWordPlace o addr
  awaitBin o.who.core true p 8
  if addr.getLsbD 3 then binWrite o.who.core (p - 8) (zeros 8 ++ wordBytes o.xa)
  else binWrite o.who.core p (wordBytes o.xa)
  return {}

/-! ### VLD and VST -/

/-- The pieces a VLD finds non-resident, as companion bits in byte order (R115). -/
def companionBits : List (Nat × Nat × Option Home) → List Bool
  | [] => []
  | (_, n, h) :: t => List.replicate n h.isNone ++ companionBits t

/-- A predicate from its bits, bit 0 first. -/
def predOf (l : List Bool) : Pred := BitVec.ofNat 256 (l.foldr (fun b n => bit b + 2 * n) 0)

def vldBody (o : Operands) : M Result := do
  let base := o.xa
  let off := loadOffset o 256
  let addr := accessAddr o base off
  let base' := postIncrement o o.slot.a base off
  if spaceOf o = 0 then
    let ps ← checkSpans (.seq o.who) .r true (lineSpans addr.toNat 256)
    let l ← readAll (.seq o.who) o.scope (litHint o) true ps
    return { value := some (vecOf l), comp := some (predOf (companionBits ps)), base := base' }
  else
    let l ← aRead o.who.core addr.toNat 256
    return { value := some (vecOf l), comp := some 0, base := base' }

/-- The runs of consecutive bytes that a mask leaves in, each within one line of an address: offset and length. -/
def maskRuns (addr : Nat) (mask : Pred) : List (Nat × Nat) :=
  let step (acc : List (Nat × Nat)) (j : Nat) : List (Nat × Nat) :=
    if !mask.getLsbD j then acc
    else match acc with
      | (o, n) :: t => if o + n = j && (addr + j) % 128 ≠ 0 then (o, n + 1) :: t else (j, 1) :: acc
      | [] => [(j, 1)]
  ((List.range 256).foldl step []).reverse

/-- F[0]: bytes under the mask-stack top only. -/
def storeMask (o : Operands) : Pred := if o.f % 2 = 1 then o.regs.maskTop else BitVec.allOnes 256

def runsGlobal (o : Operands) (addr : Nat) (data : List Byte) (runs : List (Nat × Nat)) : M Unit := do
  let ps ← checkSpans (.seq o.who) .w false (runs.map fun r => ((addr + r.1) % 2 ^ 64, r.2))
  checkBlocked (.seq o.who) o.scope ps
  writeAll (.seq o.who) o.scope (litHint o) ps (runs.flatMap fun r => (data.drop r.1).take r.2)

/-- Runs of an A-space store wait while background work of the group keeps them from their bytes. -/
def awaitRuns (core p : Nat) : List (Nat × Nat) → M Unit
  | [] => return ()
  | (j, n) :: t => do
    awaitBin core true (p + j) n
    awaitRuns core p t

/-- The runs lie in the window that the access's own address names, up to the last unmasked byte (R113, R114, log entry 63). -/
def runsBin (core addr : Nat) (data : List Byte) (runs : List (Nat × Nat)) : M Unit :=
  match runs.getLast? with
  | none => return ()
  | some (j, n) => do
    let p ← aCheck core addr (j + n)
    awaitRuns core p runs
    modCluster (clusterOf core) fun k => runs.foldl (fun k r => k.binWrite (p + r.1) ((data.drop r.1).take r.2)) k

def vstBody (o : Operands) : M Result := do
  let base := o.xb
  let off := storeOffset o
  let addr := accessAddr o base off
  let data := vecBytes o.a
  let mask := storeMask o
  if mask = BitVec.allOnes 256 then
    if spaceOf o = 0 then writeGlobal (.seq o.who) o.scope (litHint o) addr.toNat data
    else aWrite o.who.core addr.toNat data
  else
    let runs := maskRuns addr.toNat mask
    if spaceOf o = 0 then runsGlobal o addr.toNat data runs else runsBin o.who.core addr.toNat data runs
  return { base := postIncrement o o.slot.b base off }

/-! ### GATH (R117) -/

/-- The places of the pieces, each checked; an index of 0xFFFF has none. A piece past 2^64 has no address of A space (R114,
R117). -/
def gathPlaces (core : Nat) (base : Word) (len : Nat) (idx : Vec) : List Nat → M (List (Option Nat))
  | [] => return []
  | k :: t => do
    let i := (idx.extractLsb' (16 * k) 16).toNat
    let p ← if i = 0xFFFF then pure none
      else do
        let a := base.toNat + i * len
        let p ← aCheck core a len
        aPoison core a p len
        awaitBin core false p len
        pure (some p)
    return p :: (← gathPlaces core base len idx t)

def gathRead (core len : Nat) : List (Option Nat) → M (List Byte)
  | [] => return []
  | p :: t => do
    let l ← match p with
      | some p => binRead core p len
      | none => pure (zeros len)
    return l ++ (← gathRead core len t)

def gathBody (o : Operands) : M Result := do
  let len := 2 ^ (o.f % 8 + 1)
  raiseIf (o.xb.toNat % len ≠ 0) 0x084 o.xb
  let ps ← gathPlaces o.who.core o.xb len o.a (List.range (256 / len))
  return { gather := some (vecOf (← gathRead o.who.core len ps)) }

/-- LD (R113). -/
def execLd (w : Slot) (s : State) : Outcome := runSlot 0x22 w ldBody s
/-- ld.d.qe (R119). -/
def execLdQe (w : Slot) (s : State) : Outcome := runSlot 0x22 w ldQeBody s
/-- ST (R113). -/
def execSt (w : Slot) (s : State) : Outcome := runSlot 0x23 w stBody s
/-- st.d.qe (R119). -/
def execStQe (w : Slot) (s : State) : Outcome := runSlot 0x23 w stQeBody s
/-- VLD (R113, R115). -/
def execVld (w : Slot) (s : State) : Outcome := runSlot 0x24 w vldBody s
/-- VST (R113). -/
def execVst (w : Slot) (s : State) : Outcome := runSlot 0x25 w vstBody s
/-- GATH (R117). -/
def execGath (w : Slot) (s : State) : Outcome := runSlot 0x26 w gathBody s

end Sys2Proof.Machine
end

