-- ==== Sys2Proof/Machine/Prefix.lean ====
section
/-! DEFINITION. The four prefix slots (spec 03 R59 to R65). They belong to no engine; each changes what the bundle in
progress says of its later slots. -/

namespace Sys2Proof.Machine

/-- NOP (R61). -/
def execNop (stop : Bool) (s : State) : Outcome := .next (runPrefix stop (fun _ b => { b with lit := none }) s)

/-- LIT (R62): the literal attaches to the slot directly after it. -/
def execLit (literal : BitVec 24) (s : State) : Outcome := .next (runPrefix false (fun _ b => { b with lit := some literal }) s)

/-- GUARD (R63): the predicate is read once, in the state the preceding bundles left; a covered slot is guarded true when
bit 0 of it equals 1 − POL. -/
def execGuard (pred : BitVec 7) (mask : BitVec 8) (pol : Bool) (s : State) : Outcome :=
  .next (runPrefix false (fun q b => { b with guard := some ((q.before.getP pred).getLsbD 0 == !pol, mask) }) s)

/-- SCOPE (R65). -/
def execScope (code : BitVec 5) (s : State) : Outcome :=
  .next (runPrefix false (fun _ b => { b with scope := Scope.ofCode code }) s)

end Sys2Proof.Machine
end

