-- ==== Sys2Proof/Machine/Queue.lean ====
section
/-! DEFINITION. Bin queues: QPSH, QPOP, their waits and limit (spec 05 R118, R120, R121). -/

namespace Sys2Proof.Machine

/-- A queue control word (R118). -/
structure Qcw where
  head : Nat
  tail : Nat
  word1 : Word

def Qcw.valid (c : Qcw) : Bool := c.word1.getLsbD 35
def Qcw.lgn (c : Qcw) : Nat := field c.word1 34 31
def Qcw.esz (c : Qcw) : Nat := field c.word1 30 27
def Qcw.ring (c : Qcw) : Nat := field c.word1 16 0

/-- Occupancy (R118). -/
def Qcw.count (c : Qcw) : Nat := (c.tail + 2 ^ 32 - c.head) % 2 ^ 32

/-- The conditions of 0x085, for a word at an offset in its bin (R118). -/
def Qcw.invalid (c : Qcw) (off : Nat) : Bool :=
  !c.valid || 8 < c.esz || c.ring % 2 ^ c.esz ≠ 0 || binSize < c.ring + 2 ^ (c.esz + c.lgn)
    || (c.ring < off + 16 && off < c.ring + 2 ^ (c.esz + c.lgn))
    || field c.word1 63 36 ≠ 0 || field c.word1 26 17 ≠ 0

/-- The place of a queue access: an access accepted before its window began to drain completes (R233, R237). -/
def queuePlace (o : Operands) (q : Nat) : M Nat := do
  match (← getSeq o.who).wait with
  | some _ =>
    let k ← getCore o.who.core
    let w := k.windows[q / binSize % 16]'(Nat.mod_lt _ (by decide))
    if w.att then return w.bin.val * binSize + q % binSize else aCheck o.who.core q 16
  | none => aCheck o.who.core q 16

/-- Read and check the control word: alignment, R114, R118, then the element size the form permits (R120). -/
def readQcw (o : Operands) (q : Word) (scalar : Bool) : M (Nat × Qcw) := do
  raiseIf (q.toNat % 16 ≠ 0) 0x084 q
  let p ← queuePlace o q.toNat
  aPoison o.who.core q.toNat p 16
  awaitBin o.who.core true p 16
  let l ← binRead o.who.core p 16
  let c : Qcw := { head := fromLe (l.take 4), tail := fromLe ((l.drop 4).take 4), word1 := wordOf (l.drop 8) }
  raiseIf (c.invalid (p % binSize)) 0x085 q
  raiseIf (scalar && 3 < c.esz) 0x086 q
  return (p, c)

/-- The place of element n of the ring. -/
def elementPlace (p : Nat) (c : Qcw) (n : Nat) : Nat := p / binSize * binSize + c.ring + n % 2 ^ c.lgn * 2 ^ c.esz

def pushBody (scalar : Bool) (o : Operands) : M Result := do
  let (p, c) ← readQcw o o.xb scalar
  if c.count = 2 ^ c.lgn then waitFor .queue
  awaitBin o.who.core true (elementPlace p c c.tail) (2 ^ c.esz)
  binWrite o.who.core (elementPlace p c c.tail) (leBytes (2 ^ c.esz) o.a.toNat)
  binWrite o.who.core (p + 4) (leBytes 4 (c.tail + 1))
  return {}

def popBody (scalar : Bool) (o : Operands) : M Result := do
  let (p, c) ← readQcw o o.xa scalar
  if c.count = 0 then waitFor .queue
  let e := elementPlace p c c.head
  aPoison o.who.core o.xa.toNat e (2 ^ c.esz)
  awaitBin o.who.core false e (2 ^ c.esz)
  let y := vecOf (← binRead o.who.core e (2 ^ c.esz))
  binWrite o.who.core p (leBytes 4 (c.head + 1))
  return { value := some y, comp := if scalar then none else some 0 }

def qpshBody : Operands → M Result := pushBody true
def qpshVBody : Operands → M Result := pushBody false
def qpopBody : Operands → M Result := popBody true
def qpopVBody : Operands → M Result := popBody false

/-- QPSH (R120). -/
def execQpsh (w : Slot) (s : State) : Outcome := runSlot 0x2C w qpshBody s
/-- qpsh.v (R120). -/
def execQpshV (w : Slot) (s : State) : Outcome := runSlot 0x2C w qpshVBody s
/-- QPOP (R120). -/
def execQpop (w : Slot) (s : State) : Outcome := runSlot 0x2D w qpopBody s
/-- qpop.v (R120). -/
def execQpopV (w : Slot) (s : State) : Outcome := runSlot 0x2D w qpopVBody s

/-- The body of a waiting queue operation: QPSH is 0x2C, QPOP 0x2D, and F = 0 is the scalar form. -/
def queueBody (op : BitVec 7) (w : Slot) : Operands → M Result := if op = 0x2C then pushBody (w.f = 0) else popBody (w.f = 0)

/-- QUEUE_OP_WAKE (R121): a waiting queue operation retries from the top. -/
def execQueueOpWake (who : SeqId) (s : State) : Outcome := .next (s.resumeWait who .queue queueBody)

/-- QUEUE_WAIT_LIMIT (R121): at 1,048,576 cycles the slot raises 0x087 unperformed, with the control word's address in
ADDR and its window in DETAIL (R214). -/
def execQueueWaitLimit (who : SeqId) (s : State) : Outcome :=
  match (s.seq who).wait with
  | some p =>
    if Config.waitLimit ≤ s.cycle - p.since && s.stillWaits who .queue queueBody then
      let q : Word := if p.op = 0x2C then p.opB.setWidth 64 else p.opA.setWidth 64
      .next (s.raiseWait who p 0x087 q (BitVec.ofNat 16 (q.toNat / binSize % 16)))
    else .next s
  | none => .next s

end Sys2Proof.Machine
end

