-- ==== Sys2Proof/Machine/Scalar.lean ====
section
/-! DEFINITION. The X engine's arithmetic, logic, compare, select, moves and conversions (spec 04 R79 to R89). -/

namespace Sys2Proof.Machine

/-! ### Arithmetic and logic (R81 to R83) -/

/-- A 64-bit pattern's low n bits read as unsigned or signed. -/
def readInt (n : Nat) (unsigned : Bool) (p : Word) : Int :=
  let v := p.toNat % 2 ^ n
  if unsigned then v else signedOf n v

/-- The result of x_arith from its exact value (R82): wrapped, sign-extended from 32 bits, or saturated. -/
def finishInt (wd : Nat) (e : Int) : Word × Flags :=
  match wd with
  | 0 => (BitVec.ofInt 64 e, 0)
  | 1 => ((BitVec.ofInt 32 e).signExtend 64, 0)
  | 2 => let (y, f) := clampInt (-(2 ^ 63 : Nat)) (2 ^ 63 - 1 : Nat) e; (BitVec.ofInt 64 y, f)
  | _ => let (y, f) := clampInt 0 (2 ^ 64 - 1 : Nat) e; (BitVec.ofInt 64 y, f)

def widthOf (wd : Nat) : Nat := if wd = 1 then 32 else 64

def addExact (kind : Nat) (a b : Int) : Int := a + b * (2 ^ kind : Nat)
def subExact (kind : Nat) (a b : Int) : Int := if kind = 0 then a - b else b - a

/-- Logic on the n-bit patterns; B is inverted first for kind 1. -/
def logicExact (op : Nat → Nat → Nat) (n kind : Nat) (a b : Word) : Nat :=
  let x := a.toNat % 2 ^ n
  let y := b.toNat % 2 ^ n
  op x (if kind = 1 then 2 ^ n - 1 - y else y)

/-- Shifts by b mod n (R82). -/
def shiftExact (n kind : Nat) (a b : Word) : Nat :=
  let x := a.toNat % 2 ^ n
  let k := b.toNat % 2 ^ n % n
  match kind with
  | 0 => x * 2 ^ k
  | 1 => x / 2 ^ k
  | 2 => wrapInt n (signedOf n x / (2 ^ k : Nat))
  | _ => x / 2 ^ k + x % 2 ^ k * 2 ^ (n - k)

/-- Quotient rounded toward zero, and the remainder with the dividend's sign; a zero divisor gives 0 and a (R83). -/
def divExact (wantRem : Bool) (a b : Int) : Int :=
  if b = 0 then (if wantRem then a else 0) else if wantRem then a.tmod b else a.tdiv b

/-- R83: division by zero always raises; the one overflowing quotient raises overflow for div.q. -/
def divFlags (n kind : Nat) (a b : Int) : Flags :=
  flagIf (b = 0) Flags.divZero ||| flagIf (kind = 0 && b = -1 && a = -(2 ^ (n - 1) : Nat)) Flags.overflow

def fw (o : Operands) : Nat := o.f / 4 % 4
def fk (o : Operands) : Nat := o.f % 4
/-- F[4]: operand B is an immediate (R79). -/
def fimm (o : Operands) : Bool := o.f / 16 == 1

/-- The arithmetic slots whose value is a function of the two operands as integers. -/
def arithBody (unsigned : Nat → Bool) (e : Nat → Int → Int → Int) (o : Operands) : M Result :=
  let u := fw o == 3 || unsigned (fk o)
  let n := widthOf (fw o)
  let (y, f) := finishInt (fw o) (e (fk o) (readInt n u o.xa) (readInt n u (o.xbImm (fimm o))))
  return Result.ofX y f

/-- The logic slots and shifts: a pattern of the two operands. -/
def patternBody (p : Nat → Nat → Word → Word → Nat) (o : Operands) : M Result :=
  let (y, f) := finishInt (fw o) (p (widthOf (fw o)) (fk o) o.xa (o.xbImm (fimm o)))
  return Result.ofX y f

def addBody : Operands → M Result := arithBody (fun _ => false) addExact
def subBody : Operands → M Result := arithBody (fun _ => false) subExact
def andBody : Operands → M Result := patternBody (logicExact (· &&& ·))
def orBody : Operands → M Result := patternBody (logicExact (· ||| ·))
def xorBody : Operands → M Result := patternBody (logicExact (· ^^^ ·))
def shfBody : Operands → M Result := patternBody shiftExact
def mulBody : Operands → M Result :=
  arithBody (fun k => k == 2) fun k a b => if k = 0 then a * b else (a * b) / (2 ^ 64 : Nat)
def divBody (o : Operands) : M Result := do
  let k := fk o
  let n := widthOf (fw o)
  let a := readInt n (k % 2 == 1) o.xa
  let b := readInt n (k % 2 == 1) (o.xbImm (fimm o))
  let (y, _) := finishInt (fw o) (divExact (2 ≤ k) a b)
  return Result.ofX y (divFlags n k a b)
def mnxBody : Operands → M Result := arithBody (fun k => 2 ≤ k) fun k a b => if k % 2 = 0 then min a b else max a b

/-- ADD (R82). -/
def execAdd (w : Slot) (s : State) : Outcome := runSlot 0x08 w addBody s
/-- SUB (R82). -/
def execSub (w : Slot) (s : State) : Outcome := runSlot 0x09 w subBody s
/-- AND (R82). -/
def execAnd (w : Slot) (s : State) : Outcome := runSlot 0x0A w andBody s
/-- OR (R82). -/
def execOr (w : Slot) (s : State) : Outcome := runSlot 0x0B w orBody s
/-- XOR (R82). -/
def execXor (w : Slot) (s : State) : Outcome := runSlot 0x0C w xorBody s
/-- SHF (R82). -/
def execShf (w : Slot) (s : State) : Outcome := runSlot 0x0D w shfBody s
/-- MUL (R82). -/
def execMul (w : Slot) (s : State) : Outcome := runSlot 0x0E w mulBody s
/-- DIV (R83). -/
def execDiv (w : Slot) (s : State) : Outcome := runSlot 0x0F w divBody s
/-- MNX (R82). -/
def execMnx (w : Slot) (s : State) : Outcome := runSlot 0x10 w mnxBody s

/-! ### Compare and select (R84, R85) -/

def cmpHolds (c : Nat) (a b : Word) : Bool :=
  match c with
  | 0 => a == b
  | 1 => a != b
  | 2 => a.slt b
  | 3 => !a.slt b
  | 4 => a.ult b
  | 5 => !a.ult b
  | 6 => a &&& b != 0
  | _ => a &&& b == 0

/-- All 256 bits set to an outcome. -/
def predAll (c : Bool) : Pred := if c then BitVec.allOnes 256 else 0

def cmpBody (o : Operands) : M Result :=
  return Result.ofP (predAll (cmpHolds (o.f % 8) o.xa (o.xbImm o.lit.isSome)))

/-- CMP (R84). -/
def execCmp (w : Slot) (s : State) : Outcome := runSlot 0x11 w cmpBody s

def selBody (o : Operands) : M Result :=
  return Result.ofX (if (o.regs.getP (o.slot.f.setWidth 7)).getLsbD 0 then o.xa else o.xb)

/-- SEL (R85). -/
def execSel (w : Slot) (s : State) : Outcome := runSlot 0x14 w selBody s

/-! ### Moves (R86, R87, R89) -/

/-- IMM16, bits [15:0] of the slot. -/
def imm16 (w : Slot) : BitVec 16 := (w.a ++ w.b ++ w.f).setWidth 16

def moviValue (w : Slot) (lit : Option (BitVec 24)) : Word :=
  match lit with
  | none => (imm16 w).signExtend 64
  | some l => (l ++ imm16 w).signExtend 64

def moviBody (o : Operands) : M Result := return Result.ofX (moviValue o.slot o.lit)
/-- D[63:48] := IMM16; D[47:0] kept. -/
def moviTopBody (o : Operands) : M Result := return Result.ofX (imm16 o.slot ++ o.xd.extractLsb' 0 48)
/-- D[63:24] := LITERAL × 2^16 + IMM16; D[23:0] kept. -/
def moviUpperBody (o : Operands) : M Result :=
  return Result.ofX (o.lit.getD 0 ++ imm16 o.slot ++ o.xd.extractLsb' 0 24)

/-- MOVI (R86). -/
def execMovi (w : Slot) (s : State) : Outcome := runSlot 0x12 w moviBody s
/-- movi.top (R86). -/
def execMoviTop (w : Slot) (s : State) : Outcome := runSlot 0x12 w moviTopBody s
/-- movi.upper (R86). -/
def execMoviUpper (w : Slot) (s : State) : Outcome := runSlot 0x12 w moviUpperBody s

/-- A low field of A, extended (R87): F[1:0] 1 byte, 2 halfword, 3 word for sx; 0, 1, 2 for zx. -/
def extendField (sx : Bool) (n : Nat) (a : Word) : Word :=
  let v := a.toNat % 2 ^ n
  if sx then BitVec.ofInt 64 (signedOf n v) else BitVec.ofNat 64 v

def movxBody (o : Operands) : M Result := return Result.ofX o.xa
def movxSxBody (o : Operands) : M Result := return Result.ofX (extendField true (2 ^ (o.f + 2)) o.xa)
def movxZxBody (o : Operands) : M Result := return Result.ofX (extendField false (2 ^ (o.f - 1)) o.xa)
def movxVlaneBody (o : Operands) : M Result :=
  return Result.ofX (o.a.extractLsb' (64 * (o.xb.toNat % 32)) 64)
def movxIdxBody (o : Operands) : M Result := return Result.ofX ((o.regs.loopAt o.slot.b.toNat).index.setWidth 64)
def movxCntBody (o : Operands) : M Result := return Result.ofX ((o.regs.loopAt o.slot.b.toNat).count.setWidth 64)

/-- MOVX (R87). -/
def execMovx (w : Slot) (s : State) : Outcome := runSlot 0x13 w movxBody s
/-- movx.sxb, .sxh, .sxw (R87). -/
def execMovxSignExtend (w : Slot) (s : State) : Outcome := runSlot 0x13 w movxSxBody s
/-- movx.zxb, .zxh, .zxw (R87). -/
def execMovxZeroExtend (w : Slot) (s : State) : Outcome := runSlot 0x13 w movxZxBody s
/-- movx.vlane (R87). -/
def execMovxVlane (w : Slot) (s : State) : Outcome := runSlot 0x13 w movxVlaneBody s
/-- movx.idx (R89). -/
def execMovxIdx (w : Slot) (s : State) : Outcome := runSlot 0x13 w movxIdxBody s
/-- movx.cnt (R89). -/
def execMovxCnt (w : Slot) (s : State) : Outcome := runSlot 0x13 w movxCntBody s

/-! ### Conversions (R88) -/

/-- The dynamic rounding mode as the preceding bundles left it (R41). -/
def dynRound (o : Operands) : Rnd := Rnd.ofCode o.regs.round.toNat

/-- An integer to FP32 in the low half of D; the X engine records no flag here (R80). -/
def toFp32 (mode : Rnd) (i : Int) : Word := BitVec.ofNat 64 ((Val.ofInt i).round fp32 mode).1

/-- FP32 to an integer with bounds: NaN gives 0, the rest clamps, both raise integer saturation (R88). -/
def fromFp32 (lo hi : Int) (mode : Rnd) (a : Word) : Int × Flags :=
  let v := Val.read fp32 (a.toNat % 2 ^ 32)
  let (y, f) := cvtInt lo hi mode v
  (y, fixFlags v.isNan (f &&& Flags.saturation != 0))

def movxSifBody (o : Operands) : M Result := return Result.ofX (toFp32 (dynRound o) o.xa.toInt)
def movxUifBody (o : Operands) : M Result := return Result.ofX (toFp32 (dynRound o) o.xa.toNat)
def movxFsiBody (o : Operands) : M Result :=
  let (y, f) := fromFp32 (-(2 ^ 63 : Nat)) (2 ^ 63 - 1 : Nat) (dynRound o) o.xa
  return Result.ofX (BitVec.ofInt 64 y) f
def movxFuiBody (o : Operands) : M Result :=
  let (y, f) := fromFp32 0 (2 ^ 64 - 1 : Nat) (dynRound o) o.xa
  return Result.ofX (BitVec.ofInt 64 y) f

/-- movx.sif (R88). -/
def execMovxSif (w : Slot) (s : State) : Outcome := runSlot 0x13 w movxSifBody s
/-- movx.uif (R88). -/
def execMovxUif (w : Slot) (s : State) : Outcome := runSlot 0x13 w movxUifBody s
/-- movx.fsi (R88). -/
def execMovxFsi (w : Slot) (s : State) : Outcome := runSlot 0x13 w movxFsiBody s
/-- movx.fui (R88). -/
def execMovxFui (w : Slot) (s : State) : Outcome := runSlot 0x13 w movxFuiBody s

end Sys2Proof.Machine
end

