-- ==== Sys2Proof/Machine/Stream.lean ====
section
/-! DEFINITION. Stream descriptors: STRM and STRX (spec 05 R109, R110). -/

namespace Sys2Proof.Machine

/-- The stream that D[3:0] names. -/
def streamNum (w : Slot) : Fin 16 := Fin.ofNat 16 (w.d.toNat % 16)

def modStream (o : Operands) (f : Stream → Stream) : M Unit :=
  modSeq o.who fun q =>
    { q with now := { q.now with streams := q.now.streams.set (streamNum o.slot) (f (q.now.streams[streamNum o.slot])) } }

/-- A whole descriptor at once, its dimensions disabled (R109). -/
def strmBody (o : Operands) : M Result := do
  modStream o fun _ => { base := o.xa, space := o.slot.f.extractLsb' 3 2, zx := o.slot.f.getLsbD 2, esz := o.slot.f.extractLsb' 0 2 }
  return {}

/-- One dimension, after the range checks of stride and extent (R110). -/
def strxBody (o : Operands) : M Result := do
  let stride := o.xa.toInt
  raiseIf (stride < -(2 ^ 31 : Nat) || (2 ^ 31 : Nat) ≤ stride || 2 ^ 24 ≤ o.xb.toNat) 0x089
  let k : Fin 4 := Fin.ofNat 4 (o.f / 8)
  let d : Dim := { stride := o.xa.setWidth 32, extent := o.xb.setWidth 24, en := true, wrap := o.slot.d.getLsbD 4,
                   level := o.slot.f.extractLsb' 0 3 }
  modStream o fun st => { st with dims := st.dims.set k d }
  return {}

def strxOffBody (o : Operands) : M Result := do
  let k : Fin 4 := Fin.ofNat 4 (o.f / 8)
  modStream o fun st => { st with dims := st.dims.set k {} }
  return {}

/-- STRM (R109). -/
def execStrm (w : Slot) (s : State) : Outcome := runSlot 0x20 w strmBody s
/-- STRX (R110). -/
def execStrx (w : Slot) (s : State) : Outcome := runSlot 0x21 w strxBody s
/-- strx.off (R110). -/
def execStrxOff (w : Slot) (s : State) : Outcome := runSlot 0x21 w strxOffBody s

end Sys2Proof.Machine
end

