-- ==== Sys2Proof/Machine/Dispatch.lean ====
section
/-! DEFINITION. The one dispatch of the machine: every step's meaning, by its constructor. -/

namespace Sys2Proof.Machine

/-- The effect of one step of spec/opcode_table.json. -/
def exec (i : Instr) (s : State) : Host.Outcome State Fault Refusal :=
  match i with
  | .nop stop => Sys2Proof.Machine.execNop stop s
  | .lit literal => Sys2Proof.Machine.execLit literal s
  | .guard pred mask pol => Sys2Proof.Machine.execGuard pred mask pol s
  | .scope code => Sys2Proof.Machine.execScope code s
  | .add w => Sys2Proof.Machine.execAdd w s
  | .sub w => Sys2Proof.Machine.execSub w s
  | .and w => Sys2Proof.Machine.execAnd w s
  | .or w => Sys2Proof.Machine.execOr w s
  | .xor w => Sys2Proof.Machine.execXor w s
  | .shf w => Sys2Proof.Machine.execShf w s
  | .mul w => Sys2Proof.Machine.execMul w s
  | .div w => Sys2Proof.Machine.execDiv w s
  | .mnx w => Sys2Proof.Machine.execMnx w s
  | .cmp w => Sys2Proof.Machine.execCmp w s
  | .movi w => Sys2Proof.Machine.execMovi w s
  | .moviTop w => Sys2Proof.Machine.execMoviTop w s
  | .moviUpper w => Sys2Proof.Machine.execMoviUpper w s
  | .movx w => Sys2Proof.Machine.execMovx w s
  | .movxSignExtend w => Sys2Proof.Machine.execMovxSignExtend w s
  | .movxZeroExtend w => Sys2Proof.Machine.execMovxZeroExtend w s
  | .movxSif w => Sys2Proof.Machine.execMovxSif w s
  | .movxUif w => Sys2Proof.Machine.execMovxUif w s
  | .movxFsi w => Sys2Proof.Machine.execMovxFsi w s
  | .movxFui w => Sys2Proof.Machine.execMovxFui w s
  | .movxVlane w => Sys2Proof.Machine.execMovxVlane w s
  | .movxIdx w => Sys2Proof.Machine.execMovxIdx w s
  | .movxCnt w => Sys2Proof.Machine.execMovxCnt w s
  | .sel w => Sys2Proof.Machine.execSel w s
  | .br w => Sys2Proof.Machine.execBr w s
  | .brNot w => Sys2Proof.Machine.execBrNot w s
  | .jmp w => Sys2Proof.Machine.execJmp w s
  | .bru w => Sys2Proof.Machine.execBru w s
  | .loop w => Sys2Proof.Machine.execLoop w s
  | .loopN w => Sys2Proof.Machine.execLoopN w s
  | .next w => Sys2Proof.Machine.execNext w s
  | .svcCall w => Sys2Proof.Machine.execSvcCall w s
  | .svcTrap w => Sys2Proof.Machine.execSvcTrap w s
  | .svcTret w => Sys2Proof.Machine.execSvcTret w s
  | .halt w => Sys2Proof.Machine.execHalt w s
  | .haltFail w => Sys2Proof.Machine.execHaltFail w s
  | .csrr w => Sys2Proof.Machine.execCsrr w s
  | .csrw w => Sys2Proof.Machine.execCsrw w s
  | .strm w => Sys2Proof.Machine.execStrm w s
  | .strx w => Sys2Proof.Machine.execStrx w s
  | .strxOff w => Sys2Proof.Machine.execStrxOff w s
  | .ld w => Sys2Proof.Machine.execLd w s
  | .ldQe w => Sys2Proof.Machine.execLdQe w s
  | .st w => Sys2Proof.Machine.execSt w s
  | .stQe w => Sys2Proof.Machine.execStQe w s
  | .vld w => Sys2Proof.Machine.execVld w s
  | .vst w => Sys2Proof.Machine.execVst w s
  | .gath w => Sys2Proof.Machine.execGath w s
  | .amo w => Sys2Proof.Machine.execAmo w s
  | .mon w => Sys2Proof.Machine.execMon w s
  | .mwt w => Sys2Proof.Machine.execMwt w s
  | .mwtWake who => Sys2Proof.Machine.execMwtWake who s
  | .mwtLimit who => Sys2Proof.Machine.execMwtLimit who s
  | .fence w => Sys2Proof.Machine.execFence w s
  | .preq w => Sys2Proof.Machine.execPreq w s
  | .preqW w => Sys2Proof.Machine.execPreqW w s
  | .preqWComplete who => Sys2Proof.Machine.execPreqWComplete who s
  | .qpsh w => Sys2Proof.Machine.execQpsh w s
  | .qpshV w => Sys2Proof.Machine.execQpshV w s
  | .qpop w => Sys2Proof.Machine.execQpop w s
  | .qpopV w => Sys2Proof.Machine.execQpopV w s
  | .queueOpWake who => Sys2Proof.Machine.execQueueOpWake who s
  | .queueWaitLimit who => Sys2Proof.Machine.execQueueWaitLimit who s
  | .pref w => Sys2Proof.Machine.execPref w s
  | .vadd w => Sys2Proof.Machine.execVadd w s
  | .vsub w => Sys2Proof.Machine.execVsub w s
  | .vmul w => Sys2Proof.Machine.execVmul w s
  | .vfma w => Sys2Proof.Machine.execVfma w s
  | .vmnx w => Sys2Proof.Machine.execVmnx w s
  | .vlog w => Sys2Proof.Machine.execVlog w s
  | .vlogP w => Sys2Proof.Machine.execVlogP w s
  | .vshf w => Sys2Proof.Machine.execVshf w s
  | .vcvt w => Sys2Proof.Machine.execVcvt w s
  | .vred w => Sys2Proof.Machine.execVred w s
  | .vexp w => Sys2Proof.Machine.execVexp w s
  | .vrcp w => Sys2Proof.Machine.execVrcp w s
  | .vrsq w => Sys2Proof.Machine.execVrsq w s
  | .vsqrt w => Sys2Proof.Machine.execVsqrt w s
  | .vcmp w => Sys2Proof.Machine.execVcmp w s
  | .vsel w => Sys2Proof.Machine.execVsel w s
  | .vprm w => Sys2Proof.Machine.execVprm w s
  | .vbrd w => Sys2Proof.Machine.execVbrd w s
  | .vbrdImm w => Sys2Proof.Machine.execVbrdImm w s
  | .vsca w => Sys2Proof.Machine.execVsca w s
  | .vqnt w => Sys2Proof.Machine.execVqnt w s
  | .vmps w => Sys2Proof.Machine.execVmps w s
  | .vmiv w => Sys2Proof.Machine.execVmiv w s
  | .vmpp w => Sys2Proof.Machine.execVmpp w s
  | .vmov w => Sys2Proof.Machine.execVmov w s
  | .vmovFp w => Sys2Proof.Machine.execVmovFp w s
  | .vmovTp w => Sys2Proof.Machine.execVmovTp w s
  | .vmovExp w => Sys2Proof.Machine.execVmovExp w s
  | .vmovIns w => Sys2Proof.Machine.execVmovIns w s
  | .viot w => Sys2Proof.Machine.execViot w s
  | .vrmx w => Sys2Proof.Machine.execVrmx w s
  | .mmv8 w => Sys2Proof.Machine.execMmv8 w s
  | .mmv4 w => Sys2Proof.Machine.execMmv4 w s
  | .mmv2 w => Sys2Proof.Machine.execMmv2 w s
  | .mmvb w => Sys2Proof.Machine.execMmvb w s
  | .mwld w => Sys2Proof.Machine.execMwld w s
  | .weightLoadComplete core => Sys2Proof.Machine.execWeightLoadComplete core s
  | .mwsl w => Sys2Proof.Machine.execMwsl w s
  | .mwup w => Sys2Proof.Machine.execMwup w s
  | .mcalW w => Sys2Proof.Machine.execMcalW w s
  | .mcalInv w => Sys2Proof.Machine.execMcalInv w s
  | .mcalR w => Sys2Proof.Machine.execMcalR w s
  | .msmpSet w => Sys2Proof.Machine.execMsmpSet w s
  | .msmpRd w => Sys2Proof.Machine.execMsmpRd w s
  | .gleanerCheck core mac => Sys2Proof.Machine.execGleanerCheck core mac s
  | .macrV w => Sys2Proof.Machine.execMacrV w s
  | .macrB w => Sys2Proof.Machine.execMacrB w s
  | .macrP w => Sys2Proof.Machine.execMacrP w s
  | .macwV w => Sys2Proof.Machine.execMacwV w s
  | .macwP w => Sys2Proof.Machine.execMacwP w s
  | .macsZ w => Sys2Proof.Machine.execMacsZ w s
  | .macsS w => Sys2Proof.Machine.execMacsS w s
  | .macsV w => Sys2Proof.Machine.execMacsV w s
  | .copy w => Sys2Proof.Machine.execCopy w s
  | .mcst w => Sys2Proof.Machine.execMcst w s
  | .copyTransferComplete who channel => Sys2Proof.Machine.execCopyTransferComplete who channel s
  | .copyTransferFailure who channel => Sys2Proof.Machine.execCopyTransferFailure who channel s
  | .get w => Sys2Proof.Machine.execGet w s
  | .put w => Sys2Proof.Machine.execPut w s
  | .job w => Sys2Proof.Machine.execJob w s
  | .jobSubmissionWaitLimit who => Sys2Proof.Machine.execJobSubmissionWaitLimit who s
  | .wptrP w => Sys2Proof.Machine.execWptrP w s
  | .wptrS w => Sys2Proof.Machine.execWptrS w s
  | .wptrT w => Sys2Proof.Machine.execWptrT w s
  | .ksyn w => Sys2Proof.Machine.execKsyn w s
  | .ksynComplete who => Sys2Proof.Machine.execKsynComplete who s
  | .rvin w => Sys2Proof.Machine.execRvin w s
  | .rvinB w => Sys2Proof.Machine.execRvinB w s
  | .rvinRd w => Sys2Proof.Machine.execRvinRd w s
  | .arv w => Sys2Proof.Machine.execArv w s
  | .arvOne w => Sys2Proof.Machine.execArvOne w s
  | .rvwt w => Sys2Proof.Machine.execRvwt w s
  | .rvwtComplete who => Sys2Proof.Machine.execRvwtComplete who s
  | .rendezvousWaitLimit who => Sys2Proof.Machine.execRendezvousWaitLimit who s
  | .give w => Sys2Proof.Machine.execGive w s
  | .drainComplete who => Sys2Proof.Machine.execDrainComplete who s
  | .bmapAlloc w => Sys2Proof.Machine.execBmapAlloc w s
  | .bmapAllocz w => Sys2Proof.Machine.execBmapAllocz w s
  | .bmapFree w => Sys2Proof.Machine.execBmapFree w s
  | .bmapShare w => Sys2Proof.Machine.execBmapShare w s
  | .bmapRd w => Sys2Proof.Machine.execBmapRd w s
  | .send w => Sys2Proof.Machine.execSend w s
  | .sendFlitInjection core => Sys2Proof.Machine.execSendFlitInjection core s
  | .messageQueueArrival cluster queue => Sys2Proof.Machine.execMessageQueueArrival cluster queue s
  | .messageSendWaitLimit who => Sys2Proof.Machine.execMessageSendWaitLimit who s
  | .recv w => Sys2Proof.Machine.execRecv w s
  | .recvWake who => Sys2Proof.Machine.execRecvWake who s
  | .messageReceiveWaitLimit who => Sys2Proof.Machine.execMessageReceiveWaitLimit who s
  | .mprb w => Sys2Proof.Machine.execMprb w s
  | .task w => Sys2Proof.Machine.execTask w s
  | .taskSubmissionWaitLimit who => Sys2Proof.Machine.execTaskSubmissionWaitLimit who s
  | .tableRoomGrant die => Sys2Proof.Machine.execTableRoomGrant die s
  | .timeNow w => Sys2Proof.Machine.execTimeNow w s
  | .timeUntil w => Sys2Proof.Machine.execTimeUntil w s
  | .timeUntilReached who => Sys2Proof.Machine.execTimeUntilReached who s
  | .yld w => Sys2Proof.Machine.execYld w s
  | .yldWake who => Sys2Proof.Machine.execYldWake who s
  | .yldCyclesPassed who => Sys2Proof.Machine.execYldCyclesPassed who s
  | .hlth w => Sys2Proof.Machine.execHlth w s
  | .rankHaltComplete who => Sys2Proof.Machine.execRankHaltComplete who s
  | .cribLowering who lowering => Sys2Proof.Machine.execCribLowering who lowering s
  | .taskPlacement die => Sys2Proof.Machine.execTaskPlacement die s
  | .teamStart die serial => Sys2Proof.Machine.execTeamStart die serial s
  | .agingIntervalExpiry die graph => Sys2Proof.Machine.execAgingIntervalExpiry die graph s
  | .softPreemption die graph => Sys2Proof.Machine.execSoftPreemption die graph s
  | .hardPreemptionSave die serial => Sys2Proof.Machine.execHardPreemptionSave die serial s
  | .taskResume die serial => Sys2Proof.Machine.execTaskResume die serial s
  | .parkedBinEviction die serial handle => Sys2Proof.Machine.execParkedBinEviction die serial handle s
  | .completionRecordWrite die serial => Sys2Proof.Machine.execCompletionRecordWrite die serial s
  | .dieCopyCard die serial => Sys2Proof.Machine.execDieCopyCard die serial s
  | .collectiveSumFp32 die serial => Sys2Proof.Machine.execCollectiveSumFp32 die serial s
  | .collectiveSumBf16 die serial => Sys2Proof.Machine.execCollectiveSumBf16 die serial s
  | .collectiveMax die serial => Sys2Proof.Machine.execCollectiveMax die serial s
  | .collectiveMin die serial => Sys2Proof.Machine.execCollectiveMin die serial s
  | .collectiveSumInt32 die serial => Sys2Proof.Machine.execCollectiveSumInt32 die serial s
  | .collectiveBroadcast die serial => Sys2Proof.Machine.execCollectiveBroadcast die serial s
  | .collectiveWaitLimit die serial => Sys2Proof.Machine.execCollectiveWaitLimit die serial s
  | .bankmac die serial parity => Sys2Proof.Machine.execBankmac die serial parity s
  | .attn die serial parity => Sys2Proof.Machine.execAttn die serial parity s
  | .rowzero die serial parity => Sys2Proof.Machine.execRowzero die serial parity s
  | .rowcopy die serial parity => Sys2Proof.Machine.execRowcopy die serial parity s
  | .migrationMove die serial => Sys2Proof.Machine.execMigrationMove die serial s
  | .migrationEvict die serial => Sys2Proof.Machine.execMigrationEvict die serial s
  | .migrationFetch die serial => Sys2Proof.Machine.execMigrationFetch die serial s
  | .migrationCompress die serial => Sys2Proof.Machine.execMigrationCompress die serial s
  | .migrationExpand die serial => Sys2Proof.Machine.execMigrationExpand die serial s
  | .residencyRequestService die host => Sys2Proof.Machine.execResidencyRequestService die host s
  | .computePhaseStart pc => Sys2Proof.Machine.execComputePhaseStart pc s
  | .computePhaseYield pc => Sys2Proof.Machine.execComputePhaseYield pc s
  | .normalPhaseEnd pc => Sys2Proof.Machine.execNormalPhaseEnd pc s
  | .powerStateRequest pc deep => Sys2Proof.Machine.execPowerStateRequest pc deep s
  | .powerStateExit pc spillLost => Sys2Proof.Machine.execPowerStateExit pc spillLost s
  | .coreWritePathDrain core => Sys2Proof.Machine.execCoreWritePathDrain core s
  | .clusterCacheWriteDrain cluster => Sys2Proof.Machine.execClusterCacheWriteDrain cluster s
  | .clusterCacheCopyDrop cluster => Sys2Proof.Machine.execClusterCacheCopyDrop cluster s
  | .networkRequestTimeout who => Sys2Proof.Machine.execNetworkRequestTimeout who s
  | .fabricRequestTimeout who => Sys2Proof.Machine.execFabricRequestTimeout who s
  | .patrolRead die line found => Sys2Proof.Machine.execPatrolRead die line found s
  | .rowSparing row => Sys2Proof.Machine.execRowSparing row s
  | .macroRecalibration core mac => Sys2Proof.Machine.execMacroRecalibration core mac s
  | .macroRetirement core mac => Sys2Proof.Machine.execMacroRetirement core mac s
  | .coreRetirement core => Sys2Proof.Machine.execCoreRetirement core s
  | .binRetirement cluster bin => Sys2Proof.Machine.execBinRetirement cluster bin s
  | .routerFailure router routes => Sys2Proof.Machine.execRouterFailure router routes s
  | .laneFailure link lane => Sys2Proof.Machine.execLaneFailure link lane s
  | .linkRetrainComplete link => Sys2Proof.Machine.execLinkRetrainComplete link s
  | .routingTableRewrite routes => Sys2Proof.Machine.execRoutingTableRewrite routes s
  | .healthRingWrite => Sys2Proof.Machine.execHealthRingWrite s
  | .stampRateCorrection ppm inSync => Sys2Proof.Machine.execStampRateCorrection ppm inSync s
  | .thermalThrottle => Sys2Proof.Machine.execThermalThrottle s
  | .thermalStop => Sys2Proof.Machine.execThermalStop s
  | .dvfsChange millivolts cap => Sys2Proof.Machine.execDvfsChange millivolts cap s
  | .powerUp => Sys2Proof.Machine.execPowerUp s
  | .bootctlWrite length => Sys2Proof.Machine.execBootctlWrite length s
  | .imageVerification => Sys2Proof.Machine.execImageVerification s
  | .sirxonBringUp plan => Sys2Proof.Machine.execSirxonBringUp plan s
  | .qnotifyWrite queue tail => Sys2Proof.Machine.execQnotifyWrite queue tail s
  | .hrctlWrite value => Sys2Proof.Machine.execHrctlWrite value s
  | .hrheadWrite value => Sys2Proof.Machine.execHrheadWrite value s
  | .bar0RegisterWrite offset value => Sys2Proof.Machine.execBar0RegisterWrite offset value s
  | .hostBar2Read offset length => Sys2Proof.Machine.execHostBar2Read offset length s
  | .hostBar2Write offset data => Sys2Proof.Machine.execHostBar2Write offset data s
  | .hostJobCardEntry queue => Sys2Proof.Machine.execHostJobCardEntry queue s
  | .hostTaskEntry queue => Sys2Proof.Machine.execHostTaskEntry queue s
  | .load queue => Sys2Proof.Machine.execLoad queue s
  | .unload queue => Sys2Proof.Machine.execUnload queue s
  | .unloadComplete die slot => Sys2Proof.Machine.execUnloadComplete die slot s
  | .map queue => Sys2Proof.Machine.execMap queue s
  | .cribInvalidate queue => Sys2Proof.Machine.execCribInvalidate queue s
  | .attest queue => Sys2Proof.Machine.execAttest queue s
  | .checkpoint queue => Sys2Proof.Machine.execCheckpoint queue s
  | .restore queue => Sys2Proof.Machine.execRestore queue s
  | .entryInvalid queue => Sys2Proof.Machine.execEntryInvalid queue s
  | .placementCoreReservation die => Sys2Proof.Machine.execPlacementCoreReservation die s
  | .flitReplay link => Sys2Proof.Machine.execFlitReplay link s

end Sys2Proof.Machine
end

