-- ==== Sys2Proof/Machine/Step.lean ====
section
/-! DEFINITION. The one step of the part, and the placing of a word where the next step fetches it. -/

namespace Sys2Proof.Machine

/-- The sequencer in focus runs its next slot, if it issues, its block lowered first (R308); a bundle that needs a sealed word
that cannot be read traps (R315); a sequencer that waits for its trap frame tries again (R285). -/
def runFocus (s : State) : Host.Outcome State Fault Refusal :=
  match s.wordsLost s.focus, s.nextSlot s.focus with
  | some code, _ => .next (s.unreadable s.focus code)
  | none, .idle => .next (s.retryFrame s.focus)
  | none, .instr i => exec i (s.lowered s.focus)
  | none, .fault f => .fault f

/-- One entry of the agenda. -/
def act (a : Action) (s : State) : Host.Outcome State Fault Refusal :=
  match a with
  | .event i => exec i s
  | .issue c => runFocus (s.focusOn c)
  | .elapse cycles ns => .next (s.elapse cycles ns)
  | .deliver who ch n => .next (s.deliverSome who ch n)
  | .contribute m => .next { s with contributions := s.contributions ++ [m] }
  | .remoteRequest r => .next (s.remoteArrives r)
  | .transit link pkg hops cls source sequence => .next (s.transit link pkg hops cls source sequence)
  | .flitError link => .next (s.flitError link)
  | .registerRead offset => .next (s.registerRead offset)
  | .relaxNotify => .next s.relaxNotify
  | .serveWaiting => .next s.serveWaiting
  | .hostStore a l => .next (s.putBytes (.host a) l)
  | .remoteStore pkg agent va l => .next (s.remoteStore pkg agent va l)
  | .remoteLoad pkg agent va => .next (s.remoteLoad pkg agent va)
  | .remoteFault p c => .next (s.setRemoteFault p c)
  | .remoteMove p => .next (s.remoteMove p)
  | .remoteRefusal p => .next (s.remoteRefusal p)
  | .silence p off => .next (s.setSilent p off)
  | .lineError die line found source va => .next (s.lineError die line found source va)
  | .binError c unit found => .next (s.modCluster c fun k => k.unitError unit found)
  | .copyParity c line => .next (s.modCluster c fun k => k.parityError line)
  | .queueError c index => .next (s.modCluster c fun k => k.spoil index)
  | .setAging ns => .next (s.setAging ns)
  | .sirxonReason => .next (s.setReason 6)
  | .sirxonMerge die off big => .next (s.merge die off big)
  | .unitParity pc => .next (s.unitParity pc)
  | .cribError die n => .next (s.cribError die n)
  | .sirxonInvalidate die slot => .next (s.sirxonInvalidate die slot)

/-- One step: the head of the agenda moves; with no agenda the sequencer in focus runs on and time passes. -/
def step (s : State) : Host.Outcome State Fault Refusal :=
  match s.agenda with
  | a :: rest => act a { s with agenda := rest }
  | [] => tickOutcome (runFocus s)

/-- s with one slot word placed as the whole code body that sequencer 0 of core 0 is about to run: in a task image, or in
the trap service image for a slot that only such an image may hold (log entry 12). -/
def State.withFetchWord (s : State) (nbits w : Nat) : State :=
  s.placeWord (BitVec.ofNat 32 (w % 2 ^ nbits))

end Sys2Proof.Machine
end

