-- ==== Sys2Proof/WellFormed.lean ====
section
/-! DEFINITION. Well-formed syntax: a prefix obeys its layout, an engine slot fits its row of spec/opcode_table.json and breaks
no check code of a single slot. -/

namespace Sys2Proof

/-- Does a constructor's row of spec/opcode_table.json hold for its F, and for MOVI's HI and literal? The rows that
overlap are told apart here: movx before movx.sx, ld and st before their queue-space forms, movi.top and movi.upper by
the literal (R86). -/
def Instr.rowOk (lit : Bool) : Instr → Bool
  | .movi w => !w.a.msb
  | .moviTop w => w.a.msb && !lit
  | .moviUpper w => w.a.msb && lit
  | .movx w => w.f == 0
  | .movxSignExtend w => w.f &&& 0x1c == 0 && w.f ≠ 0
  | .movxZeroExtend w => w.f &&& 0x1c == 4
  | .movxSif w => w.f == 8
  | .movxUif w => w.f == 9
  | .movxFsi w => w.f == 10
  | .movxFui w => w.f == 11
  | .movxVlane w => w.f == 16
  | .movxIdx w => w.f == 17
  | .movxCnt w => w.f == 18
  | .br w => w.f &&& 0x10 == 0
  | .brNot w => w.f &&& 0x10 == 16
  | .loop w => w.f == 0
  | .loopN w => w.f == 16
  | .svcCall w => w.f == 0
  | .svcTrap w => w.f == 1
  | .svcTret w => w.f == 2
  | .halt w => w.f == 0
  | .haltFail w => w.f == 1
  | .strx w => w.f &&& 7 ≠ 7
  | .strxOff w => w.f &&& 0x7 == 7
  | .ld w => w.f ≠ 30
  | .ldQe w => w.f == 30
  | .st w => w.f ≠ 30
  | .stQe w => w.f == 30
  | .preq w => w.f == 0
  | .preqW w => w.f == 1
  | .qpsh w => w.f == 0
  | .qpshV w => w.f == 1
  | .qpop w => w.f == 0
  | .qpopV w => w.f == 1
  | .vlog w => w.f &&& 0x18 == 0
  | .vlogP w => w.f &&& 0x10 == 16
  | .vrsq w => w.f &&& 0x3 == 0
  | .vsqrt w => w.f &&& 0x3 == 1
  | .vbrd w => w.f &&& 0x1c == 0
  | .vbrdImm w => w.f &&& 0x1c == 4
  | .vmov w => w.f == 0
  | .vmovFp w => w.f &&& 0x1c == 4
  | .vmovTp w => w.f &&& 0x1c == 8
  | .vmovExp w => w.f &&& 0x1c == 12
  | .vmovIns w => w.f == 16
  | .mcalW w => w.f == 0
  | .mcalInv w => w.f == 1
  | .mcalR w => w.f == 2
  | .msmpSet w => w.f == 0
  | .msmpRd w => w.f == 1
  | .macrV w => w.f == 0
  | .macrB w => w.f == 1
  | .macrP w => w.f == 2
  | .macwV w => w.f &&& 0xf == 0
  | .macwP w => w.f &&& 0xf == 2
  | .macsZ w => w.f &&& 0xf == 0
  | .macsS w => w.f &&& 0xf == 1
  | .macsV w => w.f &&& 0xf == 2
  | .wptrP w => w.f &&& 0x1c == 0
  | .wptrS w => w.f &&& 0x1c == 4
  | .wptrT w => w.f &&& 0x1c == 8
  | .rvin w => w.f == 0
  | .rvinB w => w.f == 1
  | .rvinRd w => w.f == 2
  | .arv w => w.f == 0
  | .arvOne w => w.f == 1
  | .bmapAlloc w => w.f == 0
  | .bmapAllocz w => w.f == 1
  | .bmapFree w => w.f == 2
  | .bmapShare w => w.f == 3
  | .bmapRd w => w.f == 4
  | .timeNow w => w.f == 0
  | .timeUntil w => w.f == 1
  | _ => true

/-- A step's syntax is well formed: a prefix obeys R60, R63 and R65; an engine slot fits its row and breaks no check
code of a single slot; an event has no words and is always well formed. -/
def Instr.wellFormed (lit : Option (BitVec 24)) (i : Instr) : Bool :=
  match i with
  | .guard _ mask _ => mask ≠ 0
  | .scope code => code.toNat < 6
  | _ =>
    match i.slot? with
    | none => true
    | some (op, w) => i.rowOk lit.isSome && (slotChecks op w lit).isEmpty

end Sys2Proof
end

