-- ==== Sys2Proof/Machine/Shape.lean ====
section
/-! DEFINITION. The shape that the statements about slots share: when a slot stands to be performed, what it reads, and the
state that its result leaves (spec 03 R54, R64, R66, R68, spec 09 R211). -/

namespace Sys2Proof.Machine

/-- The sequencer in focus. -/
def State.cur (s : State) : Seq := s.seq s.focus

/-- The literal before its next slot (R62). -/
def State.curLit (s : State) : Option (BitVec 24) := s.cur.bundle.lit

/-- A slot word of an opcode stands to be performed by the sequencer in focus: in no replay, above no trapping slot (R211),
not guarded false (R64), and as a sealed image of the sequencer's kind may hold it (R5, R71). -/
structure Performs (op : BitVec 7) (w : Slot) (fm : Form) (s : State) : Prop where
  noReplay : s.cur.bundle.replay = none
  noTrap : s.cur.bundle.trap = none
  holds : s.cur.bundle.guardedFalse = false
  sealed : slotChecks op w s.curLit = []
  kind : imageKindChecks (s.cur.phase = .service) op w = []
  hasForm : form op w s.curLit.isSome = some fm

/-- Its operands can be read, as o; s' is the state that their reading leaves (a stream port reads memory, R107). -/
def Reads (w : Slot) (fm : Form) (s : State) (o : Operands) (s' : State) : Prop :=
  (readOperands s.focus fm w s.curLit).on (s.openBundle s.focus) = (.ok o, s')

/-- A result takes effect and the slot is over. -/
def State.performed (s : State) (who : SeqId) (w : Slot) (o : Operands) (r : Result) : State :=
  (s.setSeq who ((s.seq who).commit o r)).slotDone who w

/-- The constructor is the one that the word's F names among the rows of its opcode. -/
def Fits (mk : Slot → Instr) (w : Slot) (s : State) : Prop := (mk w).rowOk s.curLit.isSome = true

/-- The instruction completes, for every word and state that meet the conditions, with the result val and no other effect
than its operands' reading had. -/
def Yields (mk : Slot → Instr) (op : BitVec 7) (val : Slot → Operands → Result) : Prop :=
  ∀ (s : State) (w : Slot) (fm : Form) (o : Operands) (s' : State), Fits mk w s → Performs op w fm s → Reads w fm s o s' →
    exec (mk w) s = .next (s'.performed s.focus w o (val w o))

/-- The instruction completes wherever a relation between the state after its operands' reading and the state before its
result's commit holds: the relation says the conditions and the effect. -/
def Completes (mk : Slot → Instr) (op : BitVec 7) (effect : Slot → Operands → State → State → Result → Prop) : Prop :=
  ∀ (s : State) (w : Slot) (fm : Form) (o : Operands) (s' s2 : State) (r : Result), Fits mk w s → Performs op w fm s →
    Reads w fm s o s' → effect w o s' s2 r → exec (mk w) s = .next (s2.performed s.focus w o r)

/-- The instruction completes wherever a condition on its operands and the state after their reading holds, in a state and
with a result of which a property holds. -/
def CompletesWith (mk : Slot → Instr) (op : BitVec 7) (pre : Slot → Operands → State → Prop)
    (post : Slot → Operands → State → State → Result → Prop) : Prop :=
  ∀ (s : State) (w : Slot) (fm : Form) (o : Operands) (s' : State), Fits mk w s → Performs op w fm s → Reads w fm s o s' →
    pre w o s' →
    ∃ (s2 : State) (r : Result), exec (mk w) s = .next (s2.performed s.focus w o r) ∧ post w o s' s2 r

/-- The slot raises a cause wherever a relation holds, and the bundle traps at it (R210, R211): the trapping slot is recorded
with its entry, and the slots above it follow. -/
def Traps (mk : Slot → Instr) (op : BitVec 7)
    (when_ : Slot → Operands → State → State → Nat → Word → BitVec 16 → Prop) : Prop :=
  ∀ (s : State) (w : Slot) (fm : Form) (o : Operands) (s' s2 : State) (code : Nat) (addr : Word) (detail : BitVec 16),
    Fits mk w s → Performs op w fm s → Reads w fm s o s' → when_ w o s' s2 code addr detail → (s2.seq s.focus).bundle.replay = none →
    exec (mk w) s = .next ((s2.trapSlot s.focus op fm w s.curLit (BitVec.ofNat 10 code) addr detail).finishSlot s.focus w.stop)

/-- The slot waits in its bundle wherever a relation holds, with its operands as read at issue (R121 and its fellows). -/
def Waits (mk : Slot → Instr) (op : BitVec 7) (when_ : Slot → Operands → State → State → WaitKind → Word → Prop) : Prop :=
  ∀ (s : State) (w : Slot) (fm : Form) (o : Operands) (s' s2 : State) (k : WaitKind) (addr : Word),
    Fits mk w s → Performs op w fm s → Reads w fm s o s' → when_ w o s' s2 k addr →
    exec (mk w) s = .next (s2.setWait s.focus k addr op o)

end Sys2Proof.Machine
end

