-- ==== Sys2Proof/Certificates/Slice0/Obligations.lean ====
section
/-! DEFINITION. The statements about the model, and before them the spec's own formulas in which they are said. -/

namespace Sys2Proof.Statements

open Sys2Proof.Machine

/-! ### X engine formulas (R79 to R89) -/

/-- Operand B of an X slot: an immediate where the form says so (R79). -/
def operandB (w : Slot) (o : Operands) (imm : Bool) : Word :=
  if imm then
    match o.lit with
    | none => w.b.setWidth 64
    | some l => (l ++ w.b).signExtend 64
  else o.xb

/-- F[4], F[3:2] and F[1:0] of an arithmetic slot. -/
def immF (w : Slot) : Bool := w.f.getLsbD 4
def widthF (w : Slot) : BitVec 2 := w.f.extractLsb' 2 2
def kindF (w : Slot) : BitVec 2 := w.f.extractLsb' 0 2

/-- A result clamped to a range; integer saturation (CAUSE bit 5) when it was outside. -/
def clamped (lo hi e : Int) : Result :=
  Result.ofX (BitVec.ofInt 64 (max lo (min hi e))) (if lo ≤ e ∧ e ≤ hi then 0 else 0x0020)

/-- The four widths of R82: wrapped, of 32 bits, signed saturating, unsigned saturating. -/
def arith (w : Slot) (o : Operands) (wrapped : Word → Word → Word) (low : BitVec 32 → BitVec 32 → BitVec 32)
    (exact : Int → Int → Int) : Result :=
  let a := o.xa
  let b := operandB w o (immF w)
  match (widthF w).toNat with
  | 0 => Result.ofX (wrapped a b)
  | 1 => Result.ofX ((low (a.setWidth 32) (b.setWidth 32)).signExtend 64)
  | 2 => clamped (-(2 ^ 63)) (2 ^ 63 - 1) (exact a.toInt b.toInt)
  | _ => clamped 0 (2 ^ 64 - 1) (exact (a.toNat : Int) (b.toNat : Int))

def addResult (w : Slot) (o : Operands) : Result :=
  let k := (kindF w).toNat
  arith w o (fun a b => a + b <<< k) (fun a b => a + b <<< k) (fun a b => a + b * 2 ^ k)

def subResult (w : Slot) (o : Operands) : Result :=
  if kindF w = 0 then arith w o (fun a b => a - b) (fun a b => a - b) (fun a b => a - b)
  else arith w o (fun a b => b - a) (fun a b => b - a) (fun a b => b - a)

/-- B of a logic slot, inverted for kind 1. -/
def logicResult (op64 : Word → Word → Word) (op32 : BitVec 32 → BitVec 32 → BitVec 32) (w : Slot) (o : Operands) : Result :=
  if kindF w = 1 then arith w o (fun a b => op64 a (~~~b)) (fun a b => op32 a (~~~b)) (fun a _ => a)
  else arith w o op64 op32 (fun a _ => a)

def shiftBy {n : Nat} (kind : Nat) (a : BitVec n) (k : Nat) : BitVec n :=
  match kind with
  | 0 => a <<< k
  | 1 => a >>> k
  | 2 => a.sshiftRight k
  | _ => a.rotateRight k

def shfResult (w : Slot) (o : Operands) : Result :=
  let k := (kindF w).toNat
  arith w o (fun a b => shiftBy k a (b.toNat % 64)) (fun a b => shiftBy k a (b.toNat % 32)) (fun a _ => a)

def mulResult (w : Slot) (o : Operands) : Result :=
  let a := o.xa
  let b := operandB w o (immF w)
  match (kindF w).toNat with
  | 0 => arith w o (fun a b => a * b) (fun a b => a * b) (fun a b => a * b)
  | 1 => Result.ofX (BitVec.ofInt 64 (a.toInt * b.toInt / 2 ^ 64))
  | _ => Result.ofX (BitVec.ofNat 64 (a.toNat * b.toNat / 2 ^ 64))

/-- Quotients and remainders of n-bit patterns; a zero divisor gives 0 and the dividend (R83). -/
def divide {n : Nat} (kind : Nat) (a b : BitVec n) : BitVec n :=
  match kind with
  | 0 => a.sdiv b
  | 1 => a.udiv b
  | 2 => a.srem b
  | _ => a.umod b

/-- CAUSE bits of DIV: 1 for a zero divisor, 2 for the one quotient that does not fit. -/
def divCause {n : Nat} (kind : Nat) (a b : BitVec n) : Flags :=
  if b = 0 then 0x0002 else if kind = 0 ∧ a = BitVec.intMin n ∧ b = BitVec.allOnes n then 0x0004 else 0

def divResult (w : Slot) (o : Operands) : Result :=
  let k := (kindF w).toNat
  let a := o.xa
  let b := operandB w o (immF w)
  let a32 : BitVec 32 := a.setWidth 32
  let b32 : BitVec 32 := b.setWidth 32
  if widthF w = 0 then Result.ofX (divide k a b) (divCause k a b)
  else Result.ofX ((divide k a32 b32).signExtend 64) (divCause k a32 b32)

/-- The smaller or larger of two patterns, signed or unsigned. -/
def pick {n : Nat} (kind : Nat) (a b : BitVec n) : BitVec n :=
  match kind with
  | 0 => if a.slt b then a else b
  | 1 => if a.slt b then b else a
  | 2 => if a.ult b then a else b
  | _ => if a.ult b then b else a

def mnxResult (w : Slot) (o : Operands) : Result :=
  let k := (kindF w).toNat
  arith w o (pick k) (pick k) (fun a _ => a)

/-- The eight conditions of R84. -/
def condition (c : Nat) (a b : Word) : Bool :=
  match c with
  | 0 => decide (a = b)
  | 1 => decide (a ≠ b)
  | 2 => a.slt b
  | 3 => b.sle a
  | 4 => a.ult b
  | 5 => b.ule a
  | 6 => decide (a &&& b ≠ 0)
  | _ => decide (a &&& b = 0)

def cmpResult (w : Slot) (o : Operands) : Result :=
  if condition (w.f.toNat % 8) o.xa (operandB w o o.lit.isSome) then Result.ofP (BitVec.allOnes 256) else Result.ofP 0

/-- p[F] (R85). -/
def selResult (w : Slot) (o : Operands) : Result :=
  if (o.regs.getP (0#2 ++ w.f)).getLsbD 0 then Result.ofX o.xa else Result.ofX o.xb

/-- Bits [15:0] of the slot (R86). -/
def imm16Of (w : Slot) : BitVec 16 := ((w.word 0).extractLsb' 0 16)

def moviResult (w : Slot) (o : Operands) : Result :=
  match o.lit with
  | none => Result.ofX ((imm16Of w).signExtend 64)
  | some l => Result.ofX ((l ++ imm16Of w).signExtend 64)
def moviTopResult (w : Slot) (o : Operands) : Result := Result.ofX (imm16Of w ++ o.xd.extractLsb' 0 48)
def moviUpperResult (w : Slot) (o : Operands) : Result := Result.ofX (o.lit.getD 0 ++ imm16Of w ++ o.xd.extractLsb' 0 24)

def movxSxResult (w : Slot) (o : Operands) : Result :=
  match w.f.toNat with
  | 1 => Result.ofX ((o.xa.setWidth 8).signExtend 64)
  | 2 => Result.ofX ((o.xa.setWidth 16).signExtend 64)
  | _ => Result.ofX ((o.xa.setWidth 32).signExtend 64)
def movxZxResult (w : Slot) (o : Operands) : Result :=
  match w.f.toNat with
  | 4 => Result.ofX ((o.xa.setWidth 8).setWidth 64)
  | 5 => Result.ofX ((o.xa.setWidth 16).setWidth 64)
  | _ => Result.ofX ((o.xa.setWidth 32).setWidth 64)
def vlaneResult (_ : Slot) (o : Operands) : Result := Result.ofX (o.a.extractLsb' (64 * (o.xb.toNat % 32)) 64)
def idxResult (w : Slot) (o : Operands) : Result := Result.ofX ((o.regs.loops.getD w.b.toNat {}).index.setWidth 64)
def cntResult (w : Slot) (o : Operands) : Result := Result.ofX ((o.regs.loops.getD w.b.toNat {}).count.setWidth 64)

/-- The mode that sr.round held when the bundle issued (R41, R88). -/
def roundMode (o : Operands) : Rnd := Rnd.ofCode o.regs.round.toNat
def fromIntResult (i : Int) (o : Operands) : Result := Result.ofX (BitVec.ofNat 64 ((Val.ofInt i).round fp32 (roundMode o)).1)

/-- A value rounded to an integer and clamped: a NaN gives 0; that, an infinity and a value outside raise integer saturation
(R88). -/
def toIntResult (lo hi : Int) (o : Operands) : Result :=
  let v := Val.read fp32 (o.xa.toNat % 2 ^ 32)
  if v.isNan then Result.ofX 0 0x0020
  else
    match v with
    | .inf true => Result.ofX (BitVec.ofInt 64 lo) 0x0020
    | .inf false => Result.ofX (BitVec.ofInt 64 hi) 0x0020
    | .fin n m e => clamped lo hi (sgn n (roundTo (roundMode o) n m e false 0).1)
    | .nan _ => Result.ofX 0 0x0020

/-! ### Control transfer, loops, ends and system registers (R28, R91 to R100) -/

/-- The sequencer that performs a slot. -/
def seqOf (o : Operands) (s : State) : Seq := s.seq o.who

/-- The transfer of a slot, taken or not, with no result. -/
def Transfers (taken : Operands → Bool) (offset : Slot → Operands → Nat) (w : Slot) (o : Operands) (s' s2 : State) (r : Result) : Prop :=
  r = {} ∧ s2 = if taken o then s'.setSeq o.who ((seqOf o s').goTo (o.vpc + BitVec.ofNat 32 (4 * offset w o))) else s'

/-- LITERAL × 2^10 + B × 2^4 + F[3:0] (R91, R93), and JMP's LITERAL × 2^17 + A × 2^11 + B × 2^5 + F (R92). -/
def shortOffset (w : Slot) (o : Operands) : Nat := ((o.lit.getD 0) ++ w.b ++ w.f.extractLsb' 0 4).toNat
def jumpOffset (w : Slot) (o : Operands) : Nat := ((o.lit.getD 0) ++ w.a ++ w.b ++ w.f).toNat

/-- Bit 0 of the predicate p[A]. -/
def testBit (o : Operands) : Bool := (o.regs.getP (0#1 ++ o.slot.a)).getLsbD 0

/-- BRU's test of the mask-stack top: any bit set for F[4] = 1, none for 0 (R93). -/
def maskTest (o : Operands) : Bool :=
  if o.slot.f.getLsbD 4 then decide (o.regs.maskTop ≠ 0) else decide (o.regs.maskTop = 0)

/-- The code body of the sequencer. -/
def codeBody (o : Operands) (s : State) : List (BitVec 32) :=
  match (seqOf o s).code.bind s.variantOf with
  | some v => v.code
  | none => []

/-- loop_issue of R95 with a count: the body is skipped, or an entry with INDEX 0 enters the stack and the body starts. -/
def LoopIssues (count : Slot → Operands → Int) (w : Slot) (o : Operands) (s' s2 : State) (r : Result) : Prop :=
  let code := codeBody o s'
  let c := max 0 (min (2 ^ 32 - 1) (count w o))
  let start := nextVpc code o.vpc
  let i := start.toNat / 4
  ∃ e : Nat, scanNext (code.drop i) i i 0 = some e ∧ r = { flags := if 0 ≤ count w o ∧ count w o ≤ 2 ^ 32 - 1 then 0 else 0x0020 } ∧
    s2 = s'.setSeq o.who (
      if c = 0 then (seqOf o s').goTo (nextVpc code (BitVec.ofNat 32 (4 * e)))
      else ({ seqOf o s' with now := { (seqOf o s').now with
              loops := (seqOf o s').now.loops ++
                [{ endV := BitVec.ofNat 32 (4 * e), start := start, count := BitVec.ofInt 32 c, index := 0 }] } } : Seq).goTo start)

/-- next_issue of R96 on a stack whose innermost entry is e. -/
def NextIssues (_ : Slot) (o : Operands) (s' s2 : State) (r : Result) : Prop :=
  let q := seqOf o s'
  let q' : Seq := { q with bundle := { q.bundle with boundary := true } }
  r = {} ∧ ∃ e : LoopEntry, q.now.loops.getLast? = some e ∧
    s2 = s'.setSeq o.who (
      if e.index.toNat + 1 < e.count.toNat then
        ({ q' with now := { q.now with loops := q.now.loops.dropLast ++ [{ e with index := e.index + 1 }] } } : Seq).goTo e.start
      else
        ({ q' with now := { q.now with loops := q.now.loops.dropLast } } : Seq).goTo (nextVpc (codeBody o s') e.endV))

/-- A HALT or SVC stands in its bundle until every slot of it has completed (R98, R99, R211). -/
def Stands (op : BitVec 7) (what : Slot → Operands → Ending) (w : Slot) (o : Operands) (s' s2 : State) (r : Result) : Prop :=
  let q := seqOf o s'
  q.bundle.replay = none ∧ r = {} ∧
    s2 = s'.setSeq o.who { q with bundle := { q.bundle with ending := some (what w o), endEntry := mkEntry q op o.form w o.lit 0 } }

/-- The watermark of a failing rank (R289): INDEX of loop level 0, or none at depth 0. -/
def failureOf (cause : Nat) (pstatus : BitVec 16) (r : Regs) : FailInfo :=
  if r.loops = [] then { cause := BitVec.ofNat 10 cause, pstatus := pstatus, unit := 0, wmark := 0 }
  else { cause := BitVec.ofNat 10 cause, pstatus := pstatus, unit := 2, wmark := (r.loopAt 0).index.toNat }

/-- The number of a system register, B × 32 + F (R100). -/
def sysNumber (w : Slot) : Nat := (w.b ++ w.f).toNat

/-- The content of a system register (R28, R216), none where sr.peer selects nothing. -/
def sysContent (o : Operands) (s : State) (n : Nat) : Option Word :=
  let r := o.regs
  let ctx := ((seqOf o s).task.map TaskRef.ctx).getD 0
  if n = 0x000 then some (0#32 ++ o.vpc)
  else if n = 0x001 then some (0#32 ++ r.lpc)
  else if n = 0x002 then some (0#56 ++ BitVec.ofNat 4 r.masks.length ++ 0#1 ++ BitVec.ofNat 3 r.loops.length)
  else if n = 0x008 then some (0#62 ++ r.round)
  else if n = 0x009 then some r.mmode
  else if 0x010 ≤ n ∧ n ≤ 0x015 then
    let k := r.sticky[Fin.ofNat 6 (n % 16)]
    some (k.firstVpc ++ k.firstSlot ++ BitVec.ofBool k.valid ++ 0#12 ++ k.cause)
  else if 0x018 ≤ n ∧ n ≤ 0x01D then some (r.sticky[Fin.ofNat 6 (n % 8)]).stamp
  else if n = 0x020 then some o.issued
  else if n = 0x021 then some (0#51 ++ BitVec.ofNat 1 o.who.group.val ++ 0#2 ++ BitVec.ofNat 10 o.who.core.val)
  else if n = 0x022 ∨ n = 0x030 then some ctx
  else if n = 0x031 then some r.peerSel
  else if n = 0x032 then peerRead (s.seq ⟨o.who.core, 1 - o.who.group⟩).now (field r.peerSel 18 16) (field r.peerSel 14 8) (field r.peerSel 4 0)
  else none

/-- CSRR: D receives the content. -/
def ReadsSystem (w : Slot) (o : Operands) (s' s2 : State) (r : Result) : Prop :=
  s2 = s' ∧ ∃ v, sysContent o s' (sysNumber w) = some v ∧ r = Result.ofX v

/-- A sticky record cleared, then with the exceptions that the bundle has already recorded for its engine (R26). -/
def clearedRecord (q : Seq) (e : Fin 6) : Seq :=
  let q := { q with now := { q.now with sticky := q.now.sticky.set e {} } }
  { q with now := (q.bundle.raised.filter fun x => x.1 == e).foldl (fun r x =>
      { r with sticky := r.sticky.set e ((r.sticky[e]).raise x.2.1 q.before.vpc x.2.2 q.bundle.issued) }) q.now }

/-- CSRW: the register takes A; reserved bits are ignored (R5); a sticky register's write clears its record (R26); WS stays an
MWSL's of the same bundle (R189). -/
def WritesSystem (w : Slot) (o : Operands) (s' s2 : State) (r : Result) : Prop :=
  let q := seqOf o s'
  let n := sysNumber w
  let v := o.xa
  r = {} ∧
  if n = 0x008 then s2 = s'.setSeq o.who { q with now := { q.now with round := v.extractLsb' 0 2 } }
  else if n = 0x009 then s2 = s'.setSeq o.who ({ q with now := { q.now with mmode := v &&& 0x3FF33FF } } : Seq).keepSet
  else if 0x010 ≤ n ∧ n ≤ 0x015 then s2 = s'.setSeq o.who (clearedRecord q (Fin.ofNat 6 (n % 16)))
  else if 0x018 ≤ n ∧ n ≤ 0x01D then s2 = s'.setSeq o.who (clearedRecord q (Fin.ofNat 6 (n % 8)))
  else if n = 0x031 then s2 = s'.setSeq o.who { q with now := { q.now with peerSel := v &&& 0x77F1F } }
  else if n = 0x032 then
    let p : SeqId := ⟨o.who.core, 1 - o.who.group⟩
    ∃ x, peerWrite (s'.seq p).now (field o.regs.peerSel 18 16) (field o.regs.peerSel 14 8) (field o.regs.peerSel 4 0) v = some x ∧
      s2 = s'.setSeq p { s'.seq p with now := x, before := x }
  else False

/-! ### Stream descriptors (R105, R109, R110) -/

/-- The descriptor of s[D mod 16] changes by a function, and nothing else does. -/
def setsStream (w : Slot) (o : Operands) (f : Stream → Stream) (s' : State) : State :=
  let q := seqOf o s'
  let k : Fin 16 := Fin.ofNat 16 (w.d.toNat % 16)
  s'.setSeq o.who { q with now := { q.now with streams := q.now.streams.set k (f q.now.streams[k]) } }

def SetsWhole (w : Slot) (o : Operands) (s' s2 : State) (r : Result) : Prop :=
  r = {} ∧ s2 = setsStream w o (fun _ =>
    { base := o.xa, space := w.f.extractLsb' 3 2, zx := w.f.getLsbD 2, esz := w.f.extractLsb' 0 2, dims := Vector.replicate 4 {} }) s'

/-- Does STRX's stride fit 32 bits, signed, and its extent 24 bits (R110)? -/
def strideFits (o : Operands) : Prop := -(2 ^ 31) ≤ o.xa.toInt ∧ o.xa.toInt < 2 ^ 31 ∧ o.xb.toNat < 2 ^ 24

def SetsDimension (w : Slot) (o : Operands) (s' s2 : State) (r : Result) : Prop :=
  let d : Dim := { stride := o.xa.setWidth 32, extent := o.xb.setWidth 24, en := true, wrap := w.d.getLsbD 4,
                   level := w.f.extractLsb' 0 3 }
  strideFits o ∧ r = {} ∧ s2 = setsStream w o (fun st => { st with dims := st.dims.set (Fin.ofNat 4 (w.f.toNat / 8)) d }) s'

def ClearsDimension (w : Slot) (o : Operands) (s' s2 : State) (r : Result) : Prop :=
  r = {} ∧ s2 = setsStream w o (fun st => { st with dims := st.dims.set (Fin.ofNat 4 (w.f.toNat / 8)) {} }) s'

/-! ### Memory slots (R111 to R117, R119) -/

/-- Sign of the offsets, hint and post-increment that a literal carries (R112). -/
def loadDisp (w : Slot) (o : Operands) (size : Nat) : Word :=
  match o.lit with
  | none => BitVec.ofNat 64 (w.b.toNat * size)
  | some l => (l.extractLsb' 0 20 ++ w.b).signExtend 64
def storeDisp (o : Operands) : Word :=
  match o.lit with
  | none => 0
  | some l => (l.extractLsb' 0 20).signExtend 64
def hasPi (o : Operands) : Bool :=
  match o.lit with
  | none => false
  | some l => l.getLsbD 21
def cacheHint (o : Operands) : BitVec 2 :=
  match o.lit with
  | none => 0
  | some l => l.extractLsb' 22 2

/-- The address accessed: the base itself with post-increment, else base and offset (R113). -/
def effective (o : Operands) (base disp : Word) : Word := if hasPi o then base else base + disp
/-- The base register's new value with post-increment. -/
def advanced (o : Operands) (code : BitVec 6) (base disp : Word) : Option (BitVec 5 × Word) :=
  if hasPi o then some (code.setWidth 5, base + disp) else none

/-- Bytes read from, or written to, the space that F[4:3] names: 0 global, 1 A space. -/
def ReadsBytes (w : Slot) (o : Operands) (addr : Word) (n : Nat) (s' : State) (l : List Byte) (s2 : State) : Prop :=
  if w.f.extractLsb' 3 2 = 0 then (readGlobal (.seq o.who) o.scope (cacheHint o) addr.toNat n).on s' = (.ok l, s2)
  else (aRead o.who.core addr.toNat n).on s' = (.ok l, s2)
def WritesBytes (w : Slot) (o : Operands) (addr : Word) (l : List Byte) (s' s2 : State) : Prop :=
  if w.f.extractLsb' 3 2 = 0 then (writeGlobal (.seq o.who) o.scope (cacheHint o) addr.toNat l).on s' = (.ok (), s2)
  else (aWrite o.who.core addr.toNat l).on s' = (.ok (), s2)

/-- The bytes of a scalar access, 2^F[2:1]. -/
def scalarBytes (w : Slot) : Nat := 2 ^ (w.f.extractLsb' 1 2).toNat

/-- n bytes extended to 64 bits: zero-extended with F[0] = 1, else sign-extended (R113). -/
def extended (zero : Bool) (n : Nat) (l : List Byte) : Word :=
  if zero then BitVec.ofNat 64 (fromLe l)
  else match n with
    | 1 => (BitVec.ofNat 8 (fromLe l)).signExtend 64
    | 2 => (BitVec.ofNat 16 (fromLe l)).signExtend 64
    | 4 => (BitVec.ofNat 32 (fromLe l)).signExtend 64
    | _ => BitVec.ofNat 64 (fromLe l)

def Loads (w : Slot) (o : Operands) (s' s2 : State) (r : Result) : Prop :=
  let n := scalarBytes w
  let disp := loadDisp w o n
  ∃ l : List Byte, l.length = n ∧ ReadsBytes w o (effective o o.xa disp) n s' l s2 ∧
    r = { Result.ofX (extended (w.f.getLsbD 0) n l) with base := advanced o w.a o.xa disp }

def Stores (w : Slot) (o : Operands) (s' s2 : State) (r : Result) : Prop :=
  let disp := storeDisp o
  WritesBytes w o (effective o o.xb disp) (leBytes (scalarBytes w) o.xa.toNat) s' s2 ∧
    r = { base := advanced o w.b o.xb disp }

/-- VLD: 256 bytes; the companion marks, byte by byte, what lies in non-resident pages, none of it in A space (R113, R115). -/
def LoadsVector (w : Slot) (o : Operands) (s' s2 : State) (r : Result) : Prop :=
  let disp := loadDisp w o 256
  let addr := effective o o.xa disp
  ∃ (l : List Byte) (c : Pred), r = { value := some (vecOf l), comp := some c, base := advanced o w.a o.xa disp } ∧
    if w.f.extractLsb' 3 2 = 0 then
      ∃ (ps : List (Nat × Nat × Option Home)) (s1 : State),
        (checkSpans (.seq o.who) .r true (lineSpans addr.toNat 256)).on s' = (.ok ps, s1) ∧
        (readAll (.seq o.who) o.scope (cacheHint o) true ps).on s1 = (.ok l, s2) ∧
        ∀ i, i < 256 → c.getLsbD i = (ps.flatMap fun p => List.replicate p.2.1 p.2.2.isNone).getD i false
    else (aRead o.who.core addr.toNat 256).on s' = (.ok l, s2) ∧ c = 0

/-- VST: the 256 bytes of A, or with F[0] = 1 those whose bit of the mask-stack top is 1 (R113). -/
def StoresVector (w : Slot) (o : Operands) (s' s2 : State) (r : Result) : Prop :=
  let disp := storeDisp o
  let addr := effective o o.xb disp
  let mask := if w.f.getLsbD 0 then o.regs.maskTop else BitVec.allOnes 256
  r = { base := advanced o w.b o.xb disp } ∧
    if mask = BitVec.allOnes 256 then WritesBytes w o addr (vecBytes o.a) s' s2
    else if w.f.extractLsb' 3 2 = 0 then (runsGlobal o addr.toNat (vecBytes o.a) (maskRuns addr.toNat mask)).on s' = (.ok (), s2)
    else (runsBin o.who.core addr.toNat (vecBytes o.a) (maskRuns addr.toNat mask)).on s' = (.ok (), s2)

/-- An 8-byte queue word of A space (R119): aligned, and checked as any A-space access. -/
def QueueWordAt (o : Operands) (addr : Word) (write : Bool) (s' : State) (p : Nat) : Prop :=
  addr.toNat % 8 = 0 ∧ (aCheck o.who.core addr.toNat 8).on s' = (.ok p, s') ∧
    (awaitBin o.who.core write p 8).on s' = (.ok (), s')

def LoadsQueueWord (w : Slot) (o : Operands) (s' s2 : State) (r : Result) : Prop :=
  let addr := o.xa + loadDisp w o 8
  ∃ p, QueueWordAt o addr false s' p ∧ (aPoison o.who.core addr.toNat p 8).on s' = (.ok (), s') ∧ s2 = s' ∧
    r = Result.ofX (wordOf (readBytes (s'.cluster o.cluster).mem p 8))

/-- Word 0 sets TAIL and HEAD together; word 1, at bit 3 of the address, also sets word 0 to zero. -/
def StoresQueueWord (_ : Slot) (o : Operands) (s' s2 : State) (r : Result) : Prop :=
  let addr := o.xb + storeDisp o
  let k := s'.cluster o.cluster
  ∃ p, QueueWordAt o addr true s' p ∧ r = {} ∧
    s2 = s'.setCluster o.cluster
      (if addr.getLsbD 3 then k.binWrite (p - 8) (zeros 8 ++ wordBytes o.xa) else k.binWrite p (wordBytes o.xa))

/-- GATH: 256 / len pieces of A space, an index of 0xFFFF giving zeros, enter lm0; a piece's address is not reduced (R117). -/
def Gathers (w : Slot) (o : Operands) (s' s2 : State) (r : Result) : Prop :=
  let len := 2 ^ ((w.f.extractLsb' 0 3).toNat + 1)
  let index (k : Nat) : Nat := (o.a.extractLsb' (16 * k) 16).toNat
  let addr (k : Nat) : Nat := o.xb.toNat + index k * len
  ∃ (pieces : List (List Byte)), o.xb.toNat % len = 0 ∧ s2 = s' ∧ pieces.length = 256 / len ∧
    (∀ k l, pieces[k]? = some l →
      if index k = 0xFFFF then l = zeros len else (aRead o.who.core (addr k) len).on s' = (.ok l, s')) ∧
    r = { gather := some (vecOf pieces.flatten) }

/-! ### Bin queues (R118, R120, R121) -/

/-- A queue control word at a place of the cluster's bin bytes: HEAD, TAIL, and of word 1 V, LGN, ESZ and RING. -/
structure ControlWord where
  head : Nat
  tail : Nat
  lgn : Nat
  esz : Nat
  ring : Nat

/-- The place of a queue access: of one that waits already through an attached window, where the window's bin has it; of any
other, as every A-space access is checked (R114, R233, R237). -/
def QueuePlace (o : Operands) (q : Word) (s' : State) (p : Nat) : Prop :=
  let e := ((s'.core o.who.core).windows[q.toNat / 131072 % 16]'(Nat.mod_lt _ (by decide)))
  if (s'.seq o.who).wait.isSome ∧ e.att = true then p = e.bin.val * 131072 + q.toNat % 131072
  else (aCheck o.who.core q.toNat 16).on s' = (.ok p, s')

/-- The control word at address q is aligned, accessible and valid, and holds c; p is its place (R114, R118). -/
def HasControlWord (o : Operands) (q : Word) (s' : State) (p : Nat) (c : ControlWord) : Prop :=
  let m := (s'.cluster o.cluster).mem
  let word1 := wordOf (readBytes m (p + 8) 8)
  let off := p % 131072
  q.toNat % 16 = 0 ∧ QueuePlace o q s' p ∧
    (aPoison o.who.core q.toNat p 16).on s' = (.ok (), s') ∧ (awaitBin o.who.core true p 16).on s' = (.ok (), s') ∧
    c.head = fromLe (readBytes m p 4) ∧ c.tail = fromLe (readBytes m (p + 4) 4) ∧
    word1.getLsbD 35 = true ∧ word1.extractLsb' 36 28 = 0 ∧ word1.extractLsb' 17 10 = 0 ∧
    c.lgn = (word1.extractLsb' 31 4).toNat ∧ c.esz = (word1.extractLsb' 27 4).toNat ∧ c.ring = (word1.extractLsb' 0 17).toNat ∧
    c.esz ≤ 8 ∧ c.ring % 2 ^ c.esz = 0 ∧ c.ring + 2 ^ (c.esz + c.lgn) ≤ 131072 ∧
    (off + 16 ≤ c.ring ∨ c.ring + 2 ^ (c.esz + c.lgn) ≤ off)

/-- Elements the queue holds, and the place of element n. -/
def occupancy (c : ControlWord) : Nat := (c.tail + 2 ^ 32 - c.head) % 2 ^ 32
def slotPlace (p : Nat) (c : ControlWord) (n : Nat) : Nat := p / 131072 * 131072 + c.ring + n % 2 ^ c.lgn * 2 ^ c.esz

/-- A push to a queue that is not full: the element is written at TAIL, then TAIL advances (R120). -/
def Pushes (scalar : Bool) (_ : Slot) (o : Operands) (s' s2 : State) (r : Result) : Prop :=
  ∃ (p : Nat) (c : ControlWord), HasControlWord o o.xb s' p c ∧ (scalar = true → c.esz ≤ 3) ∧ occupancy c ≠ 2 ^ c.lgn ∧
    (awaitBin o.who.core true (slotPlace p c c.tail) (2 ^ c.esz)).on s' = (.ok (), s') ∧ r = {} ∧
    s2 = s'.setCluster o.cluster
      (((s'.cluster o.cluster).binWrite (slotPlace p c c.tail) (leBytes (2 ^ c.esz) o.a.toNat)).binWrite (p + 4)
        (leBytes 4 (c.tail + 1)))

/-- A pop from a queue that is not empty: the element at HEAD, zero-extended, then HEAD advances; the vector form's
companion is all zero (R120). -/
def Pops (scalar : Bool) (_ : Slot) (o : Operands) (s' s2 : State) (r : Result) : Prop :=
  ∃ (p : Nat) (c : ControlWord), HasControlWord o o.xa s' p c ∧ (scalar = true → c.esz ≤ 3) ∧ occupancy c ≠ 0 ∧
    (aPoison o.who.core o.xa.toNat (slotPlace p c c.head) (2 ^ c.esz)).on s' = (.ok (), s') ∧
    (awaitBin o.who.core false (slotPlace p c c.head) (2 ^ c.esz)).on s' = (.ok (), s') ∧
    r = { value := some (vecOf (readBytes (s'.cluster o.cluster).mem (slotPlace p c c.head) (2 ^ c.esz))),
          comp := if scalar then none else some 0 } ∧
    s2 = s'.setCluster o.cluster ((s'.cluster o.cluster).binWrite p (leBytes 4 (c.head + 1)))

/-- A push to a full queue and a pop from an empty one wait (R121). -/
def QueueWaits (push scalar : Bool) (_ : Slot) (o : Operands) (s' s2 : State) (k : WaitKind) (addr : Word) : Prop :=
  ∃ (p : Nat) (c : ControlWord), HasControlWord o (if push then o.xb else o.xa) s' p c ∧ (scalar = true → c.esz ≤ 3) ∧
    occupancy c = (if push then 2 ^ c.lgn else 0) ∧ s2 = s' ∧ k = .queue ∧ addr = 0

/-! ### Atomics, the monitor, fences, residency and prefetch (R122 to R128) -/

/-- The bytes of an AMO: 2 for amo.hadd, else 8 with F[4] = 1 and 4 with 0. -/
def amoBytes (w : Slot) : Nat := if w.f.extractLsb' 0 4 = 11 then 2 else if w.f.getLsbD 4 then 8 else 4

/-- The new value of n bits, from the old one, B and D (R122); none stores nothing. -/
def amoResult (n : Nat) (w : Slot) (old b d : BitVec n) : Option (BitVec n) :=
  match (w.f.extractLsb' 0 4).toNat with
  | 0 => some (old + b)
  | 1 => some (if old.sle b then old else b)
  | 2 => some (if old.sle b then b else old)
  | 3 => some (if old.ule b then old else b)
  | 4 => some (if old.ule b then b else old)
  | 5 => some (old &&& b)
  | 6 => some (old ||| b)
  | 7 => some (old ^^^ b)
  | 8 => some b
  | 9 => if old = d then some b else none
  | 10 => some (BitVec.ofNat n (fAdd fp32 .nearest old.toNat b.toNat).1)
  | _ => some (BitVec.ofNat n (fAdd bf16 .nearest old.toNat b.toNat).1)

/-- The scope at which a home-slice access is ordered (R318). -/
def sliceScope (o : Operands) : Scope := if o.scope = .system then .system else .fabric

/-- AMO: one indivisible read and write at the home slice; D receives the old value, zero-extended. -/
def Atomically (w : Slot) (o : Operands) (s' s2 : State) (r : Result) : Prop :=
  let n := amoBytes w
  ∃ (h : Home) (s1 : State), (homeWord o .rw .atomic o.xa n).on s' = (.ok h, s1) ∧
    let old : BitVec (8 * n) := BitVec.ofNat (8 * n) (fromLe (s1.homeBytes h n))
    let leased := s1.homeLease (.seq o.who) (sliceScope o) h 0
    let written := match amoResult (8 * n) w old (o.xb.setWidth (8 * n)) (o.xd.setWidth (8 * n)) with
      | some y => leased.homeWrite (.seq o.who) (sliceScope o) h (leBytes n y.toNat) 0
      | none => leased
    s2 = written.setCluster o.cluster ((written.cluster o.cluster).dropCopy (o.xa.toNat / 128)) ∧
    r = Result.ofX (old.setWidth 64)

/-- MON: the aligned word at its home slice; the sequencer's monitor is armed on its line. -/
def Monitors (_ : Slot) (o : Operands) (s' s2 : State) (r : Result) : Prop :=
  ∃ (h : Home) (s1 : State), (homeWord o .r .read o.xa 8).on s' = (.ok h, s1) ∧
    let leased := s1.homeLease (.seq o.who) (sliceScope o) h 0
    let dropped := leased.setCluster o.cluster ((leased.cluster o.cluster).dropCopy (o.xa.toNat / 128))
    s2 = dropped.setSeq o.who { seqOf o dropped with monitor := some { line := h.line } } ∧
    r = Result.ofX (wordOf (s1.homeBytes h 8))

/-- The first condition of R124 that holds for a sequencer whose MWT has a cycle limit, as its status. -/
def monitorStatus (s : State) (who : SeqId) (limit : Nat) : Option Nat :=
  if (s.seq who).monitor = none then some 2
  else if ((s.seq who).monitor.getD { line := 0 }).fired then some 0
  else if s.preemptPending who then some 3
  else if limit ≠ 0 ∧ limit ≤ s.waited who then some 1
  else none

/-- A state in which the sequencer's monitor is disarmed where the status is written or disarmed. -/
def disarmedBy (n : Nat) (who : SeqId) (s : State) : State :=
  if n = 0 ∨ n = 2 then s.setSeq who { s.seq who with monitor := none } else s

def MonitorEnds (_ : Slot) (o : Operands) (s' s2 : State) (r : Result) : Prop :=
  ∃ n, monitorStatus s' o.who o.xa.toNat = some n ∧ s2 = disarmedBy n o.who s' ∧ r = Result.ofX (BitVec.ofNat 64 n)
def MonitorWaits (_ : Slot) (o : Operands) (s' s2 : State) (k : WaitKind) (addr : Word) : Prop :=
  monitorStatus s' o.who o.xa.toNat = none ∧ s2 = s' ∧ k = .mwt ∧ addr = 0

/-- FENCE: every earlier access of the sequencer is performed at the bundle's scope (R125, R322). At core scope none is
left to do. -/
def Fences (_ : Slot) (o : Operands) (s' s2 : State) (r : Result) : Prop :=
  r = {} ∧
  if o.scope.rank = 0 then s2 = s'
  else
    let path := (s'.core o.who.core).writePath
    let s1 := if path = [] then s' else
      (s'.setCore o.who.core { s'.core o.who.core with writePath := [] }).setCluster o.cluster
        { s'.cluster o.cluster with pending := (s'.cluster o.cluster).pending ++ path }
    if o.scope.rank = 1 then s2 = s1
    else ∃ (s3 : State) (t : Nat), drainPending o.cluster (fun _ => true) (s1.cluster o.cluster).pending s1 0 = (s3, some t) ∧
      s2 = s3.setSeq o.who { seqOf o s3 with time := max (max (seqOf o s3).time t) (seqOf o s3).seen }

/-- A page asked for at its home die of this package, or at another package's over the fabric: it is queued there once, and an
earlier failure no longer counts (R127, R354). -/
def askedHere (die page : Nat) (s : State) : State :=
  let d := s.die die
  s.setDie die { d with residency := if page ∈ d.residency then d.residency else d.residency ++ [page],
                        residencyFailed := d.residencyFailed.filter fun p => p ≠ page }
def askedFar (page : Nat) (s : State) : State :=
  { s with nets := { s.nets with asked := if page ∈ s.nets.asked then s.nets.asked else s.nets.asked ++ [page],
                                 refused := s.nets.refused.filter fun p => p ≠ page } }

/-- preq: the status of a page, and its request to the home die where it is not resident (R127). -/
def AsksResidency (_ : Slot) (o : Operands) (s' s2 : State) (r : Result) : Prop :=
  ∃ (st : PageState) (s1 : State), (pageState o o.xa.toNat).on s' = (.ok st, s1) ∧
    match st with
    | .resident => s2 = s1 ∧ r = Result.ofX 0
    | .farAway page => s2 = askedFar page s1 ∧ r = Result.ofX 1
    | .away die page => s2 = askedHere die page s1 ∧ r = Result.ofX 1

/-- preq.w of a resident page returns 0 at once. -/
def FindsResident (_ : Slot) (o : Operands) (s' s2 : State) (r : Result) : Prop :=
  (pageState o o.xa.toNat).on s' = (.ok .resident, s2) ∧ r = Result.ofX 0

/-- preq.w of a page that is not resident asks for it, and waits (R127). -/
def WaitsResidency (_ : Slot) (o : Operands) (s' s2 : State) (k : WaitKind) (addr : Word) : Prop :=
  ∃ (st : PageState) (s1 : State), (pageState o o.xa.toNat).on s' = (.ok st, s1) ∧ (s'.seq o.who).wait = none ∧
    s1.preemptPending o.who = false ∧ k = .preq ∧ addr = 0 ∧
    match st with
    | .resident => False
    | .farAway page => s2 = askedFar page s1
    | .away die page => s2 = askedHere die page s1

/-- Lines brought in one after another: one that raises a cause, or that no answer comes for, is left as it is; none has to
wait for its pseudo-channel (R128). -/
def Brings (o : Operands) : List Nat → State → State → Prop
  | [], s, t => t = s
  | va :: rest, s, t => match (prefLine o va).on s with
    | (.ok _, u) => Brings o rest u t
    | (.error (.cause _ _ _), _) => Brings o rest s t
    | (.error (.wait _ _), _) => Brings o rest s t
    | (.error .stall, _) => False
    | (.error .busy, _) => False
    | (.error .hazard, _) => False

/-- PREF: B + 1 lines from the one of A; it raises nothing (R128). -/
def Prefetches (w : Slot) (o : Operands) (s' s2 : State) (r : Result) : Prop :=
  let lines (a : Word) := (List.range (w.b.toNat + 1)).map fun i => (a.toNat / 128 + i) * 128 % 2 ^ 64
  r = {} ∧
    if isPort w.a then
      match (readScalar o.who o.scope .g o.ports w.a).on s' with
      | (.ok a, u) => Brings o (lines a) u s2
      | (.error (.cause _ _ _), _) => s2 = s'
      | (.error (.wait _ _), _) => s2 = s'
      | (.error .stall, _) => False
      | (.error .busy, _) => False
      | (.error .hazard, _) => False
    else Brings o (lines o.xa) s' s2

/-! ### V engine formulas (R133 to R152) -/

/-- Element i of w bits (R32). -/
def lane (w : Nat) (v : Vec) (i : Nat) : Nat := v.toNat / 2 ^ (w * i) % 2 ^ w
/-- The same as a signed number. -/
def slane (w : Nat) (v : Vec) (i : Nat) : Int := (BitVec.ofNat w (lane w v i)).toInt

/-- Bytes of an element of type T, and the float format of T = 0, 1, 2 (R133). -/
def tBytes (t : Nat) : Nat := if t = 0 ∨ t = 3 then 4 else if t = 1 ∨ t = 2 then 2 else 1
def tFloat (t : Nat) : Fmt := if t = 0 then fp32 else if t = 1 then bf16 else fp16
/-- T and M of an element-wise slot (R135). -/
def tOf (w : Slot) : Nat := (w.f.extractLsb' 2 3).toNat
def mOf (w : Slot) : Nat := (w.f.extractLsb' 0 2).toNat
/-- M as a rounding mode: nearest, toward zero, or sr.round's. -/
def mMode (o : Operands) (m : Nat) : Rnd := if m = 0 then .nearest else if m = 1 then .zero else Rnd.ofCode o.regs.round.toNat
/-- MODE of B[2:0]: 0 is sr.round's, 4 to 7 name one (R133). -/
def bMode (w : Slot) (o : Operands) : Rnd :=
  if (w.b.extractLsb' 0 3).toNat = 0 then Rnd.ofCode o.regs.round.toNat else Rnd.ofCode ((w.b.extractLsb' 0 3).toNat - 4)

/-- A vector result, element by element: element i of w bits is new where `on` gives a value, else the old one; the flags
are those of the elements computed, together (R26, R134). -/
def Builds (w : Nat) (old : Vec) (on : Nat → Option (Nat × Flags)) (r : Result) : Prop :=
  ∃ (v : Vec) (fl : Flags), r = Result.ofV v fl ∧
    (∀ i, i < 2048 / w → lane w v i = match on i with
      | some x => x.1 % 2 ^ w
      | none => lane w old i) ∧
    ∀ k, fl.getLsbD k = true ↔ ∃ i x, i < 2048 / w ∧ on i = some x ∧ x.2.getLsbD k = true

/-- An element-wise slot of g-byte elements under the mask-stack top (R134): element i is computed where bit g·i is 1. -/
def Lanes (g : Slot → Operands → Nat) (f : Slot → Operands → Nat → Nat × Flags) (w : Slot) (o : Operands) (s' s2 : State)
    (r : Result) : Prop :=
  s2 = s' ∧ Builds (8 * g w o) (o.regs.getV w.d) (fun i => if o.regs.maskTop.getLsbD (g w o * i) then some (f w o i) else none) r

/-- An exact integer in w bits as M says: wrapped, or clamped to the signed or unsigned range with integer saturation. -/
def fitted (w m : Nat) (e : Int) : Nat × Flags :=
  if m = 0 then ((e % 2 ^ w).toNat, 0)
  else
    let lo : Int := if m = 1 then -(2 ^ (w - 1)) else 0
    let hi : Int := if m = 1 then 2 ^ (w - 1) - 1 else 2 ^ w - 1
    ((max lo (min hi e) % 2 ^ w).toNat, if lo ≤ e ∧ e ≤ hi then 0 else 0x0020)

/-- VADD, VSUB, VMUL and VFMA: a float operation rounded once, or an exact integer fitted (R135, R136). -/
def arithLane (fl : Fmt → Rnd → Nat → Nat → Nat → Nat × Flags) (int : Int → Int → Int → Int) (w : Slot) (o : Operands) (i : Nat) :
    Nat × Flags :=
  let t := tOf w
  let n := 8 * tBytes t
  let m := mOf w
  let d := o.regs.getV w.d
  if t < 3 then fl (tFloat t) (mMode o m) (lane n o.a i) (lane n o.b i) (lane n d i)
  else if m = 2 then fitted n m (int (lane n o.a i) (lane n o.b i) (lane n d i))
  else fitted n m (int (slane n o.a i) (slane n o.b i) (slane n d i))

/-- VMNX: M[0] selects the larger, M[1] an unsigned comparison of the integer types (R137). -/
def minMaxLane (w : Slot) (o : Operands) (i : Nat) : Nat × Flags :=
  let t := tOf w
  let n := 8 * tBytes t
  let a := lane n o.a i
  let b := lane n o.b i
  if t < 3 then fMinMax (tFloat t) (w.f.getLsbD 0) a b
  else if w.f.getLsbD 1 then (if w.f.getLsbD 0 then max a b else min a b, 0)
  else if w.f.getLsbD 0 then (if slane n o.a i < slane n o.b i then b else a, 0)
  else (if slane n o.a i < slane n o.b i then a else b, 0)

/-- VSHF: left, logical right, arithmetic right, rotate right, by B mod the width (R135). -/
def shiftLane (w : Slot) (o : Operands) (i : Nat) : Nat × Flags :=
  let n := 8 * tBytes (tOf w)
  ((shiftBy (mOf w) (BitVec.ofNat n (lane n o.a i)) (lane n o.b i % n)).toNat, 0)

def byT (w : Slot) (_ : Operands) : Nat := tBytes (tOf w)

/-- A bitwise slot: byte j is new where bit j of the mask-stack top is 1 (R134). -/
def Bytewise (new : Slot → Operands → Vec) (w : Slot) (o : Operands) (s' s2 : State) (r : Result) : Prop :=
  s2 = s' ∧ Builds 8 (o.regs.getV w.d) (fun j => if o.regs.maskTop.getLsbD j then some (lane 8 (new w o) j, 0) else none) r

/-- The six operations of VLOG (R138). -/
def logic {n : Nat} (k : Nat) (a b : BitVec n) : BitVec n :=
  match k with
  | 0 => a &&& b
  | 1 => a ||| b
  | 2 => a ^^^ b
  | 3 => a &&& ~~~b
  | 4 => a ||| ~~~b
  | _ => ~~~a

/-- A predicate result: bit j is new where bit j of the mask-stack top is 1. -/
def Bitwise (dest : Slot → BitVec 7) (new : Slot → Operands → Pred) (w : Slot) (o : Operands) (s' s2 : State) (r : Result) : Prop :=
  s2 = s' ∧ ∃ p : Pred, r = Result.ofP p ∧
    ∀ j, j < 256 → p.getLsbD j = if o.regs.maskTop.getLsbD j then (new w o).getLsbD j else (o.regs.getP (dest w)).getLsbD j

/-- The predicates of the bank F[1:0] that D, A and B name (R138, R151). -/
def bankD (w : Slot) : BitVec 7 := w.f.extractLsb' 0 2 ++ w.d
def bankA (w : Slot) (o : Operands) : Pred := o.regs.getP (w.f.extractLsb' 0 2 ++ w.a.setWidth 5)
def bankB (w : Slot) (o : Operands) : Pred := o.regs.getP (w.f.extractLsb' 0 2 ++ w.b.setWidth 5)

/-- A condition of R139 on two elements of a type, with the flags of a signalling NaN. -/
def holdsFor (t c a b : Nat) : Bool × Flags :=
  if t < 3 then
    let x := Val.read (tFloat t) a
    let y := Val.read (tFloat t) b
    let un := x.isNan || y.isNan
    (match c with
      | 0 => x.eqv y
      | 1 => !x.eqv y
      | 2 => x.lt y
      | 3 => !un && !y.lt x
      | 4 => y.lt x
      | 5 => !un && !x.lt y
      | 6 => un
      | _ => !un, x.sigFlag ||| y.sigFlag)
  else
    let n := 8 * tBytes t
    let sa := (BitVec.ofNat n a).toInt
    let sb := (BitVec.ofNat n b).toInt
    (match c with
      | 0 => decide (a = b)
      | 1 => decide (a ≠ b)
      | 2 => decide (sa < sb)
      | 3 => decide (sa ≤ sb)
      | 4 => decide (a < b)
      | 5 => decide (a ≤ b)
      | 6 => decide (a &&& b ≠ 0)
      | _ => decide (a &&& b = 0), 0)

/-- VCMP: the g bits of element i are its outcome where bit g·i of the mask-stack top is 1, else the old bits (R139). -/
def Compares (w : Slot) (o : Operands) (s' s2 : State) (r : Result) : Prop :=
  let t := (o.lit.getD 0).toNat % 8
  let g := tBytes t
  let at_ (i : Nat) : Bool × Flags := holdsFor t (w.f.extractLsb' 0 3).toNat (lane (8 * g) o.a i) (lane (8 * g) o.b i)
  s2 = s' ∧ ∃ (p : Pred) (fl : Flags), r = Result.ofP p fl ∧
    (∀ i j, i < 256 / g → j < g → p.getLsbD (g * i + j) =
      if o.regs.maskTop.getLsbD (g * i) then (at_ i).1 else (o.regs.getP (w.f.extractLsb' 3 2 ++ w.d)).getLsbD (g * i + j)) ∧
    ∀ k, fl.getLsbD k = true ↔ ∃ i, i < 256 / g ∧ o.regs.maskTop.getLsbD (g * i) = true ∧ (at_ i).2.getLsbD k = true

/-- VSEL: byte j from A where bit j of p[F] is 1, else from B (R140). -/
def selected (w : Slot) (o : Operands) : Vec := byteMerge (o.regs.getP (0#2 ++ w.f)) o.b o.a

/-- A vector whose byte j is all ones where a predicate's bit j is 1, else zero (R151). -/
def expanded (p : Pred) : Vec := byteMask p

/-- vmov.ins: 64-bit lane B under its mask bit (R151). -/
def Inserts (w : Slot) (o : Operands) (s' s2 : State) (r : Result) : Prop :=
  s2 = s' ∧ Builds 64 (o.regs.getV w.d)
    (fun i => if i = w.b.toNat ∧ o.regs.maskTop.getLsbD (8 * w.b.toNat) = true then some (o.xa.toNat, 0) else none) r

/-- One element converted: read in the source format, delivered in the destination format (R44, R141). -/
def convert (dst src : Elem) (mode : Rnd) (v : Vec) (i : Nat) : Nat × Flags :=
  let x := src.take v i
  let y := dst.give mode x.1
  (y.1, x.2 ||| y.2)

/-- VCVT of F: a wider or equal source fills part B[5:3] of the destination; a narrower one is taken from part B[5:3] of A
(R142). Part p of elements n·p on; the mask bit of an element is that of the wider of the two. -/
def Converts (w : Slot) (o : Operands) (s' s2 : State) (r : Result) : Prop :=
  let (dst, src) := vcvtPair w.f.toNat
  let p := (w.b.extractLsb' 3 3).toNat
  let n := 2048 / max src.bits dst.bits
  s2 = s' ∧ Builds dst.bits (o.regs.getV w.d) (fun j =>
    if src.bits < dst.bits then
      if o.regs.maskTop.getLsbD (dst.bits / 8 * j) then some (convert dst src (bMode w o) o.a (n * p + j)) else none
    else if n * p ≤ j ∧ j < n * (p + 1) ∧ o.regs.maskTop.getLsbD (256 / n * (j - n * p)) = true then
      some (convert dst src (bMode w o) o.a (j - n * p))
    else none) r

/-- VQNT: FP32 elements times the FP32 scale in B, delivered in a target of R143, into part LITERAL[3:0] of D. -/
def Quantises (w : Slot) (o : Operands) (s' s2 : State) (r : Result) : Prop :=
  let e := match tOf w with
    | 0 => Elem.int 8
    | 1 => .i4x
    | 2 => .i2
    | 3 => .float e4m3
    | _ => .float e5m2
  let p := ((o.lit.getD 0).extractLsb' 0 4).toNat
  s2 = s' ∧ Builds e.bits (o.regs.getV w.d) (fun j =>
    if 64 * p ≤ j ∧ j < 64 * (p + 1) ∧ o.regs.maskTop.getLsbD (4 * (j - 64 * p)) = true then
      let x := (Val.read fp32 (lane 32 o.a (j - 64 * p))).mul (Val.read fp32 (o.xb.toNat % 2 ^ 32))
      let y := e.give (mMode o (mOf w)) x.1
      some (y.1, x.2 ||| y.2)
    else none) r

/-- VSCA: D + A × scale in FP32, rounded once by sr.round; A of FP32, INT32, or part LITERAL[2:0] of I4X; the scale of
element i, or of element 0, in FP32 or X8 (R144). -/
def scaleLane (w : Slot) (o : Operands) (i : Nat) : Nat × Flags :=
  let form := (w.f.extractLsb' 3 2).toNat
  let source := if form = 0 then Elem.float fp32 else if form = 1 then .int 32 else .i4x
  let a := source.take o.a (if form = 2 then 64 * ((o.lit.getD 0).extractLsb' 0 3).toNat + i else i)
  let k := if w.f.getLsbD 0 then i else 0
  let sc := if w.f.extractLsb' 1 2 = 1 then readX8 (lane 8 o.b k) else (Val.read fp32 (lane 32 o.b k), 0)
  let mode := Rnd.ofCode o.regs.round.toNat
  let y := finish fp32 mode (Val.fma mode a.1 sc.1 (Val.read fp32 (lane 32 (o.regs.getV w.d) i)))
  (y.1, a.2 ||| sc.2 ||| y.2)

/-- One FP function of an element, in the mode of B[2:0] (R146). -/
def unaryLane (f : Slot → Fmt → Rnd → Nat → Nat × Flags) (w : Slot) (o : Operands) (i : Nat) : Nat × Flags :=
  f w (tFloat (tOf w)) (bMode w o) (lane (8 * tBytes (tOf w)) o.a i)

/-- VRMX (R147): F[0] the dynamic mode, F[1] the form. -/
def rescaleLane (w : Slot) (o : Operands) (i : Nat) : Nat × Flags :=
  let n := 8 * tBytes (tOf w)
  fRescale (tFloat (tOf w)) (if w.f.getLsbD 0 then Rnd.ofCode o.regs.round.toNat else .nearest) (w.f.getLsbD 1) (lane n o.a i)
    (lane n o.b i)

/-- The elements of A, those whose mask bit is 0 replaced by an identity (R50). -/
def reduced (g ident : Nat) (o : Operands) : List Nat :=
  (List.range (256 / g)).map fun i => if o.regs.maskTop.getLsbD (g * i) then lane (8 * g) o.a i else ident

/-- The pairwise tree over 2^n elements (R50): at each level element i takes in element i + m/2 of the m left. -/
def pairTree (join : Nat × Flags → Nat × Flags → Nat × Flags) : Nat → (Nat → Nat × Flags) → Nat × Flags
  | 0, e => e 0
  | n + 1, e => pairTree join n fun i => join (e i) (e (i + 2 ^ n))

/-- A step of the tree: its value, and its flags with those below it. -/
def joined (f : Nat → Nat → Nat × Flags) (x y : Nat × Flags) : Nat × Flags :=
  ((f x.1 y.1).1, x.2 ||| y.2 ||| (f x.1 y.1).2)

/-- VRED (R145): M = 0 a sum, 1 a maximum, 2 a minimum; a value in element 0, zero above it. Elements the mask leaves out
are the identity (R50): −0, 0, or the bound. Integer sums are exact and saturate; float sums follow the tree in FP32, with
one final rounding where the destination is narrower (R51); maxima and minima follow the tree with VMNX's rule (R137). -/
def Reduces (w : Slot) (o : Operands) (s' s2 : State) (r : Result) : Prop :=
  let t := tOf w
  let g := tBytes t
  let n := 8 * g
  let levels := if g = 4 then 6 else if g = 2 then 7 else 8
  let wide := w.b.getLsbD 3
  let big : Bool := decide (mOf w = 1)
  let kept (ident i : Nat) : Nat := if o.regs.maskTop.getLsbD (g * i) then lane n o.a i else ident
  let signed (x : Nat) : Int := (BitVec.ofNat n x).toInt
  let y : Nat × Flags :=
    if mOf w ≠ 0 then
      let bound := if t < 3 then (if big then 2 ^ (n - 1) else 0) + (tFloat t).infBits else if big then 2 ^ (n - 1) else 2 ^ (n - 1) - 1
      pairTree (joined fun x z =>
        if t < 3 then fMinMax (tFloat t) big x z else (if signed x < signed z then (if big then z else x) else if big then x else z, 0))
        levels fun i => (kept bound i, 0)
    else if t < 3 then
      let sum := pairTree (joined (fAdd fp32 (bMode w o))) levels fun i =>
        if t = 0 then (kept (2 ^ 31) i, 0) else cvtFloat fp32 .nearest (Val.read (tFloat t) (kept (2 ^ 15) i))
      if t = 0 ∨ wide = true then sum
      else
        let z := cvtFloat (tFloat t) (bMode w o) (Val.read fp32 sum.1)
        (z.1, sum.2 ||| z.2)
    else fitted (if wide then 32 else n) 1 ((reduced g 0 o).map signed).sum
  s2 = s' ∧ r = Result.ofV (BitVec.ofNat 2048 y.1) y.2

/-- VPRM of element size 2^F[1:0]: by index, interleave low and high, even and odd elements (R148). -/
def permuteLane (w : Slot) (o : Operands) (k : Nat) : Nat × Flags :=
  let g := 2 ^ mOf w
  let n := 256 / g
  let at_ (v : Vec) (i : Nat) : Nat := lane (8 * g) v i
  (match (w.f.extractLsb' 2 3).toNat with
    | 0 => if at_ o.b k < n then at_ o.a (at_ o.b k) else 0
    | 1 => if k % 2 = 0 then at_ o.a (k / 2) else at_ o.b (k / 2)
    | 2 => if k % 2 = 0 then at_ o.a (n / 2 + k / 2) else at_ o.b (n / 2 + k / 2)
    | 3 => if k < n / 2 then at_ o.a (2 * k) else at_ o.b (2 * (k - n / 2))
    | _ => if k < n / 2 then at_ o.a (2 * k + 1) else at_ o.b (2 * (k - n / 2) + 1), 0)

def byM (w : Slot) (_ : Operands) : Nat := 2 ^ mOf w

/-- VBRD's value: a scalar, or A as an immediate, sign-extended when a literal stands above it (R149). -/
def broadcastValue (imm : Bool) (w : Slot) (o : Operands) : Word :=
  if imm then
    match o.lit with
    | none => w.a.setWidth 64
    | some l => (l ++ w.a).signExtend 64
  else o.xa
def broadcastLane (imm : Bool) (w : Slot) (o : Operands) (_ : Nat) : Nat × Flags := ((broadcastValue imm w o).toNat, 0)

/-- VIOT: A + i, or A + i × B with F[2] = 1 (R150). -/
def indexLane (w : Slot) (o : Operands) (i : Nat) : Nat × Flags :=
  (o.xa.toNat + i * (if w.f.getLsbD 2 then o.xb.toNat else 1), 0)

/-- A state whose mask stack is new. -/
def withMasks (o : Operands) (l : List Pred) (s' : State) : State :=
  let q := seqOf o s'
  s'.setSeq o.who { q with now := { q.now with masks := l } }

/-- VMPS: the named predicate under the top becomes the top (R152). -/
def PushesMask (w : Slot) (o : Operands) (s' s2 : State) (r : Result) : Prop :=
  o.regs.masks.length < 8 ∧ r = {} ∧ s2 = withMasks o ((bankA w o &&& o.regs.maskTop) :: o.regs.masks) s'
/-- VMIV: the top becomes its complement under the entry below it, or under all ones (R152). -/
def InvertsMask (_ : Slot) (o : Operands) (s' s2 : State) (r : Result) : Prop :=
  ∃ (top : Pred) (rest : List Pred), o.regs.masks = top :: rest ∧ r = {} ∧
    s2 = withMasks o ((~~~top &&& (rest.head?.getD (BitVec.allOnes 256))) :: rest) s'
/-- VMPP: the top is dropped (R152). -/
def PopsMask (_ : Slot) (o : Operands) (s' s2 : State) (r : Result) : Prop :=
  ∃ (top : Pred) (rest : List Pred), o.regs.masks = top :: rest ∧ r = {} ∧ s2 = withMasks o rest s'

/-- An overflow of the mask stack raises 0x048, an underflow 0x049, with no effect (R18, R30). -/
def MaskOverflows (_ : Slot) (o : Operands) (s' s2 : State) (code : Nat) (addr : Word) (detail : BitVec 16) : Prop :=
  8 ≤ o.regs.masks.length ∧ s2 = s' ∧ code = 0x048 ∧ addr = 0 ∧ detail = 0
def MaskUnderflows (_ : Slot) (o : Operands) (s' s2 : State) (code : Nat) (addr : Word) (detail : BitVec 16) : Prop :=
  o.regs.masks = [] ∧ s2 = s' ∧ code = 0x049 ∧ addr = 0 ∧ detail = 0

/-! ### M engine (R158 to R194) -/

/-- The sequencer's literal words, and the slot's: the one at LPC (R180). -/
def literalBody (o : Operands) (s : State) : List (BitVec 32) :=
  match (seqOf o s).code.bind s.variantOf with
  | some v => v.lits
  | none => []
def HasLiteral (o : Operands) (s : State) (word : BitVec 32) : Prop := (literalBody o s)[o.regs.lpc.toNat / 4]? = some word

/-- LPC has moved past the slot's literal word (R180). -/
def pastLiteral (o : Operands) (s : State) : State :=
  s.setSeq o.who { seqOf o s with now := { (seqOf o s).now with lpc := o.regs.lpc + 4 } }

/-- The live macros of the core, by logical number: physical positions in ascending order (R161). -/
def liveAt (o : Operands) (s : State) (j : Nat) : Option Nat :=
  (((List.range 8).filter fun p => (s.core o.who.core).liveMacros.getLsbD p)[j]?)

/-- The W address of B: macro, set, offset, below 2^20 and of a live macro (R158, R187). -/
def PlacesWeights (o : Operands) (s : State) (p set off : Nat) : Prop :=
  o.xb.toNat < 2 ^ 20 ∧ liveAt o s (o.xb.toNat / 2 ^ 17) = some p ∧ set = o.xb.toNat / 2 ^ 15 % 4 ∧ off = o.xb.toNat % 2 ^ 15

/-- The conditions of R163 on sr.mmode, A and B, in the order in which they are checked. -/
def rangeHolds (f : MmvForm) (o : Operands) : Prop :=
  let m := o.regs.mmode
  let kact := (m.extractLsb' 16 9).toNat
  m.extractLsb' 0 8 ≠ 0 ∧ kact ≠ 0 ∧ kact ≤ (if f = .mb then 128 else 256)
def allLive (o : Operands) (s : State) : Prop :=
  ∀ j, j < 8 → (o.regs.mmode.extractLsb' 0 8).getLsbD j = true → (liveAt o s j).isSome = true
def splitHolds (o : Operands) : Prop := o.regs.mmode.getLsbD 25 = true → ∃ d, portStream o = some d ∧ d.space = 1
def lanesHold (f : MmvForm) (o : Operands) : Prop :=
  let m := o.regs.mmode
  o.xb.toNat % 128 = 0 ∧
    o.xb.toNat + (if m.getLsbD 25 then f.columns else (participants (m.extractLsb' 0 8).toNat).length * f.columns) ≤ 65536

/-- MMV's conditions on sr.mmode, A and B (R163, R184). -/
def ModeHolds (f : MmvForm) (o : Operands) (s : State) : Prop := rangeHolds f o ∧ allLive o s ∧ splitHolds o ∧ lanesHold f o

/-- A lane whose value is a NaN or an infinity has the bound +∞ (R45). -/
def settled (value bound : Nat) : Lane :=
  { value := BitVec.ofNat 32 value, bound := if value / 2 ^ 23 % 256 = 255 then 0x7F800000 else BitVec.ofNat 32 bound }

/-- Value and bound of lane n of the core. -/
def laneAt (k : Core) (n : Nat) : Lane := Lane.ofWord (tabGet 0 n k.lanes)

/-- What one column delivers: S, β as FP32 bits, and the exceptions it raises itself. -/
structure Column where
  s : Val
  beta : Nat
  own : Flags

/-- A column enters a lane (R47): S is rounded once, with aip the sum once more; each rounding charges its half-ulp to the
bound. Of the exceptions of the two roundings invalid, overflow and inexact count. -/
def entered (aip : Bool) (l : Lane) (c : Column) : Lane × Flags :=
  let s := c.s.round fp32 .nearest
  let h := halfUlp (s.2.getLsbD 4) s.1
  let t := fAdd fp32 .nearest l.value.toNat s.1
  let b := addUp (addUp (addUp l.bound.toNat c.beta) h) (halfUlp (t.2.getLsbD 4) t.1)
  if aip then (settled t.1 (if c.beta = 0x7F800000 then c.beta else b), c.own ||| ((s.2 ||| t.2) &&& 0x0015))
  else (settled s.1 (if c.beta = 0x7F800000 then c.beta else addUp c.beta h), c.own ||| (s.2 &&& 0x0015))

/-- The sum over the rows that take part (R182). -/
def overRows (rows : List Nat) (g : Nat → Int) : Int := (rows.map g).sum

/-- The outlier of one element of a pair of I4X, whose own nibble is then the marker and the other one the payload (R38, R170). -/
def outlierIn (b : Nat) (high : Bool) : Option Int :=
  let (mark, code) := if high then (b / 16, b % 16) else (b % 16, b / 16)
  if mark = 8 ∧ code ≠ 8 then some (sgn (decide (8 ≤ code)) (2 ^ (code % 8 + 3))) else none

/-- The INT8 activation of a row; the stored byte of W space at row r of a set; and the stored weight of column n, of w bits
(R158, R159, R166): a plain code, or 0 for both nibbles of a pair with the I4X marker and for the I2 code 10, which only a set
written in another format holds (R38, R39; the model's choice, log entry 68). -/
def actOf (x : Vec) (r : Nat) : Int := (x.extractLsb' (8 * r) 8).toInt
def storedByte (k : Core) (p set r i : Nat) : Nat := (readByte (p * 2 ^ 17 + set * 2 ^ 15 + 128 * r + i) k.wspace).toNat
def weightOf (k : Core) (p set w r n : Nat) : Int :=
  let b := storedByte k p set r (n * w / 8)
  if w = 4 ∧ (b % 16 = 8 ∨ b / 16 = 8) ∨ w = 2 ∧ b / 4 ^ (n % 4) % 4 = 2 then 0
  else (BitVec.ofNat w (b / 2 ^ (n * w % 8))).toInt
/-- The outlier of a marked pair that MMV4 meets in the array, and the reserved data that its and MMV2's decode raises (R38, R39,
log entry 68). -/
def strayOf (k : Core) (p set r n : Nat) : Int := (outlierIn (storedByte k p set r (n / 2)) (n % 2 = 1)).getD 0
def isReserved (f : MmvForm) (k : Core) (p set r n : Nat) : Prop :=
  (f = .m4 ∧ storedByte k p set r (n / 2) = 0x88) ∨ (f = .m2 ∧ storedByte k p set r (n / 4) / 4 ^ (n % 4) % 4 = 2)

/-- q_ρ (R167): the smallest power of two that, times 255, is at least the full scale, divided by 2^ρ and never below 1. -/
def IsStep (fs rho q : Nat) : Prop :=
  ∃ e, fs ≤ 255 * 2 ^ e ∧ (e = 0 ∨ 255 * 2 ^ (e - 1) < fs) ∧ q = max 1 (2 ^ e / 2 ^ rho)

/-- What R166 to R171 and R184 let an integer column deliver (the decode of a code that no load leaves in the array as log entry 68
says): the digital part exactly, and, where the full scale is not 0,
q_ρ × (16c + o) ÷ 16 for a code c. The code is 255 on a clip, is free where the offset is not valid, and else leaves S within q_ρ
of the exact sum. -/
def DeliversInt (f : MmvForm) (k : Core) (core p set n : Nat) (x : Vec) (rows : List Nat) (d rho kact : Nat) (c : Column) : Prop :=
  let wide := f = .m4 ∧ (k.wset p set).overflow.getLsbD (n / 16) = true
  let w := f.wbits
  let u := if wide then 0 else 8 - d
  let v := if wide then 0 else w - min d w
  let m := k.macroAt p
  let analog := overRows rows fun r => actOf x r % 2 ^ u * (weightOf k p set w r n % 2 ^ v)
  let side := if f = .m4 then
      (((k.wset p set).side.filter fun e => e.2.1 = n ∧ e.1 ∈ rows).map fun e => actOf x e.1 * e.2.2).sum
        + overRows rows fun r => actOf x r * strayOf k p set r n
    else 0
  let digital := overRows rows (fun r => actOf x r * weightOf k p set w r n) - analog + side
  let fs := kact * (2 ^ u - 1) * (2 ^ v - 1)
  ∃ overFlag : Flags,
  ((∃ r, r ∈ rows ∧ isReserved f k p set r n) ∧ overFlag = 0x0040 ||| (if wide then 0x0100 else 0) ∨
    (∀ r, r ∈ rows → ¬isReserved f k p set r n) ∧ overFlag = if wide then 0x0100 else 0) ∧
  let valid := m.valid.getLsbD (n % 128)
  let o := (offsetOf core p m (n % 128)).toInt
  if fs = 0 then c = { s := Val.ofInt digital, beta := 0, own := overFlag }
  else ∃ (q : Nat) (code : Int), IsStep fs rho q ∧
    let t := 16 * digital + q * (16 * code + o)
    c.s = .fin (decide (t < 0)) t.natAbs (-4) ∧
    if (255 * q : Int) < analog then code = 255 ∧ c.beta = 0x7F800000 ∧ c.own = overFlag ||| 0x0080
    else c.own = overFlag ∧
      if valid then c.beta = natBits q ∧ -(16 * q : Int) ≤ t - 16 * (digital + analog) ∧ t - 16 * (digital + analog) ≤ 16 * q
      else c.beta = 0x7F800000 ∧ 0 ≤ code ∧ code ≤ 255

/-- Significand and exponent of a finite BF16 pattern, and its value aligned to an exponent (R172). -/
def sigOf (b : Nat) : Nat := if b / 128 % 256 = 0 then b % 128 else 128 + b % 128
def expOf (b : Nat) : Int := if b / 128 % 256 = 0 then -126 else (b / 128 % 256 : Nat) - 127
def alignedTo (e : Int) (b : Nat) : Int := sgn (decide (b / 32768 % 2 = 1)) (sigOf b / 2 ^ (e + 1 - expOf b).toNat)

/-- MMVB's column (R173): the exact sum of aligned products, scaled; the canonical NaN, with invalid operation, where an
activation or the column is not finite. -/
def bfColumnOf (k : Core) (p set n : Nat) (x : Vec) (rows : List Nat) : Column :=
  let act (r : Nat) : Nat := (x.extractLsb' (16 * r) 16).toNat
  let ea := (rows.map fun r => expOf (act r)).foldl max (-68)
  let sum := overRows rows fun r => alignedTo ea (act r) * weightOf k p set 8 r n
  if (k.wset p set).nonfinite.getLsbD n = true ∨ ∃ r, r ∈ rows ∧ act r / 128 % 256 = 255 then
    { s := .nan false, beta := 0, own := 0x0001 }
  else { s := .fin (decide (sum < 0)) sum.natAbs (ea + tabGet (-68) n (k.wset p set).exps - 12), beta := 0, own := 0 }

def Delivers (f : MmvForm) (k : Core) (core p set n : Nat) (x : Vec) (rows : List Nat) (d rho kact : Nat) (c : Column) : Prop :=
  if f = .mb then c = bfColumnOf k p set n x rows else DeliversInt f k core p set n x rows d rho kact c

/-- The activations of P participants (R164): operand A for each; with K-split, piece j of 256 bytes at the stream address,
zero bytes where the element is pad. -/
def Activates (o : Operands) (split : Bool) (count : Nat) (s s1 : State) (data : List Vec) : Prop :=
  match portStream o with
  | none => s1 = s ∧ data = List.replicate count o.a
  | some d =>
    if split then
      s1 = s ∧ data.length = count ∧ ∀ j x, data[j]? = some x → match streamAddr o.ports d with
        | none => x = 0
        | some a => ∃ l, (aRead o.who.core ((a + 256 * j) % 2 ^ 64) 256).on s = (.ok l, s) ∧ x = vecOf l
    else ∃ l, (portBytes o.who o.scope .m d o.ports 256).on s = (.ok l, s1) ∧ data = List.replicate count (vecOf l)

/-- The participants' physical macros, in ascending order of their numbers. -/
def physAt (o : Operands) (s : State) : List Nat :=
  (participants (o.regs.mmode.extractLsb' 0 8).toNat).map fun j => (liveAt o s j).getD 0

/-- Where an MMV executes normally: its mode holds, its literal word is there, no set it reads is loading or failed, and its
activations can be read (R163, R181, R184, R187). -/
def MatrixReady (f : MmvForm) (_ : Slot) (o : Operands) (s : State) : Prop :=
  let set := (o.regs.mmode.extractLsb' 8 2).toNat
  ModeHolds f o s ∧ (∃ word, HasLiteral o s word) ∧
    (∀ p, p ∈ physAt o s → ((s.core o.who.core).wset p set).loading = false ∧ ((s.core o.who.core).wset p set).failed = false) ∧
    ∃ s1 data, Activates o (o.regs.mmode.getLsbD 25) (physAt o s).length s s1 data

/-- The gleaner of a participant: the sequence number advances, and a result whose number it picks joins the queue of four or is
skipped (R175). -/
def Offered (a b : Macro) : Prop :=
  let pick := a.sampling = true ∧ a.sequence % 2 ^ a.exponent = a.seed
  b.sequence = a.sequence + 1 ∧ b.calibration = a.calibration ∧ b.offsets = a.offsets ∧ b.valid = a.valid ∧ b.sampling = a.sampling ∧
    b.exponent = a.exponent ∧ b.seed = a.seed ∧ b.violations = a.violations ∧ b.recalibrations = a.recalibrations ∧
    (¬pick → b.picks = a.picks ∧ b.skipped = a.skipped) ∧
    (pick → a.picks.length < 4 → b.skipped = a.skipped ∧ ∃ x, b.picks = a.picks ++ [x]) ∧
    (pick → 4 ≤ a.picks.length → b.skipped = a.skipped + 1 ∧ b.picks = a.picks)

/-- An MMV (R47, R49, R160, R164, R175, R184): every participant delivers a result for each of its columns; a lane takes those of the
participants whose lanes it is among, in ascending order, and is unchanged where it is none's; the other state of the core
that changes is the live-tile map, with F[4], and the participants' gleaners. The codes are free values of one draw (log
entry 3). -/
def Multiplies (f : MmvForm) (w : Slot) (o : Operands) (s' s2 : State) (r : Result) : Prop :=
  let m := o.regs.mmode
  let split := m.getLsbD 25
  let phys := physAt o s'
  let len := f.columns
  let base (j : Nat) : Nat := if split then o.xb.toNat else o.xb.toNat + j * len
  let aip (j : Nat) : Bool := (split && decide (0 < j)) || w.f.getLsbD 3
  let mine (j lane : Nat) : Prop := base j ≤ lane ∧ lane < base j + len
  ∃ (word : BitVec 32) (s1 : State) (data : List Vec) (col : Nat → Nat → Column) (lanes : Tab Word) (live : BitVec 512)
      (macs : Tab Macro) (fl : Flags),
    let k := s1.core o.who.core
    let rows := (List.range (if f = .mb then 128 else 256)).filter fun r =>
      decide (r < (m.extractLsb' 16 9).toNat) && word.getLsbD (r / 8)
    let upTo (j lane : Nat) : Lane := (List.range j).foldl (fun l i =>
      if base i ≤ lane ∧ lane < base i + len then (entered (aip i) l (col i (lane - base i))).1 else l) (laneAt k lane)
    HasLiteral o s' word ∧ Activates o split phys.length s' s1 data ∧
    (∀ j p x n, phys[j]? = some p → data[j]? = some x → n < len →
      Delivers f k o.who.core p (m.extractLsb' 8 2).toNat n x rows (w.f.toNat % 8 + 1) (m.extractLsb' 12 2).toNat
        (m.extractLsb' 16 9).toNat (col j n)) ∧
    (∀ lane, Lane.ofWord (tabGet 0 lane lanes) = upTo phys.length lane) ∧
    (∀ lane, (∀ j, j < phys.length → ¬mine j lane) → Lane.ofWord (tabGet 0 lane lanes) = laneAt k lane) ∧
    (∀ t, t < 512 → (live.getLsbD t = true ↔ k.live.getLsbD t = true ∨
      (w.f.getLsbD 4 = true ∧ ∃ j, j < phys.length ∧ base j / 128 ≤ t ∧ t ≤ (base j + len - 1) / 128))) ∧
    (∀ p, p ∈ phys → Offered (k.macroAt p) (tabGet {} p macs)) ∧ (∀ p, p ∉ phys → tabGet {} p macs = k.macroAt p) ∧
    (∀ b, fl.getLsbD b = true ↔ ∃ j n, j < phys.length ∧ n < len ∧
      (entered (aip j) (upTo j (base j + n)) (col j n)).2.getLsbD b = true) ∧
    s2 = pastLiteral o (({ s1 with free := s1.free + 1 } : State).setCore o.who.core
      { k with lanes := lanes, live := live, macros := macs }) ∧
    r = { flags := fl, kept := data.head? }

/-- The causes of an MMV, the first failure in the order of R163 and R184: 0x101 to 0x104, 0x105 past the literal stream, 0x107 for a
failed set; the slot changes nothing. -/
def ModeRefused (f : MmvForm) (_ : Slot) (o : Operands) (s' s2 : State) (code : Nat) (addr : Word) (detail : BitVec 16) : Prop :=
  let set (p : Nat) : WeightSet := (s'.core o.who.core).wset p (o.regs.mmode.extractLsb' 8 2).toNat
  s2 = s' ∧ detail = 0 ∧ (code ≠ 0x104 → addr = 0) ∧
    ((¬rangeHolds f o ∧ code = 0x101) ∨ (rangeHolds f o ∧ ¬allLive o s' ∧ code = 0x102) ∨
     (rangeHolds f o ∧ allLive o s' ∧ ¬splitHolds o ∧ code = 0x103) ∨
     (rangeHolds f o ∧ allLive o s' ∧ splitHolds o ∧ ¬lanesHold f o ∧ code = 0x104 ∧ addr = o.xb) ∨
     (ModeHolds f o s' ∧ (¬∃ word, HasLiteral o s' word) ∧ code = 0x105) ∨
     (ModeHolds f o s' ∧ (∃ word, HasLiteral o s' word) ∧ (∀ p, p ∈ physAt o s' → (set p).loading = false) ∧
       (∃ p, p ∈ physAt o s' ∧ (set p).failed = true) ∧ code = 0x107))

/-- MWLD: the target set is loading, and the load stands last in the core's list, with the place in the bins of an A-space
source, whichever task the window's bin has later (R187, R233). -/
def StartsLoad (w : Slot) (o : Operands) (s' s2 : State) (r : Result) : Prop :=
  ∃ (p set place : Nat) (word : BitVec 32) (s1 s3 : State), PlacesWeights o s' p set 0 ∧ o.xa.toNat % 256 = 0 ∧
    (if w.f.extractLsb' 3 2 = 1 then
        s1 = s' ∧ (aCheck o.who.core o.xa.toNat 32768).on s' = (.ok place, s') ∧
          (awaitBin o.who.core false place 32768).on s' = (.ok (), s')
      else place = 0 ∧ (checkPages o.who .r o.xa.toNat 32768).on s' = (.ok (), s1) ∧ s1.globalHazard o.who false o.xa.toNat 32768 = false) ∧
    HasLiteral o s1 word ∧ (raiseEarlier o.who o.scope).on s1 = (.ok (), s3) ∧
    ((s3.core o.who.core).wset p set).loading = false ∧ r = {} ∧
    let k := s3.core o.who.core
    let l : WeightLoad := { mac := p, set := set, fmt := w.f.extractLsb' 0 2, aSpace := w.f.extractLsb' 3 2 = 1, src := o.xa, place := place,
                            who := o.who, serial := (seqOf o s3).task.map TaskRef.serial, vpc := o.vpc,
                            slot := BitVec.ofNat 3 o.pos, stamp := o.issued, scope := o.scope }
    s2 = pastLiteral o (s3.setCore o.who.core
      { k.setWset p set { k.wset p set with loading := true } with loads := k.loads ++ [l] })

/-- MWSL: WS of sr.mmode is F[1:0] (R189). -/
def SelectsSet (w : Slot) (o : Operands) (s' s2 : State) (r : Result) : Prop :=
  let q := seqOf o s'
  let n := w.f.extractLsb' 0 2
  let m := q.now.mmode
  (∃ word, HasLiteral o s' word) ∧ r = {} ∧
    s2 = pastLiteral o (s'.setSeq o.who
      { q with now := { q.now with mmode := m.extractLsb' 10 54 ++ n ++ m.extractLsb' 0 8 },
               bundle := { q.bundle with mwsl := some n } })

/-- A pair as the array holds it: 0000 twice where a nibble is the marker (R170). -/
def pairStored (b : Nat) : Nat := if b % 16 = 8 ∨ b / 16 = 8 then 0 else b
/-- Four I2 codes as the array holds them: 10 as 00 (R190). -/
def codesStored (b : Nat) : Nat :=
  let code (i : Nat) : Nat := if b / 4 ^ i % 4 = 2 then 0 else b / 4 ^ i % 4
  code 0 + 4 * code 1 + 16 * code 2 + 64 * code 3
/-- A BF16 value against the exponent its column has already: the significand moved either way (R172, R190). -/
def againstColumn (e : Int) (b : Nat) : Int :=
  sgn (decide (b / 32768 % 2 = 1)) (if expOf b ≤ e + 1 then sigOf b / 2 ^ (e + 1 - expOf b).toNat
    else sigOf b * 2 ^ (expOf b - e - 1).toNat)

/-- What MWUP stores at an offset, the set's marks after it, and the flags (R190, log entry 63 for the least exponent). -/
def RowsUpdated (fmt off : Nat) (a : Vec) (x : WeightSet) (bytes : List Byte) (y : WeightSet) (fl : Flags) : Prop :=
  let b (i : Nat) : Nat := (a.extractLsb' (8 * i) 8).toNat
  if fmt = 0 then bytes = vecBytes a ∧ y = x ∧ fl = 0
  else if fmt = 1 then
    let row := off / 128
    let found := (List.range 256).flatMap fun i => [false, true].filterMap fun high =>
      (outlierIn (b i) high).map fun v => ((off + i) / 128, 2 * ((off + i) % 128) + high.toNat, v)
    bytes = (List.range 256).map (fun i => BitVec.ofNat 8 (pairStored (b i))) ∧
      y = { x with side := (x.side.filter fun e => e.1 ≠ row ∧ e.1 ≠ row + 1) ++ found, overflow := y.overflow } ∧
      (∀ g, g < 16 → (y.overflow.getLsbD g = true ↔ 64 < (y.side.filter fun e => e.2.1 / 16 = g).length)) ∧
      fl = (if (List.range 256).any (fun i => b i = 0x88) then 0x0040 else 0) ||| if y.overflow ≠ 0 then 0x0100 else 0
  else if fmt = 2 then
    bytes = (List.range 256).map (fun i => BitVec.ofNat 8 (codesStored (b i))) ∧ y = x ∧
      fl = if (List.range 1024).any (fun i => b (i / 4) / 4 ^ (i % 4) % 4 = 2) then 0x0040 else 0
  else
    let v (n : Nat) : Nat := (a.extractLsb' (16 * n) 16).toNat
    let iw (n : Nat) : Int := againstColumn (tabGet (-68) n x.exps) (v n)
    bytes = (List.range 128).map (fun n => BitVec.ofInt 8 (max (-127) (min 127 (iw n)))) ∧ y = { x with nonfinite := y.nonfinite } ∧
      (∀ n, n < 128 → (y.nonfinite.getLsbD n = true ↔ x.nonfinite.getLsbD n = true ∨ v n / 128 % 256 = 255)) ∧
      fl = (if (List.range 128).any (fun n => 127 < (iw n).natAbs) then 0x0020 else 0) |||
        if (List.range 128).any (fun n => v n / 128 % 256 = 255 ∧ 0 < v n % 128 ∧ v n % 128 < 64) then 0x0001 else 0

/-- MWUP: rows of a set that is not loading, from a vector: 256 bytes of an integer format, or 128 BF16 values into one row
(R190). -/
def UpdatesRows (w : Slot) (o : Operands) (s' s2 : State) (r : Result) : Prop :=
  let fmt := (w.f.extractLsb' 0 2).toNat
  ∃ (p set off : Nat) (word : BitVec 32) (bytes : List Byte) (y : WeightSet) (fl : Flags), PlacesWeights o s' p set off ∧
    (if fmt = 3 then off % 128 = 0 ∧ off < 0x4000 else off % 256 = 0) ∧ HasLiteral o s' word ∧
    ((s'.core o.who.core).wset p set).loading = false ∧
    let k := s'.core o.who.core
    RowsUpdated fmt off o.a (k.wset p set) bytes y fl ∧ r = { flags := fl } ∧
    s2 = pastLiteral o (s'.setCore o.who.core
      (({ k with wspace := writeBytes (p * 2 ^ 17 + set * 2 ^ 15 + off) bytes k.wspace } : Core).setWset p set y))

/-- MCAL and MSMP name a live macro by B; one that is not live raises 0x102 (R191, R192). -/
def NamesMacro (o : Operands) (s : State) (p : Nat) : Prop :=
  (∃ word, HasLiteral o s word) ∧ liveAt o s o.xb.toNat = some p

/-- mcal.w: 128 offsets from bytes 0 to 127 of A, every column valid; mcal.inv: no column valid (R191). -/
def WritesCalibration (_ : Slot) (o : Operands) (s' s2 : State) (r : Result) : Prop :=
  ∃ p, NamesMacro o s' p ∧ r = {} ∧
    let k := s'.core o.who.core
    s2 = pastLiteral o (s'.setCore o.who.core (k.setMacro p
      { k.macroAt p with offsets := (List.range 128).map fun i => (i, o.a.extractLsb' (8 * i) 8), valid := BitVec.allOnes 128 }))
def Invalidates (_ : Slot) (o : Operands) (s' s2 : State) (r : Result) : Prop :=
  ∃ p, NamesMacro o s' p ∧ r = {} ∧
    let k := s'.core o.who.core
    s2 = pastLiteral o (s'.setCore o.who.core (k.setMacro p { k.macroAt p with valid := 0 }))
/-- mcal.r: the offsets in bytes 0 to 127, the valid bits in bytes 128 to 143, zero above (R191). -/
def ReadsCalibration (_ : Slot) (o : Operands) (s' s2 : State) (r : Result) : Prop :=
  ∃ (p : Nat) (v : Vec), NamesMacro o s' p ∧ s2 = pastLiteral o s' ∧ r = Result.ofV v ∧
    let m := (s'.core o.who.core).macroAt p
    (∀ i, i < 128 → v.extractLsb' (8 * i) 8 = offsetOf o.who.core p m i) ∧ v.extractLsb' 1024 128 = m.valid ∧
    v.extractLsb' 1152 896 = 0

/-- msmp.set: the sampling bit, exponent and seed of every macro of B's mask (R192). -/
def SetsSampling (_ : Slot) (o : Operands) (s' s2 : State) (r : Result) : Prop :=
  let n := (o.xa.extractLsb' 0 5).toNat
  n ≤ 24 ∧ o.xa.extractLsb' 9 7 = 0 ∧ o.xa.extractLsb' 5 3 = 0 ∧ o.xa.extractLsb' 32 32 = 0 ∧
    o.xb.toNat < 2 ^ (s'.core o.who.core).macroCount ∧ (∃ word, HasLiteral o s' word) ∧ r = {} ∧
    s2 = pastLiteral o (s'.setCore o.who.core
      ((participants o.xb.toNat).foldl (fun (k : Core) j =>
        let p := (liveAt o s' j).getD 0
        k.setMacro p { k.macroAt p with exponent := n, seed := (o.xa.extractLsb' 16 16).toNat % 2 ^ n,
                                        sampling := o.xa.getLsbD 8 }) (s'.core o.who.core)))

/-- msmp.rd: sampling, exponent, and the counts of skipped picks and violations (R192). -/
def ReadsSampling (_ : Slot) (o : Operands) (s' s2 : State) (r : Result) : Prop :=
  ∃ p, NamesMacro o s' p ∧ s2 = pastLiteral o s' ∧
    let m := (s'.core o.who.core).macroAt p
    r = Result.ofX (BitVec.ofNat 64 ((if m.sampling then 2 ^ 56 else 0) + m.exponent * 2 ^ 48 + min m.skipped 65535 * 2 ^ 32
      + m.violations % 2 ^ 32))

/-! #### C space (R45, R48, R193, R194) -/

/-- B is a lane address for n lanes: a multiple of n below 65,536. -/
def LanesAt (n : Nat) (o : Operands) (s : State) : Prop :=
  o.xb.toNat % n = 0 ∧ o.xb.toNat < 65536 ∧ ∃ word, HasLiteral o s word

/-- MACR: element i of m bits is a view of lane B + i, and nothing stands above the n elements. -/
def ReadsLanes (n m : Nat) (view : Lane → Nat) (_ : Slot) (o : Operands) (s' s2 : State) (r : Result) : Prop :=
  ∃ v : Vec, LanesAt n o s' ∧ s2 = pastLiteral o s' ∧ r = Result.ofV v ∧
    ∀ i, i < n → lane m v i = view (laneAt (s'.core o.who.core) (o.xb.toNat + i))

/-- A bound as MACW writes it (R48). -/
def writtenBound (b : Nat) : Nat := if b / 2 ^ 23 % 256 = 255 ∧ b % 2 ^ 23 ≠ 0 then 0x7F800000 else b % 2 ^ 31

/-- MACW and MACS change n lanes from B on, each from its own old value alone; with LIVE the tiles they lie in are marked
(R160). The states before and after are related lane by lane. -/
def ChangedLanes (n : Nat) (f : Operands → Nat → Lane → Lane × Flags) (w : Slot) (o : Operands) (s' s2 : State) (r : Result) :
    Prop :=
  ∃ (lanes : Tab Word) (live : BitVec 512) (fl : Flags),
    s2 = pastLiteral o (s'.setCore o.who.core { s'.core o.who.core with lanes := lanes, live := live }) ∧ r = { flags := fl } ∧
    (∀ k, Lane.ofWord (tabGet 0 k lanes) =
      if o.xb.toNat ≤ k ∧ k < o.xb.toNat + n then (f o (k - o.xb.toNat) (laneAt (s'.core o.who.core) k)).1
      else laneAt (s'.core o.who.core) k) ∧
    (∀ t, t < 512 → live.getLsbD t =
      ((s'.core o.who.core).live.getLsbD t || (w.f.getLsbD 4 && decide (t = o.xb.toNat / 128)))) ∧
    ∀ b, fl.getLsbD b = true ↔ ∃ i, i < n ∧ (f o i (laneAt (s'.core o.who.core) (o.xb.toNat + i))).2.getLsbD b = true

/-- FP32 element i of A. -/
def floatAt (o : Operands) (i : Nat) : Nat := lane 32 o.a i

/-- A lane address that is no multiple of the count, or not below 65,536, raises 0x104 and changes nothing (R193, R194). -/
def LanesRefused (n : Nat) (_ : Slot) (o : Operands) (s' s2 : State) (code : Nat) (addr : Word) (detail : BitVec 16) : Prop :=
  ¬(o.xb.toNat % n = 0 ∧ o.xb.toNat < 65536) ∧ s2 = s' ∧ code = 0x104 ∧ addr = o.xb ∧ detail = 0

/-! ### K engine (R195 to R204, R253) -/

/-- The transfer control word in xD: LEN, DMASK, RV, SPLIT (R196). -/
def lenOf (tc : Word) : Nat := (tc.extractLsb' 0 24).toNat
def dmaskOf (tc : Word) : BitVec 4 := tc.extractLsb' 24 4
def rvOf (tc : Word) : Nat := (tc.extractLsb' 32 5).toNat
def splitOf (tc : Word) : Bool := tc.getLsbD 40
/-- Reserved fields zero and RV a point or 31, for every slot that reads the word. -/
def ControlLegal (tc : Word) : Prop :=
  tc.extractLsb' 41 23 = 0 ∧ tc.extractLsb' 37 3 = 0 ∧ tc.extractLsb' 28 4 = 0 ∧ (rvOf tc ≤ 23 ∨ rvOf tc = 31)

/-- A copy channel that can take a transfer: no failure unreported, not busy (R197). -/
def Claimable (o : Operands) (s : State) (c : Fin 4) : Prop :=
  let ch := (seqOf o s).channels[c]
  (ch.failed = true → ch.reported = true) ∧ ch.busy = false

/-- A transfer of some bytes is in progress on a channel; one of no bytes has ended (R195, R197, R330). -/
def accepted (o : Operands) (c : Fin 4) (kind : BitVec 2) (t : Transfer) (s : State) : State :=
  let q := seqOf o s
  let ch : Channel :=
    { ptr := t.dst, kind := kind, busy := decide (t.len ≠ 0), stamp := if t.len = 0 then s.stamp else 0,
      transfer := if t.len = 0 then none else some t, scope := t.scope, time := q.time }
  s.setSeq o.who { q with channels := q.channels.set c ch }

/-- An A-space side is within its window at acceptance. -/
def SideChecked (core : Nat) (addr : Word) (len : Nat) (s : State) : Prop := ∃ p, (aCheck core addr.toNat len).on s = (.ok p, s)

/-- The die and serial number of the sequencer's task, and the size of its team. -/
def teamName (o : Operands) (s : State) : Option (Fin 4 × Nat) := (seqOf o s).task.map fun t => (t.die, t.serial)
def teamOf (o : Operands) (s : State) : Nat := ((seqOf o s).task.map TaskRef.size).getD 1

/-- COPY: F[1:0] the channel, F[2] and F[3] the A-space sides (R197). -/
def AcceptsCopy (w : Slot) (o : Operands) (s' s2 : State) (r : Result) : Prop :=
  let tc := o.xd
  let c : Fin 4 := Fin.ofNat 4 (w.f.extractLsb' 0 2).toNat
  let t : Transfer := { src := o.xa, dst := o.xb, len := lenOf tc, srcA := w.f.getLsbD 2, dstA := w.f.getLsbD 3, rv := rvOf tc,
                        split := false, dests := [], mcst := false, scope := o.scope,
                        cores := if w.f.getLsbD 3 then [o.who.core.val] else [], team := teamName o s' }
  ControlLegal tc ∧ dmaskOf tc = 0 ∧ splitOf tc = false ∧
    (w.f.getLsbD 2 = true → SideChecked o.who.core o.xa (lenOf tc) s') ∧
    (w.f.getLsbD 3 = true → SideChecked o.who.core o.xb (lenOf tc) s') ∧
    Claimable o s' c ∧ s2 = accepted o c 1 t s' ∧ r = {}

/-- MCST: DMASK names the receiving ranks, all of the team, whose cores the transfer keeps (R197). -/
def AcceptsMulticast (w : Slot) (o : Operands) (s' s2 : State) (r : Result) : Prop :=
  let tc := o.xd
  let c : Fin 4 := Fin.ofNat 4 (w.f.extractLsb' 0 2).toNat
  let ranks := (List.range 4).filter fun i => (dmaskOf tc).getLsbD i
  let t : Transfer := { src := o.xa, dst := o.xb, len := lenOf tc, srcA := w.f.getLsbD 2, dstA := true, rv := rvOf tc,
                        split := splitOf tc, dests := ranks, mcst := true, scope := o.scope,
                        cores := ranks.map (s'.rankCore o.who), team := teamName o s' }
  ControlLegal tc ∧ (lenOf tc ≠ 0 → dmaskOf tc ≠ 0) ∧
    (splitOf tc = true → rvOf tc + teamOf o s' ≤ 24) ∧ (dmaskOf tc).toNat < 2 ^ teamOf o s' ∧
    (w.f.getLsbD 2 = true → SideChecked o.who.core o.xa (lenOf tc) s') ∧
    (∀ k, k ∈ ranks → SideChecked (s'.rankCore o.who k) o.xb (lenOf tc) s') ∧
    Claimable o s' c ∧ s2 = accepted o c 2 t s' ∧ r = {}

/-- GET and PUT move at most 4,096 bytes, with neither DMASK, SPLIT nor a point (R203). -/
def MoveLegal (tc : Word) : Prop :=
  ControlLegal tc ∧ dmaskOf tc = 0 ∧ splitOf tc = false ∧ lenOf tc ≤ 4096 ∧ rvOf tc = 31

/-- GET: bytes of global memory reach A space. -/
def Gets (_ : Slot) (o : Operands) (s' s2 : State) (r : Result) : Prop :=
  let n := lenOf o.xd
  ∃ (p : Nat) (l : List Byte) (s1 s3 : State), MoveLegal o.xd ∧ (aCheck o.who.core o.xb.toNat n).on s' = (.ok p, s') ∧
    (awaitBin o.who.core true p n).on s' = (.ok (), s') ∧ (checkPages o.who .r o.xa.toNat n).on s' = (.ok (), s1) ∧
    (readGlobal (.seq o.who) o.scope 0 o.xa.toNat n).on s1 = (.ok l, s3) ∧ r = {} ∧
    s2 = s3.setCluster o.cluster ((s3.cluster o.cluster).binWrite p l)

/-- PUT's checks, of its control word, its A-space bytes, its pages and its signal word: p is the place of the bytes. -/
def PutChecked (o : Operands) (s' : State) (p : Nat) (s3 : State) : Prop :=
  let n := lenOf o.xd
  ∃ s1 : State, MoveLegal o.xd ∧ (aCheck o.who.core o.xa.toNat n).on s' = (.ok p, s') ∧
    (awaitBin o.who.core false p n).on s' = (.ok (), s') ∧ (checkPages o.who .w o.xb.toNat n).on s' = (.ok (), s1) ∧
    (if o.xd1 = 0 then s3 = s1
      else ∃ (h : Home) (t : State), (homeWord o .w .atomic o.xd1 8).on s1 = (.ok h, t) ∧
        (checkPoison (.seq o.who) o.xd1.toNat h).on t = (.ok (), s3)) ∧
    (aPoison o.who.core o.xa.toNat p n).on s3 = (.ok (), s3)

/-- PUT: bytes of A space reach global memory; with x(D+1) not 0, one is then added to the signal word there at its home
slice. -/
def Puts (_ : Slot) (o : Operands) (s' s2 : State) (r : Result) : Prop :=
  let n := lenOf o.xd
  let signalled (t u : State) : Prop := ∃ (h : Home) (x : State), (homeWord o .w .atomic o.xd1 8).on t = (.ok h, x) ∧
    let leased := x.homeLease (.seq o.who) (sliceScope o) h 0
    let written := leased.homeWrite (.seq o.who) (sliceScope o) h (leBytes 8 (fromLe (x.homeBytes h 8) + 1)) 0
    u = written.setCluster o.cluster ((written.cluster o.cluster).dropCopy (o.xd1.toNat / 128))
  ∃ (p : Nat) (s3 s4 : State), PutChecked o s' p s3 ∧
    (writeGlobal (.seq o.who) o.scope 0 o.xb.toNat (readBytes (s3.cluster o.cluster).mem p n)).on s3 = (.ok (), s4) ∧
    (if o.xd1 = 0 then s2 = s4 else signalled s4 s2) ∧ r = {}

/-- WPTR: the pointer, the status word or the stamp of channel F[1:0]; the status form marks a failure reported (R200,
R201). -/
def ReadsPointer (w : Slot) (o : Operands) (s' s2 : State) (r : Result) : Prop :=
  s2 = s' ∧ r = Result.ofX ((seqOf o s').channels[(w.f.extractLsb' 0 2).toFin]).ptr
def ReadsStamp (w : Slot) (o : Operands) (s' s2 : State) (r : Result) : Prop :=
  s2 = s' ∧ r = Result.ofX ((seqOf o s').channels[(w.f.extractLsb' 0 2).toFin]).stamp
def ReadsStatus (w : Slot) (o : Operands) (s' s2 : State) (r : Result) : Prop :=
  let q := seqOf o s'
  let c : Fin 4 := (w.f.extractLsb' 0 2).toFin
  let ch := q.channels[c]
  s2 = (if ch.failed then s'.setSeq o.who { q with channels := q.channels.set c { ch with reported := true } } else s') ∧
    r = Result.ofX (0#24 ++ ch.done ++ 0#1 ++ BitVec.ofBool ch.reported ++ BitVec.ofBool ch.failed ++ BitVec.ofBool ch.busy
      ++ ch.kind ++ ch.cause)

/-- The channels of KSYN's mask F[3:0], and is work that it waits for going on (R202)? F[4] names weight loads. -/
def named (w : Slot) (c : Fin 4) : Bool := w.f.getLsbD c.val
def StillBusy (w : Slot) (o : Operands) (s : State) : Prop :=
  (∃ c : Fin 4, named w c = true ∧ ((seqOf o s).channels[c]).busy = true) ∨
    (w.f.getLsbD 4 = true ∧ ∃ l, l ∈ (s.core o.who.core).loads ∧ l.who = o.who)
/-- No failure of a named channel is unreported. -/
def AllReported (w : Slot) (o : Operands) (s : State) : Prop :=
  ∀ c : Fin 4, named w c = true → ((seqOf o s).channels[c]).failed = true → ((seqOf o s).channels[c]).reported = true

def Synchronises (w : Slot) (o : Operands) (s' s2 : State) (r : Result) : Prop :=
  ¬StillBusy w o s' ∧ (raiseDeliveries o ((List.finRange 4).filter (named w))).on s' = (.ok (), s2) ∧ AllReported w o s2 ∧ r = {}
def SynchroniserWaits (w : Slot) (o : Operands) (s' s2 : State) (k : WaitKind) (addr : Word) : Prop :=
  StillBusy w o s' ∧ s2 = s' ∧ k = .ksyn ∧ addr = 0
/-- The lowest named channel with a failure that is not reported raises 0x141, its number in DETAIL, and is reported. -/
def SynchroniserTraps (w : Slot) (o : Operands) (s' s2 : State) (code : Nat) (addr : Word) (detail : BitVec 16) : Prop :=
  ¬StillBusy w o s' ∧ code = 0x141 ∧ addr = 0 ∧ ∃ (c : Fin 4) (s1 : State),
    (raiseDeliveries o ((List.finRange 4).filter (named w))).on s' = (.ok (), s1) ∧
    let q := seqOf o s1
    named w c = true ∧ (q.channels[c]).failed = true ∧ (q.channels[c]).reported = false ∧
    (∀ d : Fin 4, d < c → named w d = true → (q.channels[d]).failed = true → (q.channels[d]).reported = true) ∧
    detail = BitVec.ofNat 16 c.val ∧
    s2 = s1.setSeq o.who { q with channels := q.channels.set c { q.channels[c] with reported := true } }

/-- Does a graph's host queue claim room: a notified entry that has not been read, the queues open, its graph not stopped, no
checkpoint of another queue in progress (R268, R281, R393, R399)? -/
def hostWaits (s : State) (die g : Nat) : Bool :=
  let q := s.host.queues[Fin.ofNat 64 g]
  decide (s.host.bootState = 4 ∧ q.en = true ∧ q.head ≠ q.tail ∧ q.die.toNat = die ∧
    (tabGet {} g (s.die die).graphs).stopped = false ∧
    (s.sirxon.checkpoint = none ∨ s.sirxon.checkpoint = some (Fin.ofNat 64 g)))

/-- Room for an entry of a graph: no submission waits for room, and every other graph with a claim keeps its turn (R268). -/
def roomLeft (s : State) (die g : Nat) : Prop :=
  (s.die die).roomQueue = [] ∧
    (s.die die).table.length + ((List.range 64).filter fun h => h ≠ g && hostWaits s die h).length < Config.tableEntries

/-- TASK and JOB: a record or card that every check passes enters the die's dependency table when there is room for it; D receives
its serial number (R204, R253, R268). -/
def Submits (bytes : Nat) (check : Operands → Nat → List Byte → State → M Entry) (_ : Slot) (o : Operands) (s' s2 : State)
    (r : Result) : Prop :=
  ∃ (l : List Byte) (e : Entry) (s1 s3 : State), (submitBytes o bytes).on s' = (.ok l, s1) ∧
    (check o (s1.graphOf o.who) l s1).on s1 = (.ok e, s3) ∧ roomLeft s3 o.die e.graph ∧
    s2 = s3.setDie o.die ((s3.die o.die).enter e s3.stamp s3.sirxon.stopped) ∧
    r = Result.ofX (BitVec.ofNat 64 (s3.die o.die).nextSerial)
def SubmitterWaits (bytes : Nat) (check : Operands → Nat → List Byte → State → M Entry) (_ : Slot) (o : Operands) (s' s2 : State)
    (k : WaitKind) (addr : Word) : Prop :=
  ∃ (l : List Byte) (e : Entry) (s1 s3 : State), (submitBytes o bytes).on s' = (.ok l, s1) ∧
    (check o (s1.graphOf o.who) l s1).on s1 = (.ok e, s3) ∧
    ¬roomLeft s3 o.die e.graph ∧ k = .room ∧ addr = 0 ∧
    s2 = s3.setDie o.die { s3.die o.die with roomQueue := (s3.die o.die).roomQueue ++ [(o.who, e)] }
def taskCheck (o : Operands) (graph : Nat) (l : List Byte) (_ : State) : M Entry :=
  checkRecord o.die graph (readGlobal (.seq o.who) o.scope 0) l
def jobCheck (o : Operands) (graph : Nat) (l : List Byte) (_ : State) : M Entry :=
  checkCard o.die graph (readGlobal (.seq o.who) o.scope 0) l

/-! ### Y engine (R230 to R256) -/

/-- A point of the sequencer's team, and a state in which it is new. -/
def pointAt (o : Operands) (s : State) (p : Nat) : Point :=
  match s.teamOf o.who with
  | some t => t.points.toList.getD p {}
  | none => {}
def withPoint (o : Operands) (p : Nat) (x : Point) (s : State) : State :=
  match (seqOf o s).task with
  | some t => s.setCluster o.cluster ((s.cluster o.cluster).modTeam t.die t.serial fun g =>
      { g with points := g.points.setIfInBounds p x })
  | none => s

/-- RVIN and rvin.b: a count of 1 to 2^28 − 1 that agrees with what the point already expects; D receives the old state
(R244). -/
def Initialises (bytes : Bool) (w : Slot) (o : Operands) (s' s2 : State) (r : Result) : Prop :=
  let p := pointAt o s' w.b.toNat
  1 ≤ o.xa.toNat ∧ o.xa.toNat < 2 ^ 28 ∧ (p.init = true → p.byteMode = bytes ∧ p.expected = o.xa.setWidth 28) ∧
    r = Result.ofX p.word ∧ s2 = withPoint o w.b.toNat { p with init := true, byteMode := bytes, expected := o.xa.setWidth 28 } s'
def ReadsPoint (w : Slot) (o : Operands) (s' s2 : State) (r : Result) : Prop :=
  s2 = s' ∧ r = Result.ofX (pointAt o s' w.b.toNat).word
def InitialiserTraps (bytes : Bool) (w : Slot) (o : Operands) (s' s2 : State) (code : Nat) (addr : Word) (detail : BitVec 16) : Prop :=
  let p := pointAt o s' w.b.toNat
  let legal := 1 ≤ o.xa.toNat ∧ o.xa.toNat < 2 ^ 28
  s2 = s' ∧ addr = 0 ∧ detail = 0 ∧
    ((¬legal ∧ code = 0x181) ∨
      (legal ∧ p.init = true ∧ ¬(p.byteMode = bytes ∧ p.expected = o.xa.setWidth 28) ∧ code = 0x182))

/-- An arrival of count n (R243): before RVIN it only marks EARLY; else it adds to COUNT, and at EXPECTED the phase turns
over, OVER marking a count beyond it. -/
def arrived (p : Point) (n time : Nat) : Point :=
  let p := { p with time := max p.time time }
  if p.init = false then { p with early := true }
  else if p.count.toNat + n < p.expected.toNat then { p with count := BitVec.ofNat 28 (p.count.toNat + n) }
  else { p with count := 0, phase := !p.phase, overrun := p.overrun || decide (p.expected.toNat < p.count.toNat + n) }

/-- The core's write path passed to the cluster cache: every earlier access performed at cluster scope (R322). -/
def atCluster (o : Operands) (s : State) : State :=
  let path := (s.core o.who.core).writePath
  if path = [] then s
  else (s.setCore o.who.core { s.core o.who.core with writePath := [] }).setCluster o.cluster
    { s.cluster o.cluster with pending := (s.cluster o.cluster).pending ++ path }

/-- ARV: the arrival of a count, after the sequencer's earlier accesses; D receives the old state (R245). A waiting YLD of
the team notes a phase that turned over. -/
def Arrives (count : Operands → Nat) (w : Slot) (o : Operands) (s' s2 : State) (r : Result) : Prop :=
  let n := count o
  let s1 := atCluster o s'
  let p := pointAt o s1 w.b.toNat
  let p' := arrived p n (seqOf o s1).time
  let s3 := withPoint o w.b.toNat p' s1
  1 ≤ n ∧ n < 2 ^ 28 ∧ r = Result.ofX p.word ∧
    s2 = match s1.teamOf o.who, (seqOf o s3).task with
      | some _, some t => if p'.phase = p.phase then s3 else s3.notePhase t.die t.serial
      | _, _ => s1

/-- RVWT: the phase that A's state word shows has passed: status 0, and the sequencer's time covers the point's; 3 when a
pre-emption is pending (R246). -/
def PhasePassed (w : Slot) (o : Operands) (s' s2 : State) (r : Result) : Prop :=
  let p := pointAt o s' w.b.toNat
  p.init = true ∧ p.early = false ∧
    if p.phase ≠ o.xa.getLsbD 61 then
      s2 = s'.setSeq o.who { seqOf o s' with time := max (seqOf o s').time p.time } ∧ r = Result.ofX 0
    else s'.preemptPending o.who = true ∧ s2 = s' ∧ r = Result.ofX 3
def PhaseAwaited (w : Slot) (o : Operands) (s' s2 : State) (k : WaitKind) (addr : Word) : Prop :=
  let p := pointAt o s' w.b.toNat
  p.init = true ∧ p.early = false ∧ p.phase = o.xa.getLsbD 61 ∧ s'.preemptPending o.who = false ∧ s2 = s' ∧ k = .rvwt ∧ addr = 0
/-- A point that is not initialised raises 0x183; one with EARLY 0x184, and EARLY is cleared (R246). -/
def PhaseTraps (w : Slot) (o : Operands) (s' s2 : State) (code : Nat) (addr : Word) (detail : BitVec 16) : Prop :=
  let p := pointAt o s' w.b.toNat
  addr = 0 ∧ detail = 0 ∧
    ((p.init = false ∧ s2 = s' ∧ code = 0x183) ∨
      (p.init = true ∧ p.early = true ∧ s2 = withPoint o w.b.toNat { p with early := false } s' ∧ code = 0x184))

/-- The window of a core, and a core with another. -/
def windowAt (s : State) (core : Nat) (n : BitVec 4) : Window := (s.core core).windows[n.toFin]

/-- GIVE's word: giving window, rank and window of the receiver, arrival point (R238). -/
def giveFrom (g : Word) : BitVec 4 := g.extractLsb' 0 4
def giveRank (g : Word) : Nat := (g.extractLsb' 8 2).toNat
def giveTo (g : Word) : BitVec 4 := g.extractLsb' 16 4
def givePoint (g : Word) : Nat := (g.extractLsb' 24 5).toNat

/-- A give word without reserved bits, with a point or 31, and a rank of the team. -/
def GiveWord (o : Operands) : Prop :=
  let g := o.xa
  g.extractLsb' 29 35 = 0 ∧ g.extractLsb' 20 4 = 0 ∧ g.extractLsb' 10 6 = 0 ∧ g.extractLsb' 4 4 = 0 ∧
    (givePoint g ≤ 23 ∨ givePoint g = 31)

/-- s1 is the state in which every earlier access of a sequencer is performed at the wider of cluster scope and the
bundle's. -/
def EarlierDone (o : Operands) (s' s1 : State) : Prop := (raiseEarlier o.who (Scope.cluster.max o.scope)).on s' = (.ok (), s1)

/-- The giver's window holds a bin that it owns alone, and the receiver's has none. -/
def Movable (o : Operands) (s1 : State) : Prop :=
  let e := windowAt s1 o.who.core (giveFrom o.xa)
  let into := windowAt s1 (s1.rankCore o.who (giveRank o.xa)) (giveTo o.xa)
  e.att = true ∧ e.shr = false ∧ e.drn = false ∧ s1.hasSharers o.cluster e.bin = false ∧ into.att = false ∧ into.inc = false

/-- The reservation step: the receiver's window is incoming, the giver's drains. -/
def reservedFor (o : Operands) (s1 : State) : State :=
  let rc := s1.rankCore o.who (giveRank o.xa)
  let t := s1.setCore rc ((s1.core rc).setWindow (giveTo o.xa).toNat { windowAt s1 rc (giveTo o.xa) with inc := true })
  t.setCore o.who.core ((t.core o.who.core).setWindow (giveFrom o.xa).toNat
    { windowAt s1 o.who.core (giveFrom o.xa) with drn := true })

/-- GIVE reserves, in the state s1 of its earlier accesses (R239). -/
def GiveReserves (o : Operands) (s' s1 : State) : Prop :=
  GiveWord o ∧ giveRank o.xa < teamOf o s' ∧ (seqOf o s').wait = none ∧ EarlierDone o s' s1 ∧ Movable o s1

/-- GIVE completes at once: no access through the giver's window is in flight. -/
def CanGive (_ : Slot) (o : Operands) (s' : State) : Prop :=
  ∃ s1 : State, GiveReserves o s' s1 ∧ (reservedFor o s1).inFlight o.who.core (giveFrom o.xa).toNat = false

/-- The move and the arrival from a state u: the receiver's window has the bin, the giver's is detached, the bin belongs to the
receiver's window, and no byte of any bin changes; the receiver's sequencers that run the task take over the giver's time;
point RV of the team has an arrival of count 1 or of 131,072 bytes, and with RV = 31 no point has (R239, R243, R330). -/
def MovesBin (o : Operands) (u s2 : State) : Prop :=
  let g := o.xa
  let bin := (windowAt u o.who.core (giveFrom g)).bin
  let rc := u.rankCore o.who (giveRank g)
  let time := (seqOf o u).time
  windowAt s2 rc (giveTo g) = { att := true, bin := bin } ∧ windowAt s2 o.who.core (giveFrom g) = {} ∧
    ((s2.cluster o.cluster).bins[bin]).state = .owned (Fin.ofNat 512 rc) (giveTo g).toFin ∧
    (∀ b : Fin 64, b ≠ bin → (s2.cluster o.cluster).bins[b] = (u.cluster o.cluster).bins[b]) ∧
    (s2.cluster o.cluster).mem = (u.cluster o.cluster).mem ∧
    (∀ (k : Fin 2) (t x : TaskRef), (seqOf o u).task = some t → (u.seq ⟨Fin.ofNat 512 rc, k⟩).task = some x → x.die = t.die →
      x.serial = t.serial → (s2.seq ⟨Fin.ofNat 512 rc, k⟩).time = max (u.seq ⟨Fin.ofNat 512 rc, k⟩).time time) ∧
    (givePoint g = 31 → (s2.cluster o.cluster).teams = (u.cluster o.cluster).teams) ∧
    (givePoint g ≠ 31 → (u.teamOf o.who).isSome = true →
      let p := pointAt o u (givePoint g)
      pointAt o s2 (givePoint g) = arrived p (if p.byteMode then 131072 else 1) time)

/-- GIVE's effect. -/
def Gives (_ : Slot) (o : Operands) (s' s2 : State) (r : Result) : Prop :=
  r = {} ∧ ∃ s1 : State, EarlierDone o s' s1 ∧ MovesBin o s1 s2

/-- GIVE begins to drain while an access through the giver's window is in flight: its reservation stands (R237, R239). -/
def GiveDrains (_ : Slot) (o : Operands) (s' s2 : State) (k : WaitKind) (addr : Word) : Prop :=
  ∃ s1 : State, GiveReserves o s' s1 ∧ (reservedFor o s1).inFlight o.who.core (giveFrom o.xa).toNat = true ∧
    s2 = reservedFor o s1 ∧ k = .drain ∧ addr = 0

/-- GIVE's causes in their order: the word 0x0A1, the rank 0x0A2, a detached window 0x081, one that is shared, draining or
shared out 0x0A3, a receiver's window in use 0x0A0; the windows stay (R239). -/
def GiveTraps (_ : Slot) (o : Operands) (s' s2 : State) (code : Nat) (addr : Word) (detail : BitVec 16) : Prop :=
  let e := windowAt s2 o.who.core (giveFrom o.xa)
  let into := windowAt s2 (s2.rankCore o.who (giveRank o.xa)) (giveTo o.xa)
  let shared := e.shr = true ∨ e.drn = true ∨ s2.hasSharers o.cluster e.bin = true
  (seqOf o s').wait = none ∧ addr = 0 ∧ detail = 0 ∧
    ((¬GiveWord o ∧ s2 = s' ∧ code = 0x0A1) ∨
      (GiveWord o ∧ teamOf o s' ≤ giveRank o.xa ∧ s2 = s' ∧ code = 0x0A2) ∨
      (GiveWord o ∧ giveRank o.xa < teamOf o s' ∧ EarlierDone o s' s2 ∧
        ((e.att = false ∧ code = 0x081) ∨ (e.att = true ∧ shared ∧ code = 0x0A3) ∨
          (e.att = true ∧ ¬shared ∧ (into.att = true ∨ into.inc = true) ∧ code = 0x0A0))))

/-- The window that B names, and a state in which it is new. -/
def withWindow (w : Slot) (o : Operands) (x : Window) (s : State) : State :=
  s.setCore o.who.core ((s.core o.who.core).setWindow w.b.toNat x)
def bWindow (w : Slot) (o : Operands) (s : State) : Window := (s.core o.who.core).window w.b.toNat

/-- A bin that is FREE, not held for a task of a reservation (R235, R279), and not marked for retirement: that a marked bin is
passed over is the model's choice (log entry 68). -/
def Unclaimed (k : Cluster) (b : Fin 64) : Prop :=
  (k.bins[b]).state = .free ∧ (k.bins[b]).marked = false ∧ ∀ h, h ∈ k.held → h.2 ≠ b
/-- The bins that due tasks' reservations need beside those that they hold: each holds the bins that become FREE (R279). -/
def owedBins (k : Cluster) : Nat := (k.claims.map fun c => c.2 - (k.held.filter fun h => h.1 = c.1).length).sum
/-- A bin that can be allocated: unclaimed, with at least the owed bins below it (which of them is owed is log entry 68). -/
def Allocatable (k : Cluster) (b : Fin 64) : Prop :=
  Unclaimed k b ∧ ∃ lower : List (Fin 64), lower.Nodup ∧ (∀ c, c ∈ lower → c < b ∧ Unclaimed k c) ∧ owedBins k ≤ lower.length

/-- bmap.alloc and bmap.allocz: the lowest free bin is attached to a window that has none; allocz clears its bytes and their
poison (R235). -/
def Allocates (clear : Bool) (w : Slot) (o : Operands) (s' s2 : State) (r : Result) : Prop :=
  ∃ b : Fin 64, (bWindow w o s').att = false ∧ (bWindow w o s').inc = false ∧ Allocatable (s'.cluster o.cluster) b ∧
    (∀ c : Fin 64, c < b → ¬Allocatable (s'.cluster o.cluster) c) ∧
    let k := (s'.cluster o.cluster).setBin b (.owned o.who.core (Fin.ofNat 16 w.b.toNat))
    let k := if clear then { k with mem := clearBytes k.mem (b.val * 131072) 131072,
                                    poison := k.poison.filter fun u => u / 16384 ≠ b.val } else k
    let x : Window := { att := true, bin := b }
    s2 = withWindow w o x (s'.setCluster o.cluster k) ∧ r = Result.ofX x.word
/-- A window that is attached or incoming raises 0x0A0; no free bin 0x0A4 (R235). -/
def AllocatorTraps (w : Slot) (o : Operands) (s' s2 : State) (code : Nat) (addr : Word) (detail : BitVec 16) : Prop :=
  let busy := (bWindow w o s').att = true ∨ (bWindow w o s').inc = true
  s2 = s' ∧ addr = 0 ∧ detail = 0 ∧
    ((busy ∧ code = 0x0A0) ∨ (¬busy ∧ (∀ b : Fin 64, ¬Allocatable (s'.cluster o.cluster) b) ∧ code = 0x0A4))

/-- bmap.free: a window that is attached, not draining, and either shared or without sharers, and through which nothing is in
flight, is detached; a window's own bin becomes free (R235, R237). -/
def Frees (w : Slot) (o : Operands) (s' s2 : State) (r : Result) : Prop :=
  let e := bWindow w o s'
  let s1 := withWindow w o { e with drn := true } s'
  e.att = true ∧ e.inc = false ∧ e.drn = false ∧ (e.shr = false → s'.hasSharers o.cluster e.bin = false) ∧
    (seqOf o s').wait = none ∧ s1.inFlight o.who.core w.b.toNat = false ∧ r = Result.ofX (Window.word {}) ∧
    s2 = withWindow w o {} (if e.shr then s1 else s1.setCluster o.cluster ((s1.cluster o.cluster).setBin e.bin .free))

/-- bmap.free begins to drain while an access through its window is in flight (R237). -/
def FreeDrains (w : Slot) (o : Operands) (s' s2 : State) (k : WaitKind) (addr : Word) : Prop :=
  let e := bWindow w o s'
  e.att = true ∧ e.inc = false ∧ e.drn = false ∧ (e.shr = false → s'.hasSharers o.cluster e.bin = false) ∧
    (seqOf o s').wait = none ∧ s2 = withWindow w o { e with drn := true } s' ∧
    s2.inFlight o.who.core w.b.toNat = true ∧ k = .drain ∧ addr = 0
/-- bmap.free of a detached window raises 0x081, of an incoming or draining one 0x0A0, of an owned bin that is shared out
0x0A3 (R236). -/
def FreeTraps (w : Slot) (o : Operands) (s' s2 : State) (code : Nat) (addr : Word) (detail : BitVec 16) : Prop :=
  let e := bWindow w o s'
  (seqOf o s').wait = none ∧ s2 = s' ∧ addr = 0 ∧ detail = 0 ∧
    ((e.att = false ∧ e.inc = false ∧ code = 0x081) ∨
      ((e.inc = true ∨ (e.att = true ∧ e.drn = true)) ∧ code = 0x0A0) ∨
      (e.att = true ∧ e.inc = false ∧ e.drn = false ∧ e.shr = false ∧ s'.hasSharers o.cluster e.bin = true ∧ code = 0x0A3))

/-- bmap.share: a window of a rank of the team that is attached, its own and not draining is shared into a window that has
none (R235). -/
def Shares (w : Slot) (o : Operands) (s' s2 : State) (r : Result) : Prop :=
  let g := o.xa
  let rank := (g.extractLsb' 0 2).toNat
  let e := windowAt s' (s'.rankCore o.who rank) (g.extractLsb' 8 4)
  let x : Window := { att := true, shr := true, bin := e.bin }
  (bWindow w o s').att = false ∧ (bWindow w o s').inc = false ∧ g.extractLsb' 12 52 = 0 ∧ g.extractLsb' 2 6 = 0 ∧
    rank < teamOf o s' ∧ e.att = true ∧ e.shr = false ∧ e.drn = false ∧ s2 = withWindow w o x s' ∧ r = Result.ofX x.word
/-- bmap.share into a window in use raises 0x0A0; then a reserved bit of its word 0x0A1, a rank outside the team 0x0A2, a
window that is not attached, is shared or drains 0x0A3 (R236). -/
def ShareTraps (w : Slot) (o : Operands) (s' s2 : State) (code : Nat) (addr : Word) (detail : BitVec 16) : Prop :=
  let g := o.xa
  let busy := (bWindow w o s').att = true ∨ (bWindow w o s').inc = true
  let legal := g.extractLsb' 12 52 = 0 ∧ g.extractLsb' 2 6 = 0
  let rank := (g.extractLsb' 0 2).toNat
  let e := windowAt s' (s'.rankCore o.who rank) (g.extractLsb' 8 4)
  s2 = s' ∧ addr = 0 ∧ detail = 0 ∧
    ((busy ∧ code = 0x0A0) ∨ (¬busy ∧ ¬legal ∧ code = 0x0A1) ∨ (¬busy ∧ legal ∧ teamOf o s' ≤ rank ∧ code = 0x0A2) ∨
      (¬busy ∧ legal ∧ rank < teamOf o s' ∧ (e.att = false ∨ e.shr = true ∨ e.drn = true) ∧ code = 0x0A3))
def ReadsWindow (w : Slot) (o : Operands) (s' s2 : State) (r : Result) : Prop :=
  s2 = s' ∧ r = Result.ofX (bWindow w o s').word

/-! #### Messages, time, pausing, health (R248 to R256) -/

/-- The scope that holds this cluster and a destination (R249). -/
def routeScope (s : State) (o : Operands) (dest : Word) : Scope :=
  let c := (dest.extractLsb' 18 2 ++ dest.extractLsb' 13 5).toNat
  if dest.extractLsb' 20 12 ≠ s.sirxon.package then .fabric
  else if c = o.cluster then .cluster
  else if c / 32 = o.cluster / 32 then .die
  else .package

/-- SEND: the earlier accesses are performed at the scope of the way, then the send register holds the flit (R249). -/
def Sends (_ : Slot) (o : Operands) (s' s2 : State) (r : Result) : Prop :=
  let d := o.xb
  ∃ s1 : State, d.extractLsb' 32 16 = 0 ∧ d.extractLsb' 3 10 = 0 ∧
    (d.extractLsb' 20 12 ≠ s'.sirxon.package → (fabricLink s'.nets (d.extractLsb' 20 12).toNat).isSome = true) ∧
    (raiseEarlier o.who ((routeScope s' o d).max o.scope)).on s' = (.ok (), s1) ∧
    (s1.core o.who.core).sendReg = none ∧ r = {} ∧
    let f : Flit := { payload := o.a.extractLsb' 0 256,
                      src := d.extractLsb' 48 16 ++ 0#16 ++ s'.sirxon.package ++ BitVec.ofNat 20 o.who.core.val,
                      stamp := s1.stamp, time := (seqOf o s1).time }
    s2 = s1.setCore o.who.core { s1.core o.who.core with
      sendReg := some { flit := f, pkg := d.extractLsb' 20 12, cluster := Fin.ofNat 128 (d.extractLsb' 18 2 ++ d.extractLsb' 13 5).toNat,
                        queue := (d.extractLsb' 0 3).toFin, group := o.who.group } }
def SenderWaits (_ : Slot) (o : Operands) (s' s2 : State) (k : WaitKind) (addr : Word) : Prop :=
  let d := o.xb
  d.extractLsb' 32 16 = 0 ∧ d.extractLsb' 3 10 = 0 ∧
    (d.extractLsb' 20 12 ≠ s'.sirxon.package → (fabricLink s'.nets (d.extractLsb' 20 12).toNat).isSome = true) ∧
    (raiseEarlier o.who ((routeScope s' o d).max o.scope)).on s' = (.ok (), s2) ∧
    (s2.core o.who.core).sendReg.isSome = true ∧ k = .send ∧ addr = 0

/-- The queue that B names. -/
def queueAt (w : Slot) : Fin 8 := (w.b.extractLsb' 0 3).toFin

/-- RECV with a flit in its queue and no sequencer before it in line: bytes 0 to 31 the payload, then source and stamp, zero
above; the companion is zero, and the sequencer's time covers the sender's (R250, R330). -/
def Receives (w : Slot) (o : Operands) (s' s2 : State) (r : Result) : Prop :=
  let k := s'.cluster o.cluster
  let n := queueAt w
  ∃ (f : Flit) (rest : List Flit) (v : Vec), k.queues[n] = f :: rest ∧
    ((k.receivers[n]).head? = some o.who ∨ k.receivers[n] = []) ∧
    r = { value := some v, comp := some 0 } ∧
    v.extractLsb' 0 256 = f.payload ∧ v.extractLsb' 256 64 = f.src ∧ v.extractLsb' 320 64 = f.stamp ∧ v.extractLsb' 384 1664 = 0 ∧
    let s1 := s'.setCluster o.cluster { k with queues := k.queues.set n rest, receivers := k.receivers.set n (k.receivers[n]).tail }
    s2 = s1.setSeq o.who { seqOf o s1 with time := max (seqOf o s1).time f.time }
def ReceiverWaits (w : Slot) (o : Operands) (s' s2 : State) (kind : WaitKind) (addr : Word) : Prop :=
  let k := s'.cluster o.cluster
  let n := queueAt w
  let line := if o.who ∈ k.receivers[n] then k.receivers[n] else k.receivers[n] ++ [o.who]
  (k.queues[n] = [] ∨ line.head? ≠ some o.who) ∧ kind = .recv ∧ addr = 0 ∧
    s2 = s'.setCluster o.cluster { k with receivers := k.receivers.set n line }
def ProbesQueue (w : Slot) (o : Operands) (s' s2 : State) (r : Result) : Prop :=
  s2 = s' ∧ r = Result.ofX (BitVec.ofNat 64 ((s'.cluster o.cluster).queues[queueAt w]).length)

/-- TIME (R254): the event stamp; or 0 once it has reached A, 3 when a pre-emption is pending. -/
def ReadsStampNow (_ : Slot) (_ : Operands) (s' s2 : State) (r : Result) : Prop := s2 = s' ∧ r = Result.ofX s'.stamp
def StampReached (_ : Slot) (o : Operands) (s' s2 : State) (r : Result) : Prop :=
  s2 = s' ∧ if o.xa.toNat ≤ s'.stamp.toNat then r = Result.ofX 0 else s'.preemptPending o.who = true ∧ r = Result.ofX 3
def StampAwaited (_ : Slot) (o : Operands) (s' s2 : State) (k : WaitKind) (addr : Word) : Prop :=
  s'.stamp.toNat < o.xa.toNat ∧ s'.preemptPending o.who = false ∧ s2 = s' ∧ k = .time ∧ addr = 0

/-- The status that ends a YLD of n cycles, the highest row of R255 that holds. -/
def yieldStatus (s : State) (who : SeqId) (n : Nat) : Option Nat :=
  let q := s.seq who
  if n = 0 then some 0
  else if s.preemptPending who then some 3
  else if (q.monitor.map Monitor.fired).getD false then some 4
  else if (q.wait.map Wait.phase).getD false then some 2
  else if (q.wait.map Wait.flit).getD false then some 1
  else if q.wait ≠ none ∧ min n Config.waitLimit ≤ s.waited who then some 0
  else none
def YieldEnds (_ : Slot) (o : Operands) (s' s2 : State) (r : Result) : Prop :=
  ∃ n, yieldStatus s' o.who o.xa.toNat = some n ∧ s2 = s' ∧ r = Result.ofX (BitVec.ofNat 64 n)
def YieldWaits (_ : Slot) (o : Operands) (s' s2 : State) (k : WaitKind) (addr : Word) : Prop :=
  yieldStatus s' o.who o.xa.toNat = none ∧ s2 = s' ∧ k = .yld ∧ addr = 0

/-- HLTH's quantities by B (R256): those of the cluster and the part as the task on the core was told them. -/
def quantity (w : Slot) (o : Operands) (s : State) : Word :=
  let cores := ((List.range 4).filter fun i => !(s.core (4 * o.cluster + i)).retired).length
  let bins := ((s.cluster o.cluster).bins.toList.filter fun b => b.state ≠ .spare ∧ b.state ≠ .retired).length
  let told := (s.core o.who.core).told
  match w.b.toNat with
  | 0 => BitVec.ofNat 64 ((told.map Discovered.cores).getD cores)
  | 1 => BitVec.ofNat 64 (((List.range 8).filter fun p => (s.core o.who.core).liveMacros.getLsbD p).length)
  | 2 => BitVec.ofNat 64 ((told.map Discovered.bins).getD bins)
  | 3 => 512
  | 4 => 256
  | 5 => BitVec.ofNat 64 s.sirxon.cap
  | 6 => Config.familyHash
  | 8 => s.sirxon.package.setWidth 64
  | _ => (told.map Discovered.health).getD s.healthWord
def ReadsHealth (w : Slot) (o : Operands) (s' s2 : State) (r : Result) : Prop := s2 = s' ∧ r = Result.ofX (quantity w o s')

/-! ### The machine: prefixes, operands, bundles, frames, stores, traps -/

/-- A prefix slot: the bundle's note changes and the next slot follows (R59, R62, R63, R65). -/
def noted (f : Seq → Bundle → Bundle) (s : State) : State :=
  let t := s.openBundle s.focus
  let q := t.seq s.focus
  t.setSeq s.focus { q with bundle := { f q q.bundle with pos := q.bundle.pos + 1 } }

/-- The state after a lone NOP with S = 1: only VPC has moved (R61). -/
def afterLoneNop (s : State) : State :=
  let q := s.cur
  let r := { q.before with vpc := q.before.vpc + 4 }
  s.setSeq s.focus { q with now := r, before := r, bundle := {}, wait := none }

/-- What a scalar position reads, by its operand code, other than a stream port (R54, R55). -/
def scalarAt (e : Engine) (r : Regs) (code : BitVec 6) : Word :=
  match code.toNat with
  | 32 => r.lx[0]
  | 33 => r.lx[1]
  | 34 => r.lg[0]
  | 35 => r.lg[1]
  | 42 => r.lk
  | 43 => r.ly
  | 47 => (r.held[e.idx]).setWidth 64
  | _ => if code = 0 then 0 else r.x[(code.setWidth 5 : BitVec 5).toFin]

/-- What a vector position reads. -/
def vectorAt (e : Engine) (r : Regs) (code : BitVec 6) : Vec :=
  match code.toNat with
  | 36 => r.lv[0]
  | 37 => r.lv[1]
  | 38 => r.lv[2]
  | 39 => r.lv[3]
  | 40 => r.lm[0]
  | 41 => r.lm[1]
  | 47 => r.held[e.idx]
  | _ => r.v[(code.setWidth 5 : BitVec 5).toFin]

/-- Does one dimension of a stream count: enabled, and bound to a loop that is open (R106)? -/
def counts (r : Regs) (d : Dim) : Bool := d.en && decide (d.level.toNat < r.loops.length)
/-- INDEX of its level, and the index that its stride is taken with. -/
def indexOf (r : Regs) (d : Dim) : Nat := (r.loopAt d.level.toNat).index.toNat
def strideIndex (r : Regs) (d : Dim) : Nat :=
  if d.extent = 0 then indexOf r d else if d.wrap then indexOf r d % d.extent.toNat else indexOf r d
/-- Is the element pad: some dimension that does not wrap is at or past its extent? -/
def isPad (r : Regs) (d : Stream) : Bool :=
  d.dims.toList.any fun k => counts r k && decide (k.extent ≠ 0) && !k.wrap && decide (k.extent.toNat ≤ indexOf r k)
/-- The element's address modulo 2^64. -/
def elementAt (r : Regs) (d : Stream) : Nat :=
  (((d.base.toNat : Int) + (d.dims.toList.map fun k =>
    if counts r k then (strideIndex r k : Int) * k.stride.toInt else 0).sum) % 2 ^ 64).toNat

/-- A sequencer whose registers alone may have changed: everything else of it is as before, but for its bundle's place. -/
def KeepsRest (q p : Seq) : Prop :=
  p.channels = q.channels ∧ p.phase = q.phase ∧ p.task = q.task ∧ p.code = q.code ∧ p.monitor = q.monitor ∧ p.time = q.time ∧
    p.seen = q.seen ∧ p.now.lpc = q.now.lpc ∧ p.now.loops = q.now.loops ∧ p.now.masks = q.now.masks ∧
    p.now.streams = q.now.streams ∧ p.now.round = q.now.round ∧ p.now.mmode = q.now.mmode ∧ p.now.peerSel = q.now.peerSel ∧
    p.now.lg = q.now.lg ∧ p.now.lm = q.now.lm ∧ p.now.lk = q.now.lk ∧ p.now.ly = q.now.ly

/-- Neither a held operand nor a sticky record of another engine has changed; the engine's own held operand only with H. -/
def KeepsEngines (e : Engine) (w : Slot) (q p : Seq) : Prop :=
  (∀ i : Fin 6, i ≠ e.idx → p.now.held[i] = q.now.held[i] ∧ p.now.sticky[i] = q.now.sticky[i]) ∧
    (w.h = false → p.now.held = q.now.held)

/-- A slot that ends no bundle with a HALT or SVC, at no iteration boundary, in no replay, above no trapping slot, and reads no
stream port. -/
def Plain (op : BitVec 7) (w : Slot) (s : State) : Prop :=
  s.cur.bundle.replay = none ∧ s.cur.bundle.trap = none ∧ (w.stop = true → s.cur.bundle.ending = none ∧ s.cur.bundle.boundary = false) ∧
    ∀ fm, form op w s.curLit.isSome = some fm → readsPort fm w = false

/-- Nothing but the sequencer changes, and of it only what a relation between its registers before and after allows. -/
def Frames (mk : Slot → Instr) (op : BitVec 7) (e : Engine) (kept : Slot → Seq → Seq → Prop) : Prop :=
  ∀ (s t : State) (w : Slot), Plain op w s → Fits mk w s → exec (mk w) s = .next t →
    ∃ p : Seq, t = s.setSeq s.focus p ∧ KeepsRest s.cur p ∧ KeepsEngines e w s.cur p ∧ kept w s.cur p

/-- A slot that is performed, with operands o whose reading leads from s to s': in its bundle, or as an entry of a replay in state 0
or 1, whose operands are those of the entry (R66, R218). -/
def Issues (mk : Slot → Instr) (op : BitVec 7) (w : Slot) (fm : Form) (s : State) (o : Operands) (s' : State) : Prop :=
  (Fits mk w s ∧ Performs op w fm s ∧ Reads w fm s o s') ∨
  ∃ (r : Replay) (e : ReplayEntry) (rest : List ReplayEntry), s.cur.bundle.replay = some r ∧ r.entries = e :: rest ∧
    e.state.toNat ≤ 1 ∧ w = Slot.ofWord e.word ∧ (mk w).rowOk e.lit.isSome = true ∧ slotChecks op w e.lit = [] ∧
    imageKindChecks (s.cur.phase = .service) op w = [] ∧ form op w e.lit.isSome = some fm ∧
    (replayOperands s.focus fm e r.loops).on s = (.ok o, s')

/-- The same wherever the slot runs: a stream port read before it, in a replay, with S = 1 before a HALT, an SVC or a boundary. The state
is what its operands' reading left, with the sequencer changed as the relation allows, and then the slot is over. -/
def FramesAll (mk : Slot → Instr) (op : BitVec 7) (e : Engine) (runs : Slot → Operands → State → Prop) (kept : Slot → Seq → Seq → Prop) :
    Prop :=
  ∀ (s s' : State) (w : Slot) (fm : Form) (o : Operands), Issues mk op w fm s o s' → runs w o s' →
    ∃ p : Seq, exec (mk w) s = .next ((s'.setSeq s.focus p).slotDone s.focus w) ∧ KeepsRest (s'.seq s.focus) p ∧
      KeepsEngines e w (s'.seq s.focus) p ∧ kept w (s'.seq s.focus) p ∧ p.now.vpc = (s'.seq s.focus).now.vpc

/-- A slot that completes whatever its operands are. -/
def always (_ : Slot) (_ : Operands) (_ : State) : Prop := True

/-- The slots whose D is an x register, but for CSRR, and those whose D is a v register. -/
def xSlots : List ((Slot → Instr) × BitVec 7) :=
  [(.add, 0x08), (.sub, 0x09), (.and, 0x0A), (.or, 0x0B), (.xor, 0x0C), (.shf, 0x0D), (.mul, 0x0E), (.div, 0x0F), (.mnx, 0x10),
   (.movi, 0x12), (.moviTop, 0x12), (.moviUpper, 0x12), (.movx, 0x13), (.movxSignExtend, 0x13), (.movxZeroExtend, 0x13),
   (.movxSif, 0x13), (.movxUif, 0x13), (.movxFsi, 0x13), (.movxFui, 0x13), (.movxVlane, 0x13), (.movxIdx, 0x13), (.movxCnt, 0x13),
   (.sel, 0x14)]
def vSlots : List ((Slot → Instr) × BitVec 7) :=
  [(.vadd, 0x30), (.vsub, 0x31), (.vmul, 0x32), (.vfma, 0x33), (.vmnx, 0x34), (.vlog, 0x35), (.vshf, 0x36), (.vcvt, 0x37), (.vred, 0x38),
   (.vexp, 0x39), (.vrcp, 0x3A), (.vrsq, 0x3B), (.vsqrt, 0x3B), (.vsel, 0x3D), (.vprm, 0x3E), (.vbrd, 0x3F), (.vbrdImm, 0x3F),
   (.vsca, 0x40), (.vqnt, 0x41), (.vmov, 0x45), (.vmovFp, 0x45), (.vmovExp, 0x45), (.vmovIns, 0x45), (.viot, 0x46), (.vrmx, 0x47)]

/-- D is an x register: of the registers only x[D] (never x0) and the X latches may change. -/
def XResult (w : Slot) (q p : Seq) : Prop :=
  (∀ n, n ≠ w.d ∨ n = 0 ∨ w.n = true → p.now.getX n = q.now.getX n) ∧ p.now.v = q.now.v ∧ p.now.p = q.now.p ∧ p.now.lv = q.now.lv
/-- D is a v register. -/
def VResult (w : Slot) (q p : Seq) : Prop :=
  (∀ n, n ≠ w.d ∨ w.n = true → p.now.getV n = q.now.getV n) ∧ p.now.x = q.now.x ∧ p.now.p = q.now.p ∧ p.now.lx = q.now.lx
/-- D is a predicate: of the latches only those of the slot's own engine may change. -/
def PResult (e : Engine) (dest : Slot → BitVec 7) (w : Slot) (q p : Seq) : Prop :=
  (∀ n, n ≠ dest w ∨ w.n = true → p.now.getP n = q.now.getP n) ∧ p.now.x = q.now.x ∧ p.now.v = q.now.v ∧
    (if e = .x then p.now.lv = q.now.lv else p.now.lx = q.now.lx)
def highPred (w : Slot) : BitVec 7 := w.f.extractLsb' 3 2 ++ w.d

/-- A slot with its result alone in the registers: D and latch 0 as given, everything else of the state as its operands'
reading left it, and the slot over. -/
def Lands (s s' : State) (w : Slot) (e : Engine) (new : Regs → Regs → Prop) (out : Outcome) : Prop :=
  ∃ p : Seq, out = .next ((s'.setSeq s.focus p).slotDone s.focus w) ∧ p.bundle = (s'.seq s.focus).bundle ∧
    p.before = (s'.seq s.focus).before ∧ p.wait = (s'.seq s.focus).wait ∧
    KeepsRest (s'.seq s.focus) p ∧ KeepsEngines e w (s'.seq s.focus) p ∧ p.now.sticky = (s'.seq s.focus).now.sticky ∧
    p.now.vpc = (s'.seq s.focus).now.vpc ∧ new (s'.seq s.focus).now p.now

/-- Byte a of the bins of a cluster. -/
def binByte (s : State) (cluster a : Nat) : Byte := readByte a (s.cluster cluster).mem

/-- An A-space range that an access may touch: inside the 2 MiB of the windows and inside one window, which is attached and
neither draining nor incoming (R114, R233). -/
def InWindow (s : State) (core addr n : Nat) : Prop :=
  let e := (s.core core).windows[addr / 131072 % 16]'(Nat.mod_lt _ (by decide))
  addr < 2 ^ 21 ∧ addr % 131072 + n ≤ 131072 ∧ e.att = true ∧ e.drn = false ∧ e.inc = false
/-- Its place among the bytes of the cluster's bins. -/
def placeIn (s : State) (core addr : Nat) : Nat :=
  ((s.core core).windows[addr / 131072 % 16]'(Nat.mod_lt _ (by decide))).bin.val * 131072 + addr % 131072

/-! #### What a store leaves alone (R326) -/

/-- Where a home lies: among the bytes of the part's DRAM, of host memory, of the other packages. -/
def inDram : Home → Option Nat
  | .dram d pa => some (d * 2 ^ 37 + pa)
  | _ => none
def inHost : Home → Option Nat
  | .host a => some a
  | _ => none
def inFar : Home → Option Nat
  | .far va => some va
  | _ => none

/-- A byte lies outside every piece of a store: a piece has its VA, its length and its home. -/
def Apart (place : Home → Option Nat) (ps : List (Nat × Nat × Option Home)) (a : Nat) : Prop :=
  ∀ (va n lo : Nat) (h : Home), (va, n, some h) ∈ ps → place h = some lo → a < lo ∨ lo + n ≤ a

/-- From u to t no byte of memory outside the pieces changes, no write is queued but one of a piece, and neither a bin, a lane
nor a weight is touched. -/
def StoresOnly (core : Fin 512) (ps : List (Nat × Nat × Option Home)) (u t : State) : Prop :=
  let c := core.val / 4
  (∀ a, Apart inDram ps a → readByte a t.dram = readByte a u.dram) ∧
  (∀ a, Apart inHost ps a → readByte a t.hostMem = readByte a u.hostMem) ∧
  (∀ a, Apart inFar ps a → readByte a t.remote = readByte a u.remote) ∧
  (∀ x : PendingWrite, x ∈ (t.core core).writePath ∨ x ∈ (t.cluster c).pending →
    x ∈ (u.core core).writePath ∨ x ∈ (u.cluster c).pending ∨ ∃ h : Home, (x.va, x.data.length, some h) ∈ ps) ∧
  (∀ k : Fin 512, k ≠ core → (t.core k).writePath = (u.core k).writePath) ∧
  (∀ k : Fin 128, k.val ≠ c → (t.cluster k).pending = (u.cluster k).pending) ∧
  (∀ k : Fin 128, (t.cluster k).mem = (u.cluster k).mem) ∧
  ∀ k : Fin 512, (t.core k).lanes = (u.core k).lanes ∧ (t.core k).wspace = (u.core k).wspace

/-- The registers that no store, AMO or PUT writes. -/
def StoreKeeps (e : Engine) (w : Slot) (q p : Seq) : Prop :=
  p.now.v = q.now.v ∧ p.now.p = q.now.p ∧ p.now.lpc = q.now.lpc ∧ p.now.loops = q.now.loops ∧ p.now.masks = q.now.masks ∧
    p.now.streams = q.now.streams ∧ p.now.round = q.now.round ∧ p.now.mmode = q.now.mmode ∧ p.now.peerSel = q.now.peerSel ∧
    p.now.sticky = q.now.sticky ∧ p.now.lx = q.now.lx ∧ p.now.lv = q.now.lv ∧ p.now.lm = q.now.lm ∧ p.now.lk = q.now.lk ∧
    p.now.ly = q.now.ly ∧ KeepsEngines e w q p

/-- What a VST stores under its mask, or a ST: the ranges of its bytes and the bytes themselves (R113). -/
def storedSpans (op : BitVec 7) (w : Slot) (o : Operands) : List (Nat × Nat) :=
  let addr := (effective o o.xb (storeDisp o)).toNat
  if op = 0x23 then lineSpans addr (scalarBytes w)
  else if w.f.getLsbD 0 = true ∧ o.regs.maskTop ≠ BitVec.allOnes 256 then
    (maskRuns addr o.regs.maskTop).map fun r => ((addr + r.1) % 2 ^ 64, r.2)
  else lineSpans addr 256
def storedBytes (op : BitVec 7) (w : Slot) (o : Operands) : List Byte :=
  let addr := (effective o o.xb (storeDisp o)).toNat
  if op = 0x23 then leBytes (scalarBytes w) o.xa.toNat
  else if w.f.getLsbD 0 = true ∧ o.regs.maskTop ≠ BitVec.allOnes 256 then
    (maskRuns addr o.regs.maskTop).flatMap fun r => ((vecBytes o.a).drop r.1).take r.2
  else vecBytes o.a

/-- A slot with S = 1 ends its bundle with neither a HALT, an SVC nor an iteration boundary. -/
def EndsPlainly (w : Slot) (s : State) : Prop := w.stop = true → s.cur.bundle.ending = none ∧ s.cur.bundle.boundary = false

/-- The trap frame of a trap (R213, R214). -/
def frameOf (q : Seq) (who : SeqId) (d : TrapData) : Frame :=
  { vpc := d.vpc, slot := BitVec.ofNat 3 d.point.slot, cause := d.point.cause, stamp := q.bundle.issued, addr := d.point.addr,
    detail := d.point.detail, resume := d.resume, lpc := q.now.lpc, group := who.group, regs := q.now, entries := d.entries,
    boundary := d.boundary, loops := d.loops }

/-- The other group of a core. -/
def otherOf (who : SeqId) : SeqId := ⟨who.core, 1 - who.group⟩

/-- The service group is empty again: the core issues from the trapped group, which has met what the service group met (R156, R330). -/
def leftService (who : SeqId) (s : State) : State :=
  let o := otherOf who
  let q := s.seq who
  let p := s.seq o
  let k := ((s.core who.core).setSeq who.group q.emptied).setSeq o.group
    { p with time := max p.time q.time, seen := max p.seen q.seen }
  { s.setCore who.core { k with issuing := some o.group } with focus := o }

/-- What a state 2 entry of a replay leaves of its sequencer (R20, R26, R58, R215, R218). That a scalar operand A with code 47 leaves
the held operand as it is, as R58 says, and does not take OPA, as R218 says, is the model's choice (log entry 65). -/
def LandsEntry (fm : Form) (e : ReplayEntry) (q p : Seq) : Prop :=
  let w := Slot.ofWord e.word
  let i := fm.engine.idx
  let low : Word := e.third.setWidth 64
  let latch : Vec := if fm.d = .v then e.third else low.setWidth 2048
  let takes (on : Engine) : Prop := fm.engine = on ∧ fm.result = true
  let flags : Flags := e.xcpt.setWidth 16
  let k := q.now.sticky[i]
  ∃ n : Regs,
    p = { q with now := n,
                 bundle := { q.bundle with raised := q.bundle.raised ++ if flags = 0 then [] else [(i, flags, e.slot)] } } ∧
    (∀ r, n.getX r = if fm.d = .x ∧ w.n = false ∧ r = w.d ∧ r ≠ 0 then low else q.now.getX r) ∧
    (∀ r, n.getV r = if fm.d = .v ∧ w.n = false ∧ r = w.d then e.third else q.now.getV r) ∧
    (∀ r, n.getP r = if w.n = false ∧ ((fm.d = .pred ∧ r = highPred w) ∨ (fm.d = .predLow ∧ r = bankD w)) then e.third.setWidth 256
      else q.now.getP r) ∧
    n.lx = (if takes .x then #v[low, q.now.lx[0]] else q.now.lx) ∧ n.lg = (if takes .g then #v[low, q.now.lg[0]] else q.now.lg) ∧
    n.lv = (if takes .v then #v[latch, q.now.lv[0], q.now.lv[1], q.now.lv[2]] else q.now.lv) ∧
    n.lm = (if e.word.extractLsb' 24 7 = 0x26 then #v[e.third, q.now.lm[0]]
      else if takes .m then #v[latch, q.now.lm[0]] else q.now.lm) ∧
    n.lk = (if takes .k then low else q.now.lk) ∧ n.ly = (if takes .y then low else q.now.ly) ∧
    (∀ j : Fin 6, n.held[j] = if j = i ∧ w.h = true ∧ ¬(fm.a = .scalar ∧ w.a = 47) then e.opa else q.now.held[j]) ∧
    (∀ j : Fin 6, n.sticky[j] = if j = i ∧ flags ≠ 0 then
        (if k.valid = true then { k with cause := k.cause ||| flags }
         else { firstVpc := e.vpc, firstSlot := e.slot, valid := true, cause := flags, stamp := q.bundle.issued })
      else q.now.sticky[j]) ∧
    n.lpc = (if fm.engine = .m then q.now.lpc + 4 else q.now.lpc) ∧ n.vpc = q.now.vpc ∧ n.loops = q.now.loops ∧
    n.masks = q.now.masks ∧ n.streams = q.now.streams ∧ n.round = q.now.round ∧ n.mmode = q.now.mmode ∧ n.peerSel = q.now.peerSel

/-- An access to the trap frame that stops leaves s: a cause, or a request without response that was sent again, ends the task;
whatever else keeps it makes the sequencer wait, with the trap that is still to be taken (R285, R348, R411). -/
def FrameStops (s : State) (who : SeqId) (e : Stop) (pending : Option TrapData) (ended u : State) : Prop :=
  let q := s.seq who
  let waits (sent : Option Sent) : Prop := ∃ p : Wait, p.kind = .frame ∧
    u = s.setSeq who { q with wait := some p, bundle := { q.bundle with frameSent := sent, pendingTrap := pending } }
  match e with
  | .cause _ _ _ => u = ended
  | .wait k _ => (askAgain q.bundle.frameSent k s.cycle = none → u = ended) ∧
      ∀ r, askAgain q.bundle.frameSent k s.cycle = some r → waits (some r)
  | _ => waits q.bundle.frameSent

/-- A group at its first bundle in trap service (R211). -/
def AtService (q : Seq) (t : TaskRef) (cause : Cause) : Prop :=
  q.phase = .service ∧ q.task = some t ∧ q.code = some { die := t.die, slot := none, kernel := 0 } ∧ q.now = q.before ∧
    q.now.vpc = 0 ∧ q.now.lpc = 0 ∧ q.now.loops = [] ∧ q.now.masks = [] ∧ q.now.getX 1 = t.ctx ∧
    q.now.getX 2 = cause.setWidth 64 ∧ (∀ n, n ≠ 1 → n ≠ 2 → q.now.getX n = 0) ∧ q.now.lx = Vector.replicate 2 0 ∧
    q.now.lg = Vector.replicate 2 0 ∧ q.now.lv = Vector.replicate 4 0 ∧ q.now.lm = Vector.replicate 2 0 ∧ q.now.lk = 0 ∧
    q.now.ly = 0 ∧ q.now.held = Vector.replicate 6 0

/-- The canonical form of every memory of the part. -/
def MemoryCanonical (s : State) : Prop :=
  s.dram.wf = true ∧ s.hostMem.wf = true ∧ s.remote.wf = true ∧ (∀ c : Fin 512, (s.core c).wspace.wf = true) ∧
    ∀ k : Fin 128, (s.cluster k).mem.wf = true

/-- A word with fields of an engine slot (R52). -/
def slotWord (stop : Nat) (op n h d a b f : Nat) : BitVec 32 :=
  BitVec.ofNat 32 (stop * 2 ^ 31 + op * 2 ^ 24 + n * 2 ^ 23 + h * 2 ^ 22 + d * 2 ^ 17 + a * 2 ^ 11 + b * 2 ^ 5 + f)

/-! ### Events: what the part does between the slots -/

/-- A waiting slot of a kind goes on and completes wherever a relation holds: its operands are those read at issue. -/
def Resumes (i : SeqId → Instr) (kind : WaitKind) (op : BitVec 7)
    (effect : Slot → Operands → State → State → Result → Prop) : Prop :=
  ∀ (s : State) (who : SeqId) (p : Wait) (fm : Form) (s2 : State) (r : Result),
    (s.seq who).wait = some p → p.kind = kind → p.op = op → form op p.w (s.seq who).waitLit.isSome = some fm →
    effect p.w (waitOperands s who p fm (s.seq who).waitLit) s s2 r →
    exec (i who) s = .next (s2.performed who p.w (waitOperands s who p fm (s.seq who).waitLit) r)

/-- The same, of some next state in which a property holds. -/
def ResumesWith (i : SeqId → Instr) (kind : WaitKind) (op : BitVec 7) (pre : Slot → Operands → State → Prop)
    (post : Slot → Operands → State → State → Result → Prop) : Prop :=
  ∀ (s : State) (who : SeqId) (p : Wait) (fm : Form),
    (s.seq who).wait = some p → p.kind = kind → p.op = op → form op p.w (s.seq who).waitLit.isSome = some fm →
    pre p.w (waitOperands s who p fm (s.seq who).waitLit) s →
    ∃ (s2 : State) (r : Result),
      exec (i who) s = .next (s2.performed who p.w (waitOperands s who p fm (s.seq who).waitLit) r) ∧
        post p.w (waitOperands s who p fm (s.seq who).waitLit) s s2 r

/-- MWT and YLD have two events each: one for their limit, one for everything else. -/
def EndsByEvent (n : Nat) (w : Slot) (o : Operands) (s' s2 : State) (r : Result) : Prop :=
  MonitorEnds w o s' s2 r ∧ monitorStatus s' o.who o.xa.toNat ≠ some n
def EndsByLimit (n : Nat) (w : Slot) (o : Operands) (s' s2 : State) (r : Result) : Prop :=
  MonitorEnds w o s' s2 r ∧ monitorStatus s' o.who o.xa.toNat = some n
def YieldsOnEvent (w : Slot) (o : Operands) (s' s2 : State) (r : Result) : Prop :=
  YieldEnds w o s' s2 r ∧ yieldStatus s' o.who o.xa.toNat ≠ some 0
def YieldsOnTime (w : Slot) (o : Operands) (s' s2 : State) (r : Result) : Prop :=
  YieldEnds w o s' s2 r ∧ yieldStatus s' o.who o.xa.toNat = some 0

/-- A waiting preq.w: 0 once the page is resident, 2 once its request has failed, 3 for a pre-emption, of a page of this package
and of another one (R127). -/
def ResidencyEnds (_ : Slot) (o : Operands) (s' s2 : State) (r : Result) : Prop :=
  let ends (failed : Prop) : Prop := (failed ∧ r = Result.ofX 2) ∨ (¬failed ∧ s2.preemptPending o.who = true ∧ r = Result.ofX 3)
  ((pageState o o.xa.toNat).on s' = (.ok .resident, s2) ∧ r = Result.ofX 0) ∨
  (∃ die page : Nat, (pageState o o.xa.toNat).on s' = (.ok (.away die page), s2) ∧ ends (page ∈ (s2.die die).residencyFailed)) ∨
  ∃ page : Nat, (pageState o o.xa.toNat).on s' = (.ok (.farAway page), s2) ∧ ends (page ∈ s2.nets.refused)

/-- A draining GIVE moves when nothing is in flight through its window any more (R237, R239). -/
def GiveDrained (_ : Slot) (o : Operands) (s' : State) : Prop :=
  let g := o.xa
  let rc := s'.rankCore o.who (giveRank g)
  GiveWord o ∧ s'.inFlight o.who.core (giveFrom g).toNat = false ∧ (windowAt s' o.who.core (giveFrom g)).att = true ∧
    (windowAt s' rc (giveTo g)).att = false ∧ (windowAt s' rc (giveTo g)).inc = true
def GiveMoved (_ : Slot) (o : Operands) (s' s2 : State) (r : Result) : Prop := r = {} ∧ MovesBin o s' s2
/-- A draining bmap.free detaches then. -/
def FreeDrained (w : Slot) (o : Operands) (s' s2 : State) (r : Result) : Prop :=
  let e := bWindow w o s'
  s'.inFlight o.who.core w.b.toNat = false ∧ r = Result.ofX (Window.word {}) ∧
    s2 = withWindow w o {} (if e.shr then s' else s'.setCluster o.cluster ((s'.cluster o.cluster).setBin e.bin .free))

/-- A waiting slot of a kind, of an opcode and past a number of cycles, raises a cause unperformed: its bundle traps at it.
drop is what the wait gives up (a place in a line), with the address and the DETAIL as functions of the wait. -/
def Expires (i : SeqId → Instr) (kind : WaitKind) (ops : BitVec 7 → Prop) (limit code : Nat) (drop : SeqId → State → State)
    (ready : State → SeqId → Wait → Prop) (addr : Wait → Word) (detail : Wait → BitVec 16) : Prop :=
  ∀ (s : State) (who : SeqId) (p : Wait) (fm : Form),
    (s.seq who).wait = some p → p.kind = kind → ops p.op → limit ≤ s.cycle - p.since → ready s who p →
    (s.seq who).bundle.replay = none → form p.op p.w (s.seq who).bundle.lit.isSome = some fm →
    exec (i who) s = .next (((drop who s).trapSlot who p.op fm p.w (s.seq who).bundle.lit (BitVec.ofNat 10 code) (addr p)
      (detail p)).finishSlot who p.w.stop)

/-- What a slot waits for has not come: the relation that made it wait still holds of its operands. -/
def StillAwaits (kind : WaitKind) (rel : Wait → Slot → Operands → State → State → WaitKind → Word → Prop) (s : State) (who : SeqId)
    (p : Wait) : Prop :=
  ∀ fm, form p.op p.w (s.seq who).waitLit.isSome = some fm →
    rel p p.w (waitOperands s who p fm (s.seq who).waitLit) s s kind 0

/-- A queue of a cluster holds no flit for a receiver: as many wait before it as flits stand there (R250). -/
def NoFlitFor (s : State) (who : SeqId) (p : Wait) : Prop :=
  let k := s.cluster (clusterOf who.core)
  let n : Fin 8 := (p.w.b.extractLsb' 0 3).toFin
  (k.queues[n]).length ≤ (k.receivers[n]).idxOf who

/-- A request without response is sent a second time when its limit has passed (R348, R411): the slot issues again. -/
def Resends (i : SeqId → Instr) (kind : WaitKind) (limit : Nat) : Prop :=
  ∀ (s : State) (who : SeqId) (p : Wait), (s.seq who).wait = some p → p.kind = kind → limit ≤ s.cycle - p.since →
    (s.seq who).bundle.resent = false →
    exec (i who) s = .next (s.setSeq who
      { s.seq who with wait := none, bundle := { (s.seq who).bundle with resent := true } })

/-- What the waits give up: nothing; the place in line for room; the places in line for flits. -/
def keepsPlace (_ : SeqId) (s : State) : State := s
def leavesRoom (who : SeqId) (s : State) : State :=
  let n := dieOf who.core
  s.setDie n { s.die n with roomQueue := (s.die n).roomQueue.filter fun e => e.1 ≠ who }
def leavesLine (who : SeqId) (s : State) : State :=
  let c := clusterOf who.core
  s.setCluster c { s.cluster c with receivers := (s.cluster c).receivers.map fun l => l.filter fun w => w ≠ who }
/-- The control word's address of a waiting queue operation: B of QPSH, A of QPOP. -/
def waitedWord (p : Wait) : Word := if p.op = 0x2C then p.opB.setWidth 64 else p.opA.setWidth 64

/-! #### Scheduler -/

/-- The graphs of a die issue: no thermal stop, no checkpoint (R399, R400). -/
def Issuing (s : State) (die : Fin 4) : Prop := s.sirxon.stopped = false ∧ (s.die die).paused = false

/-- The state in which the scheduler chooses: stopped graphs served again, what is free reserved for tasks passed over for an
interval. -/
def choosing (s : State) (die : Fin 4) : State := (s.setDie die ((s.die die).serveAgain s.stamp.toNat)).reserveDue die
/-- The state in which it has looked for a task: those before the choice are passed over. -/
def looked (s : State) (die : Fin 4) : State := (choosing s die).passOver die ((choosing s die).choose die).1

/-- TASK_PLACEMENT: the choice, waiting, gets free cores of a cluster that can take it, and each rank is preloaded. Which of
several clusters is a free value (log entry 13). -/
def Places (s : State) : Prop :=
  ∀ (die : Fin 4) (e : Entry), Issuing s die → ((choosing s die).choose die).2 = some e → e.status = .waiting →
    (looked s die).candidates die e ≠ [] →
    ∃ (c : Nat) (t : State), c ∈ (looked s die).candidates die e ∧ exec (.taskPlacement die) s = .next t ∧
      (t.die die).serveLast = e.graph ∧
      let cores := ((looked s die).freeCores die e.serial c).take e.task.team
      (∃ y : Entry, t.entry die e.serial = some y ∧ y.status = .placed cores) ∧
      ∀ (r : Nat) (k : Fin 512), cores[r]? = some k →
        (t.seq ⟨k, 0⟩).phase = .ready ∧ (t.seq ⟨k, 0⟩).task = some (taskRef die e r) ∧
        (t.seq ⟨k, 0⟩).code = some { die := die, slot := some (e.task.handle.toNat / 2 ^ 12 % 2 ^ 12),
                                      kernel := e.task.handle.toNat % 2 ^ 12 }

/-- TEAM_START of a placed task whose graph is not stopped: every rank starts at VPC 0 with x1, x2 and x3 the arguments, the rank
and the team's size, the team takes a slot of its sync unit, and the entry runs from now on (R13, R241, R280). -/
def Starts (s : State) : Prop :=
  ∀ (die : Fin 4) (serial : Nat) (e : Entry) (cores : List (Fin 512)), Issuing s die →
    s.entry die serial = some e → e.status = .placed cores → ((s.die die).graph e.graph).stopped = false → cores.Nodup →
    ∃ t : State, exec (.teamStart die serial) s = .next t ∧ t.sirxon.anyIssued = true ∧
      (∃ y : Entry, t.entry die serial = some y ∧ y.status = .running cores ∧ y.start = s.stamp ∧ y.since = s.stamp) ∧
      ((∃ i : Fin 4, (s.cluster (clusterOf (cores.headD 0))).teams[i] = none) →
        ∃ i : Fin 4, (t.cluster (clusterOf (cores.headD 0))).teams[i] = some { die := die, serial := serial, cores := cores }) ∧
      ∀ (r : Nat) (k : Fin 512), cores[r]? = some k →
        let q := t.seq ⟨k, 0⟩
        q.phase = .running ∧ q.now = q.before ∧ q.now.vpc = 0 ∧ q.now.lpc = 0 ∧ q.now.getX 1 = e.task.args ∧
        q.now.getX 2 = BitVec.ofNat 64 r ∧ q.now.getX 3 = BitVec.ofNat 64 e.task.team ∧ q.now.loops = [] ∧ q.now.masks = [] ∧
        (t.core k).issuing = some 0 ∧ (t.core k).live = 0 ∧ (t.core k).windows = Vector.replicate 16 {}

/-- AGING_INTERVAL_EXPIRY: one level more, and the clock goes on from there (R278). -/
def Ages (s : State) : Prop :=
  ∀ (die : Fin 4) (g : Fin 64) (l t : Nat), (s.die die).level g = some l → l < 3 → ((s.die die).graph g).clock = some t →
    t + s.sirxon.aging.toList.getD (min l 3) Config.agingNs ≤ s.stamp.toNat →
    exec (.agingIntervalExpiry die g) s = .next (s.setDie die ((s.die die).setGraph g
      { (s.die die).graph g with raised := ((s.die die).graph g).raised + 1,
                                 clock := some (t + s.sirxon.aging.toList.getD (min l 3) Config.agingNs) }))

/-- SOFT_PREEMPTION: the graph is stopped, and its clock stands (R281); a task of it that is placed and has not started goes back
(log entry 13). -/
def StopsGraph (s : State) : Prop :=
  ∀ (die : Fin 4) (g : Fin 64) (t : Nat), ((s.die die).graph g).clock = some t → (s.die die).outranked g = true →
    ((s.die die).graph g).stopped = false →
    exec (.softPreemption die g) s = .next ((s.setDie die ((s.die die).setGraph g
      { (s.die die).graph g with stopped := true, clock := none, elapsed := s.stamp.toNat - t })).takeBack die g)

/-- PLACEMENT_CORE_RESERVATION: every free core of the chosen cluster is reserved for the first task that was passed over for
an aging interval; a core that is reserved already stays so, and no task, graph or setting changes (R279). -/
def Reserves (s : State) : Prop :=
  ∀ die : Fin 4, ∃ t : State, exec (.placementCoreReservation die) s = .next t ∧ t.dies = s.dies ∧ t.sirxon = s.sirxon ∧
    (∀ k : Fin 512, (s.core k).reserved ≠ none → (t.core k).reserved = (s.core k).reserved) ∧
    ∀ (e : Entry) (rest : List Entry) (c : Nat), s.overdue die = e :: rest → s.chosenCluster die e = some c →
      ∀ k : Fin 512, k ∈ s.freeCores die e.serial c → (t.core k).reserved = some e.serial

/-- TABLE_ROOM_GRANT: the next graph in line with a TASK or JOB that waits: it enters the table, and its slot completes with
the serial number; a task whose image has gone raises 0x201 instead; a graph without one has the head of its host queue
served, and where that has to wait the graphs after it have their turn (R268, R271, R312). -/
def GrantsRoom (s : State) : Prop :=
  ∀ (die : Fin 4) (g : Nat), (s.die die).table.length < 4096 → (roundRobin (s.die die).roomLast).find? (s.claims die) = some g →
    (∀ (who : SeqId) (e : Entry) (p : Wait) (fm : Form),
      ((s.die die).roomQueue.find? fun x => x.2.graph = g) = some (who, e) → (s.seq who).wait = some p → p.kind = .room →
      form p.op p.w (s.seq who).waitLit.isSome = some fm →
      let d : Die := { s.die die with roomQueue := (s.die die).roomQueue.erase (who, e) }
      let s1 := s.setDie die (d.enter e s.stamp s.sirxon.stopped)
      let s2 := s.setDie die d
      (e.card.isSome = true ∨ ((s.die die).kernelOf e.task.handle).isSome = true →
        exec (.tableRoomGrant die) s = .next (s1.performed who p.w (waitOperands s1 who p fm (s.seq who).waitLit)
          (Result.ofX (BitVec.ofNat 64 (s.die die).nextSerial)))) ∧
      (e.card = none → (s.die die).kernelOf e.task.handle = none → (s.seq who).bundle.replay = none →
        exec (.tableRoomGrant die) s = .next
          ((s2.trapSlot who p.op fm p.w (s.seq who).bundle.lit 0x201 0 0).finishSlot who p.w.stop))) ∧
    (((s.die die).roomQueue.find? fun x => x.2.graph = g) = none →
      let q : Fin 64 := Fin.ofNat 64 g
      let t := s.serve q (entryKind (s.headType q))
      exec (.tableRoomGrant die) s = .next (if (t.host.queues[q]).head ≠ (s.host.queues[q]).head then t else
        grantRoom die (((roundRobin (s.die die).roomLast).dropWhile (· ≠ g)).drop 1) t))

/-- COMPLETION_RECORD_WRITE: once the task's accesses are performed and its weight loads have read their sources, the record of an
entry that has ended is written, then the entry leaves its table, and an end in STATE 2 to 4 cancels the entries that waited on
it (R276, R288). -/
def Records (s : State) : Prop :=
  ∀ (die : Fin 4) (serial : Nat) (e : Entry) (f : EndInfo) (s1 s2 : State),
    s.entry die serial = some e →
    (e.status = .ended f ∨ (e.status = .waiting ∧ e.cancelled = true ∧
      f = { state := 4, cause := 0x203, unit := 0, wmark := 0, pstatus := 0, whereC := 0, stamp := s.stamp })) →
    s.stillReads e = false → e.due ≤ s.cycle → s.settle die e = (s1, true) →
    s1.putRecord die e.compl serial
      (recordHead serial e.card e.start ((f.state = 2 || f.state = 3) && e.regions.any fun r => r.wr) f) = (s2, true) →
    ∃ t : State, exec (.completionRecordWrite die serial) s = .next t ∧ t.entry die serial = none ∧
      (∀ y, y ∈ (t.die die).table → serial ∉ y.preds) ∧
      (e.card ≠ some 0x02 ∨ f.state = 1 → t.dram = s2.dram ∧ t.hostMem = s2.hostMem ∧
        ∀ x, x ∈ (s2.die die).table → x.serial ≠ serial → x.card ≠ some 0x02 →
          (if serial ∈ x.preds then
            { x with preds := x.preds.filter fun p => p ≠ serial, cancelled := x.cancelled || decide (f.state ≠ 1) }
           else x) ∈ (t.die die).table)

/-- The group that a core issues from when one of its groups has ended: the other one when a task is ready there (R156). -/
def nextGroup (s : State) (who : SeqId) : Option (Fin 2) :=
  if (s.seq (otherOf who)).phase = .ready then some (otherOf who).group else none

/-- RANK_HALT_COMPLETE: a HALT that waited ends its rank once its transfers are over and its send register is empty (R99), and
the core goes to its other group when a task is ready there, else to the scheduler (R156). -/
def Halts (s : State) : Prop :=
  ∀ (who : SeqId) (p : Wait) (f : Option FailInfo) (t : TaskRef), (s.seq who).wait = some p → p.kind = .halt →
    (s.seq who).bundle.ending = some (.halt f) → (s.seq who).task = some t →
    (∀ c : Fin 4, ((s.seq who).channels[c]).busy = false ∧
      (((s.seq who).channels[c]).failed = true → ((s.seq who).channels[c]).reported = true)) →
    (s.core who.core).sendReg = none →
    ∃ u : State, exec (.rankHaltComplete who) s = .next u ∧ (u.seq who).phase = .empty ∧ (u.seq who).task = none ∧
      (u.seq who).wait = none ∧ (u.core who.core).live = 0 ∧ (u.core who.core).issuing = nextGroup s who

/-! #### Hard pre-emption (R282 to R286) -/

/-- HARD_PREEMPTION_SAVE: with every rank at rest its areas are written, its bins parked and its cores freed; the entry is
saved. An area that cannot be written ends the task with 0x205 (R285). -/
def Saves (s : State) : Prop :=
  ∀ (die : Fin 4) (serial : Nat) (e : Entry) (cores : List (Fin 512)) (s1 : State),
    let c := clusterOf (cores.headD 0)
    s.entry die serial = some e → e.status = .running cores → s.saveReady e cores = true →
    s.settleCluster die c = (s1, true) →
    let points := match (s1.cluster c).team die serial with
      | some t => t.points.toList
      | none => []
    let top := cores.foldl (fun m k => let q := s1.seq (s1.rankSeq die serial k); max m (max q.savedTime q.seen)) 0
    let run := writeAreas die e points cores.zipIdx
      (s1.setDie die { s1.die die with schedTime := max (s1.die die).schedTime top })
    (∀ s2, run = .ok () s2 → (s2.entry die serial).isSome = true →
      ∃ t : State, exec (.hardPreemptionSave die serial) s = .next t ∧ t.dram = s2.dram ∧
        (∃ y, t.entry die serial = some y ∧ y.status = .saved (Fin.ofNat 128 c) false ∧ y.preempt = false ∧ y.stopped = [] ∧
          y.saved.length = cores.length) ∧
        ∀ k : Fin 512, k ∈ cores → (t.core k).windows = Vector.replicate 16 {} ∧ (t.core k).live = 0 ∧
          ((s2.core k).g0.phase ≠ .ready → (s2.core k).g1.phase ≠ .ready → (t.core k).issuing = none)) ∧
    ∀ (s2 : State) (r : Nat) (y : Entry), run = .fails s2 r → s2.entry die serial = some y → y.failure = none →
      ∃ (t : State) (z : Entry) (f : EndInfo), exec (.hardPreemptionSave die serial) s = .next t ∧ t.entry die serial = some z ∧
        z.status = .ended f ∧ f.cause = 0x205

/-- TASK_RESUME: the saved task that the scheduler chooses runs again on free cores of a cluster, where its areas are sound: each
rank that had not halted with the registers of its area (R283, R417). -/
def ResumesTask (s : State) : Prop :=
  ∀ (die : Fin 4) (e : Entry) (c : Fin 128) (evicted : Bool) (cl : Nat) (areas : List Area) (s1 s2 : State), Issuing s die →
    ((choosing s die).choose die).2 = some e → e.status = .saved c evicted →
    (looked s die).pickCluster ((looked s die).candidates die e) = some (cl, s1) →
    readAreas die e (if evicted then 2 else 1) e.saved s1 = .ok areas s2 →
    (∀ p, p ∈ e.parked → e.copies cl = true → (s2.parkedBin die e.serial c evicted p).2 = []) →
    (s2.entry die e.serial).isSome = true →
    let cores := (s1.freeCores die e.serial cl).take e.task.team
    ∃ t : State, exec (.taskResume die e.serial) s = .next t ∧ (t.die die).serveLast = e.graph ∧
      (∃ y, t.entry die e.serial = some y ∧ y.status = .running cores ∧ y.since = s2.stamp ∧ y.saved = []) ∧
      ∀ (r : Nat) (k : Fin 512) (a : Area), cores.Nodup → cores[r]? = some k → areas[r]? = some a → r ∉ e.halted →
        (t.seq ⟨k, 0⟩).phase = .running ∧ (t.seq ⟨k, 0⟩).now = a.regs ∧ (t.seq ⟨k, 0⟩).before = a.regs ∧
        (t.core k).issuing = some 0

/-- PARKED_BIN_EVICTION: the parked bins of a saved task go to Sirxon's memory under a handle other than 0, become free, and
the entry knows the handle (R283). -/
def Evicts (s : State) : Prop :=
  ∀ (die : Fin 4) (serial : Nat) (handle : Word) (e : Entry) (c : Fin 128) (s1 : State),
    s.entry die serial = some e → e.status = .saved c false → handle ≠ 0 → e.parked ≠ [] →
    s.tryFor die serial (writeEvicted e handle e.saved) = .ok () s1 → (s1.entry die serial).isSome = true →
    ∃ t : State, exec (.parkedBinEviction die serial handle) s = .next t ∧ t.dram = s1.dram ∧
      (∀ p, p ∈ e.parked → ((t.cluster c).bins[p.2.1]).state = .free) ∧
      ∃ y, t.entry die serial = some y ∧ y.status = .saved c true ∧ ∀ r, r ∈ y.saved → r.evict = handle

/-! #### Cards (R274, R357, R373 to R382, R413 to R415) -/

/-- The end of a card: its unit's time enters the scheduler's, and the entry has its STATE, cause, bytes and stamp (R288, R330). -/
def cardOver (die serial : Nat) (cause : Option Cause) (bytes : Nat) (t : State) : State :=
  let u := match t.entry die serial with
    | some e => t.endUnit die (e.unit die)
    | none => t
  u.modEntry die serial fun y =>
    { y with status := .ended { state := if cause = none then 1 else if bytes = 0 then 2 else 3, cause := cause.getD 0, unit := 1,
                                wmark := bytes, pstatus := 0, whereC := 0, stamp := u.stamp },
             start := if y.start = 0 then u.stamp else y.start }

/-- A card of a kind is in progress at its engine, or the engine is free and takes it next (R279). -/
def AtEngine (s : State) (die : Fin 4) (serial : Nat) (kind : BitVec 8) (e : Entry) : Prop :=
  s.entry die serial = some e ∧ e.card = some kind ∧
    (e.status = .issued ∨ (e.cardReady = true ∧ (∀ y, y ∈ (s.die die).table → y.card = some kind → y.status ≠ .issued) ∧
      ∃ x : Entry, x.serial = serial ∧ s.nextCard die (fun y => decide (y.card = some kind)) = some x))

/-- DIE_COPY_CARD: the run of its bytes ends, or a cause stops it at a watermark, or it waits with the bytes done so far (R274,
R289); a retired engine ends it with 0x150 (R273). -/
def CopiesCard (s : State) : Prop :=
  ∀ (die : Fin 4) (serial : Nat) (e : Entry), AtEngine s die serial 0x01 e →
    let src := (wordAt e.cardBytes 0x40).toNat
    let dst := (wordAt e.cardBytes 0x48).toNat
    let len := (wordAt e.cardBytes 0x50).toNat
    let run := copyRun die serial src dst len len e.doneBytes (s.issueCard die e)
    if (s.die die).retiredEngines.contains 0x01 = true then
      exec (.dieCopyCard die serial) s = .next (cardOver die serial (some 0x150) e.doneBytes (s.issueCard die e))
    else
      (∀ t, run = .done t → exec (.dieCopyCard die serial) s = .next (cardOver die serial none len t)) ∧
      (∀ (t : State) (off : Nat) (code : Cause), run = .fails t off code →
        exec (.dieCopyCard die serial) s = .next (cardOver die serial (some code) off
          (suspectRun die src dst t.free ((List.range (len - off)).map (off + ·)) { t with free := t.free + 1 }))) ∧
      ∀ (t : State) (off : Nat), run = .blocked t off →
        exec (.dieCopyCard die serial) s = .next (t.modEntry die serial fun y => { y with doneBytes := off })

/-- The six collectives and their OP codes (R413). -/
def collectives : List ((Fin 4 → Nat → Instr) × Nat) :=
  [(.collectiveSumFp32, 0), (.collectiveSumBf16, 1), (.collectiveMax, 2), (.collectiveMin, 3), (.collectiveSumInt32, 4),
   (.collectiveBroadcast, 5)]

/-- A member's card ends with a cause: what it has not written of DST is suspect (R415). -/
def memberOver (cause : Cause) (t : State) (m : Member) : State :=
  cardOver m.die m.entry.serial (some cause) m.entry.doneBytes (t.suspectDst m.die m.card.dst m.card.len m.entry.doneBytes)

/-- The contributions to a group are used up. -/
def partsUsed (tag : Nat) (list : List Nat) (t : State) : State :=
  { t with contributions := t.contributions.filter fun r => !(r.tag = tag && r.list = list) }

/-- A collective in progress whose member list is list. -/
def Gathering (s : State) (die : Fin 4) (serial op : Nat) (e : Entry) (list : List Nat) (s0 : State) : Prop :=
  s.entry die serial = some e ∧ e.card = some 0x02 ∧ e.status = .issued ∧ (Collective.ofCard e.cardBytes).op = op ∧
    s.tryFor die serial (readMembers die (Collective.ofCard e.cardBytes)) = .ok list s0

/-- A collective: once every member has issued, alike, and the sources can be read, the result stands for all of them and goes to
every DST; one that waited while it wrote goes on, or ends with 0x283 where a member's package gives no response any more. Members
that differ in OP or LEN end with 0x285; with one of them lost they end with 0x283; where a SRC cannot be read its member ends
with the cause and the others with 0x283 (R414, R415). -/
def Collects (s : State) : Prop :=
  ∀ (i : Fin 4 → Nat → Instr) (op : Nat), (i, op) ∈ collectives →
    ∀ (die : Fin 4) (serial : Nat) (e : Entry) (list : List Nat) (s0 : State), Gathering s die serial op e list s0 →
      let k := Collective.ofCard e.cardBytes
      let lost := list.any (s0.memberLost die k.tag list)
      let here := localMembers ((list.map (s0.partOf k.tag list)).filterMap id)
      (e.gathered = none → lost = true → exec (i die serial) s = .next (partsUsed k.tag list (here.foldl (memberOver 0x283) s0))) ∧
      (∀ l, e.gathered = some l →
        (list.any (s0.memberSilent die) = false → exec (i die serial) s = .next (s0.writeMembers l [⟨die, e, k⟩])) ∧
        (list.any (s0.memberSilent die) = true → exec (i die serial) s = .next (memberOver 0x283 s0 ⟨die, e, k⟩))) ∧
      ∀ ps : List Part, e.gathered = none → lost = false → list.map (s0.partOf k.tag list) = ps.map some →
        (∃ m, m ∈ here ∧ m.die = die ∧ m.entry.serial = serial) →
        ((∃ p, p ∈ ps ∧ (p.op ≠ k.op ∨ p.len ≠ k.len)) →
          exec (i die serial) s = .next (partsUsed k.tag list (here.foldl (memberOver 0x285) s0))) ∧
        ((∀ p, p ∈ ps → p.op = k.op ∧ p.len = k.len) →
          (∀ (srcs : List (List Byte)) (s1 : State), readParts ps s0 = .ok srcs s1 →
            let l := collectiveResult k.op k.len srcs
            exec (i die serial) s = .next (partsUsed k.tag list
              ((here.foldl (fun (t : State) m => t.modEntry m.die m.entry.serial fun y => { y with gathered := some l }) s1).writeMembers
                l here))) ∧
          ∀ (s1 : State) (m : Member) (c : Cause), readParts ps s0 = .fails s1 m c →
            exec (i die serial) s = .next (partsUsed k.tag list
              (memberOver c ((here.filter fun x => x.die ≠ m.die).foldl (memberOver 0x283) s1) m)))

/-- COLLECTIVE_WAIT_LIMIT: with LIMIT ms gone and some member not issued, this card ends with 0x284 and the local members
that wait with it with 0x283 (R415). -/
def CollectiveExpires (s : State) : Prop :=
  ∀ (die : Fin 4) (serial : Nat) (e : Entry) (list : List Nat) (s0 : State),
    let k := Collective.ofCard e.cardBytes
    let parts := list.map (s.partOf k.tag list)
    s.entry die serial = some e → e.card = some 0x02 → e.status = .issued → e.gathered = none →
    e.since.toNat + k.limit * 1000000 ≤ s.stamp.toNat → (readMembers die k).on s = (.ok list, s0) → none ∈ parts →
    exec (.collectiveWaitLimit die serial) s = .next (partsUsed k.tag list (memberOver 0x284
      (((localMembers (parts.filterMap id)).filter fun m => m.die ≠ die).foldl (memberOver 0x283) s) ⟨die, e, k⟩))

/-- A BANKMAC or ATTN card holds the compute phase of its pseudo-channel. -/
def HoldsPhase (s : State) (die : Fin 4) (serial n : Nat) (kind : BitVec 8) (e : Entry) : Prop :=
  s.entry die serial = some e ∧ e.card = some kind ∧ e.status = .issued ∧ e.towerPc die = some n ∧
    (s.pcAt n).compute = true ∧ (s.pcAt n).card = some (die, serial)

/-- The phase of a card is over. -/
def phaseEnded (p : Pc) : Pc :=
  { p with compute := false, card := none, yielded := false, queuedAt := none, held := [], parity := false }
def phaseOver (n : Nat) (t : State) : State := t.setPcAt n (phaseEnded (t.pcAt n))

/-- A card of a pseudo-channel fails: its phase is over and its units hold nothing (R383). -/
def towerFails (die serial n : Nat) (cause : Cause) (t : State) : State :=
  cardOver die serial (some cause) 0 (t.setPcAt n { phaseEnded (t.pcAt n) with live := false })
/-- The same at a parity error, which retires the units. -/
def towerBreaks (die serial n : Nat) (t : State) : State :=
  cardOver die serial (some 0x2C1) 0 (t.setPcAt n { phaseEnded (t.pcAt n) with live := false, retired := true })

/-- The state for a card's own accesses: its phase is lifted. -/
def lifted (n : Nat) (s : State) : State := s.setPcAt n { s.pcAt n with compute := false, held := [] }

/-- BANKMAC: its steps run, and the card ends with four bytes for each bank's accumulator; a parity error fails it with 0x2C1 and
retires the units, a cause of the steps with that cause, retired units with 0x150 (R273, R373, R383). -/
def MultipliesBanks (s : State) : Prop :=
  ∀ (die : Fin 4) (serial n : Nat) (parity : Bool) (e : Entry), HoldsPhase s die serial n 0x10 e →
    let b := BankMac.ofCard e.cardBytes
    let run := (lifted n s).tryFor die serial (bankmacWork die n b)
    ((s.pcAt n).retired = true → exec (.bankmac die serial parity) s = .next (towerFails die serial n 0x150 s)) ∧
    ((s.pcAt n).retired = false →
      (∀ t, run = .ok () t → (parity || (s.pcAt n).parity) = false →
        exec (.bankmac die serial parity) s = .next (cardOver die serial none (4 * b.nacc * b.banks.length) (phaseOver n t))) ∧
      (∀ t, run = .ok () t → (parity || (s.pcAt n).parity) = true →
        exec (.bankmac die serial parity) s = .next (towerBreaks die serial n s)) ∧
      ∀ (t : State) (c : Cause), run = .fails t c → exec (.bankmac die serial parity) s = .next (towerFails die serial n c t))

/-- The bank units of a pseudo-channel are zero and not live (R379). -/
def unitsCleared (n : Nat) (t : State) : State := t.setPcAt n { t.pcAt n with regs := [], acc := [], live := false }

/-- ATTN: as BANKMAC, but however it ends the bank units are zero and the live flag clear (R379). -/
def Attends (s : State) : Prop :=
  ∀ (die : Fin 4) (serial n : Nat) (parity : Bool) (e : Entry), HoldsPhase s die serial n 0x11 e →
    let a := Attention.ofCard e.cardBytes
    let run := (lifted n s).tryFor die serial (do
      attnWork die n a
      modify (unitsCleared n))
    ((s.pcAt n).retired = true →
      exec (.attn die serial parity) s = .next (unitsCleared n (towerFails die serial n 0x150 s))) ∧
    ((s.pcAt n).retired = false →
      (∀ t, run = .ok () t → (parity || (s.pcAt n).parity) = false →
        exec (.attn die serial parity) s = .next (cardOver die serial none (4 * a.hd + 8) (phaseOver n t))) ∧
      (∀ t, run = .ok () t → (parity || (s.pcAt n).parity) = true →
        exec (.attn die serial parity) s = .next (unitsCleared n (towerBreaks die serial n s))) ∧
      ∀ (t : State) (c : Cause), run = .fails t c →
        exec (.attn die serial parity) s = .next (unitsCleared n (towerFails die serial n c t)))

/-- Byte i of row k of a page: offset bits [13:9] are k (R381). -/
def rowByte (die page k i : Nat) : Nat := die * 2 ^ 37 + page + 512 * k + 16384 * (i / 512) + i % 512

/-- A row card that is ready and next at the row units issues: its pages are checked at issue, a cause ends it with no byte done
(R380). -/
def RowCardsIssue (s : State) : Prop :=
  ∀ (i : Fin 4 → Nat → Bool → Instr) (kind : BitVec 8) (copies : Bool),
    (i, kind, copies) ∈ [(Instr.rowzero, 0x12, false), (.rowcopy, 0x13, true)] →
    ∀ (die : Fin 4) (serial : Nat) (parity : Bool) (e x : Entry), s.entry die serial = some e → e.card = some kind → e.cardReady = true →
      e.status ≠ .issued → s.nextCard die Entry.isRow = some x → x.serial = serial → (s.die die).retiredEngines.contains kind = false →
      let run := s.tryFor die serial (rowPages die copies (RowCard.ofCard e.cardBytes))
      (∀ (l : List (Nat × Nat)) (t : State), run = .ok l t → (t.entry die serial).isSome = true →
        ∃ u : State, exec (i die serial parity) s = .next u ∧ u.dram = t.dram ∧
          ∃ y, u.entry die serial = some y ∧ y.status = .issued ∧ y.pages = l ∧ y.start = t.stamp) ∧
      ∀ (t : State) (c : Cause) (y : Entry), run = .fails t c → t.entry die serial = some y →
        ∃ (u : State) (z : Entry) (f : EndInfo), exec (i die serial parity) s = .next u ∧ u.entry die serial = some z ∧
          z.status = .ended f ∧ f.cause = c ∧ f.state = 2

/-- The pages of an issued row card, its first destination and source, whose pseudo-channels show no error. -/
def RowsUnderWay (s : State) (die : Fin 4) (serial : Nat) (kind : BitVec 8) (e : Entry) (dst src : Nat) (rest : List (Nat × Nat)) : Prop :=
  s.entry die serial = some e ∧ e.card = some kind ∧ e.status = .issued ∧ e.pages = (dst, src) :: rest ∧
    ∀ x, x ∈ s.pcs → x.2.card = some (die, serial) → (s.pcAt x.1).parity = false

/-- ROWZERO: every row of its page whose pseudo-channel stands in the card's compute phase is zero, and no other byte changes;
the last row of the last page ends the card with 65,536 bytes for each page (R380 to R382). -/
def ClearsRows (s : State) : Prop :=
  ∀ (die : Fin 4) (serial : Nat) (e : Entry) (dst src : Nat) (rest : List (Nat × Nat)),
    RowsUnderWay s die serial 0x12 e dst src rest →
    ∃ t : State, exec (.rowzero die serial false) s = .next t ∧
      (∀ k, k ∈ s.rowsReady die e → ∀ i, i < 2048 → readByte (rowByte die dst k i) t.dram = 0) ∧
      (∀ a, (∀ k, k ∈ s.rowsReady die e → ∀ i, i < 2048 → a ≠ rowByte die dst k i) → readByte a t.dram = readByte a s.dram) ∧
      (e.rows.length + (s.rowsReady die e).length = 32 → rest = [] →
        ∃ (y : Entry) (f : EndInfo), t.entry die serial = some y ∧ y.status = .ended f ∧ f.state = 1 ∧ f.wmark = e.doneBytes + 65536)

/-- ROWCOPY between rows of one subarray: every row in its compute phase takes its source's bytes, and no other byte changes
(R381, R382). -/
def CopiesRows (s : State) : Prop :=
  ∀ (die : Fin 4) (serial : Nat) (e : Entry) (dst src : Nat) (rest : List (Nat × Nat)), MemoryCanonical s →
    RowsUnderWay s die serial 0x13 e dst src rest → dst % 65536 = 0 → src % 65536 = 0 → dst ≠ src → sameSubarray src dst = true →
    ∃ t : State, exec (.rowcopy die serial false) s = .next t ∧
      (∀ k, k ∈ s.rowsReady die e → ∀ i, i < 2048 → readByte (rowByte die dst k i) t.dram = readByte (rowByte die src k i) s.dram) ∧
      (∀ a, (∀ k, k ∈ s.rowsReady die e → ∀ i, i < 2048 → a ≠ rowByte die dst k i) → readByte a t.dram = readByte a s.dram) ∧
      (e.rows.length + (s.rowsReady die e).length = 32 → rest = [] →
        ∃ (y : Entry) (f : EndInfo), t.entry die serial = some y ∧ y.status = .ended f ∧ f.state = 1 ∧ f.wmark = e.doneBytes + 65536)

/-- A parity error that a row card meets fails it with 0x2C1, at the pages done (R383). -/
def RowsBreak (s : State) : Prop :=
  ∀ (i : Fin 4 → Nat → Bool → Instr) (kind : BitVec 8), (i, kind) ∈ [(Instr.rowzero, 0x12), (.rowcopy, 0x13)] →
    ∀ (die : Fin 4) (serial n : Nat) (parity : Bool) (e : Entry), s.entry die serial = some e → e.card = some kind → e.status = .issued →
      n ∈ s.pcs.map Prod.fst → (s.pcs.map Prod.fst).Nodup → (s.pcAt n).card = some (die, serial) → (s.pcAt n).parity = true →
      ∃ (t : State) (y : Entry) (f : EndInfo), exec (i die serial parity) s = .next t ∧ (t.pcAt n).retired = true ∧
        t.entry die serial = some y ∧ y.status = .ended f ∧ f.cause = 0x2C1 ∧ f.wmark = e.doneBytes

/-- A migration card: its pages in order, from the first not done on, and the cause that stopped it or what it waits with; an
evict is reported 65,536 cycles after it withdrew a page (R352, R356, R357). -/
def Migrates (s : State) : Prop :=
  ∀ (i : Fin 4 → Nat → Instr) (op : Nat),
    (i, op) ∈ [(Instr.migrationMove, 0), (.migrationEvict, 1), (.migrationFetch, 2), (.migrationCompress, 3), (.migrationExpand, 4)] →
    ∀ (die : Fin 4) (serial : Nat) (e : Entry), AtEngine s die serial 0x20 e → (Migration.ofCard e.cardBytes).op = op →
      let m := Migration.ofCard e.cardBytes
      let done := e.doneBytes / 65536
      let run := runPages op die serial m.va m.host (m.npages - done) done (s.issueCard die e)
      if (s.die die).retiredEngines.contains 0x20 = true then
        exec (i die serial) s = .next (cardOver die serial (some 0x150) e.doneBytes (s.issueCard die e))
      else
        (∀ (t : State) (n : Nat) (c : Option Cause), run = .ended t n c →
          let u := cardOver die serial c (65536 * n) t
          exec (i die serial) s = .next
            (if op = 1 ∧ n ≠ 0 then u.modEntry die serial fun y => { y with due := u.cycle + 65536 } else u)) ∧
        ∀ (t : State) (n : Nat), run = .waits t n →
          exec (i die serial) s = .next (t.modEntry die serial fun y => { y with doneBytes := 65536 * n })

/-- RESIDENCY_REQUEST_SERVICE: the oldest request of the die is fetched, from where an eviction put the page or from where
Sirxon says; it leaves the queue, and a fetch that fails is noted; one that has to wait stays (R354). -/
def ServesResidency (s : State) : Prop :=
  ∀ (die : Fin 4) (host : Word) (page : Nat) (rest : List Nat), (s.die die).residency = page :: rest →
    let run := (runPage .sirxon 2 die (65536 * page) ((tabFind page (s.die die).evicted).getD host.toNat)).on
      (s.setDie die { s.die die with residency := rest })
    (∀ t, run = (.ok (), t) → exec (.residencyRequestService die host) s = .next
      (t.setDie die { t.die die with residency := (t.die die).residency.filter fun p => p ≠ page })) ∧
    (∀ (t : State) (c : Cause) (a : Word) (d : BitVec 16), run = (.error (.cause c a d), t) →
      exec (.residencyRequestService die host) s = .next
        (t.setDie die { t.die die with residency := (t.die die).residency.filter fun p => p ≠ page,
                                       residencyFailed := page :: (t.die die).residencyFailed })) ∧
    ∀ t, run = (.error .stall, t) → exec (.residencyRequestService die host) s = .next
      (t.setDie die { t.die die with residency := page :: (t.die die).residency })

/-! #### Phases and power of a pseudo-channel (R366 to R369, R376) -/

/-- A compute phase stands for a card: it holds the rows that its steps read and write there, and requests that still wait start
a new count (R366, R368, R372). -/
def phaseFor (die : Fin 4) (n : Nat) (e : Entry) (t : State) : State :=
  t.setPcAt n { t.pcAt n with compute := true, card := some (die, e.serial), yielded := false, held := t.rowsHeld die n e,
                              queuedAt := if t.owedAt n = [] then none else some t.cycle }

/-- COMPUTE_PHASE_START: a card that a yield stopped goes on; else, once no request that a phase kept waits, the next card for the
pseudo-channel: a row card that has issued and has a row of its page there, or a BANKMAC or ATTN card, which issues. A row card
that has begun there and has rows left keeps it before every other card (R366, R369). -/
def PhaseStarts (s : State) : Prop :=
  ∀ pc : PcId, let n := pcNum pc
    let die : Fin 4 := Fin.ofNat 4 (pc.tower.val / 2)
    (s.pcAt n).compute = false → (s.pcAt n).normalAt = none → (s.pcAt n).power = .on →
    (∀ (d : Fin 4) (serial : Nat) (e : Entry), (s.pcAt n).card = some (d, serial) → s.entry d serial = some e →
      exec (.computePhaseStart pc) s = .next (phaseFor d n e s)) ∧
    ((s.pcAt n).card = none → s.owedAt n = [] →
      (∀ e : Entry, (s.die die).table.find? (fun e => e.begun.contains n && e.rowsLeft die n) = some e →
        s.nextTower die n = some e) ∧
      ∀ e : Entry, s.nextTower die n = some e →
        (e.isRow = true → e.status = .issued → s.entry die e.serial = some e → e.rowOn die n = true →
          exec (.computePhaseStart pc) s = .next (phaseFor die n e s)) ∧
        (e.isRow = true → e.status = .issued → s.entry die e.serial = some e → e.rowOn die n = false →
          exec (.computePhaseStart pc) s = .next s) ∧
        (e.isRow = false → exec (.computePhaseStart pc) s = .next (phaseFor die n e (s.issueCard die e))))

/-- COMPUTE_PHASE_YIELD: 16 µs (30,400 cycles) after the first request was queued; NORMAL_PHASE_END lets the phase go on once
every request that the phase kept waiting has been applied or 4 µs (7,600 cycles) have passed, and not before (R368). -/
def PhaseYields (s : State) : Prop :=
  ∀ (pc : PcId) (t : Nat), let n := pcNum pc
    (s.pcAt n).queuedAt = some t → (s.pcAt n).compute = true → t + 30400 ≤ s.cycle →
    exec (.computePhaseYield pc) s = .next
      (s.setPcAt n { s.pcAt n with compute := false, yielded := true, queuedAt := none, normalAt := some s.cycle })
def NormalEnds (s : State) : Prop :=
  ∀ (pc : PcId) (t : Nat), let n := pcNum pc
    (s.pcAt n).normalAt = some t →
    (s.owedAt n = [] ∨ t + 7600 ≤ s.cycle →
      exec (.normalPhaseEnd pc) s = .next (s.setPcAt n { s.pcAt n with normalAt := none })) ∧
    (s.owedAt n ≠ [] → s.cycle < t + 7600 → exec (.normalPhaseEnd pc) s = .next s)

/-- POWER_STATE_REQUEST: outside a compute phase; live unit state goes to the spill rows. POWER_STATE_EXIT restores it from them;
a line of theirs that cannot be read, marked already or found now, takes it: the units read +0, an error record says so, and the
line's row is worn (R361). -/
def Sleeps (s : State) : Prop :=
  ∀ (pc : PcId) (deep : Bool), let n := pcNum pc
    let p := s.pcAt n
    let asleep : Pc := { p with power := if deep then .powerDown else .selfRefresh }
    p.compute = false → p.power = .on →
    (p.live = false → exec (.powerStateRequest pc deep) s = .next (s.setPcAt n asleep)) ∧
    (p.live = true → exec (.powerStateRequest pc deep) s = .next
      ((s.spill n).setPcAt n { asleep with spilled := true, live := false }))
def rowFailed (die pa : Nat) (s : State) : State :=
  if rowKey die pa ∈ (s.die die).failedRows then s
  else s.setDie die { s.die die with failedRows := rowKey die pa :: (s.die die).failedRows }
def Wakes (s : State) : Prop :=
  ∀ (pc : PcId) (lost : Bool), let n := pcNum pc
    let p := s.pcAt n
    let awake : Pc := { p with power := .on, spilled := false }
    let bare : Pc := { awake with live := false, lost := true, regs := [], acc := [], attn := {} }
    p.power ≠ .on →
    (p.spilled = false → exec (.powerStateExit pc lost) s = .next (s.setPcAt n { p with power := .on })) ∧
    (p.spilled = true → s.spillMark n = none → lost = false → exec (.powerStateExit pc lost) s = .next
      (s.setPcAt n { s.restored n with power := .on, spilled := false, live := true })) ∧
    (∀ pa, p.spilled = true → s.spillMark n = some pa → exec (.powerStateExit pc lost) s = .next
      (((rowFailed (n / 64) pa s).addErrorAt false (n / 64) pa 0 2 3).setPcAt n bare)) ∧
    (p.spilled = true → s.spillMark n = none → lost = true →
      ∃ t : State, exec (.powerStateExit pc lost) s = .next t ∧ t.pcAt n = bare ∧
        rowKey (n / 64) (reservedPa n 0 spillRow 0) ∈ (t.die (n / 64)).failedRows ∧
        (t.die (n / 64)).errors.length = (s.die (n / 64)).errors.length + 1)

/-! #### Transfers, loads and flits (R187, R197 to R199, R248, R249) -/

/-- A channel is idle with an end. -/
def channelOver (who : SeqId) (c : Fin 4) (failed : Bool) (cause : Cause) (t : State) : State :=
  let q := t.seq who
  t.setSeq who { q with channels := q.channels.set c ({ q.channels[c] with
    busy := false, transfer := none, stamp := t.stamp, failed := failed, reported := false, cause := cause } : Channel) }

/-- COPY_TRANSFER_COMPLETE: the rest of the bytes is delivered, the arrivals are made, and the channel is idle. -/
def TransferEnds (s : State) : Prop :=
  ∀ (who : SeqId) (c : Fin 4) (tr : Transfer) (s1 s2 : State), ((s.seq who).channels[c]).transfer = some tr →
    s.runTransfer who c = .complete s1 → (transferArrivals who c tr).on s1 = (.ok (), s2) →
    exec (.copyTransferComplete who c) s = .next (channelOver who c false 0 s2)

/-- A transfer stops at a cause: the bytes from the pointer on are suspect, and the channel is idle with FAILED (R199). -/
def transferStops (who : SeqId) (c : Fin 4) (tr : Transfer) (cause : Cause) (t : State) : State :=
  let done := (((t.seq who).channels[c]).done).toNat
  channelOver who c true cause
    ((suspectBytes who c tr t.free ((List.range (tr.len - done)).map (done + ·))).on { t with free := t.free + 1 }).2

/-- COPY_TRANSFER_FAILURE: the transfer stops at its cause; a request without response is sent once more when its limit has
passed, and stops the transfer after that (R199, R348, R411). -/
def TransferFails (s : State) : Prop :=
  ∀ (who : SeqId) (c : Fin 4) (tr : Transfer) (s1 : State), ((s1.seq who).channels[c]).transfer = some tr →
    (∀ cause : Cause, s.runTransfer who c = .fails s1 cause →
      exec (.copyTransferFailure who c) s = .next (transferStops who c tr cause s1)) ∧
    ∀ kind : WaitKind, s.runTransfer who c = .unanswered s1 kind →
      (∀ r, askAgain tr.sent kind s1.cycle = some r → ∃ t : State, exec (.copyTransferFailure who c) s = .next t ∧
        ((t.seq who).channels[c]).busy = ((s1.seq who).channels[c]).busy ∧
        ((t.seq who).channels[c]).transfer = some { tr with sent := some r } ∧ t.dram = s1.dram) ∧
      (askAgain tr.sent kind s1.cycle = none → exec (.copyTransferFailure who c) s = .next
        (transferStops who c tr (if kind = .fabric then 0x282 else 0x244) s1))

/-- WEIGHT_LOAD_COMPLETE: the oldest load's 32 KiB are read, the set is built and holds them, and its flags reach the issuing
sequencer while that runs the same task; a load whose read has no response waits for it (R187, R348). -/
def LoadEnds (s : State) : Prop :=
  ∀ (core : Fin 512) (l : WeightLoad) (rest : List WeightLoad) (s1 : State),
    (s.core core).loads = l :: rest → l.who.core = core →
    (∀ (bytes : List Byte) (failed : Bool), loadLines l (List.range 256) s = (s1, .done bytes failed) →
      let made := buildSet l.fmt bytes ((s1.core core).wset l.mac l.set).exps
      ∃ t : State, exec (.weightLoadComplete core) s = .next t ∧ (t.core core).loads = rest ∧
        ((t.core core).wset l.mac l.set) = { made.2.1 with failed := failed } ∧
        (t.core core).wspace = writeBytes (l.mac * 2 ^ 17 + l.set * 2 ^ 15) made.1 (s1.core core).wspace ∧
        (t.seq l.who).now.sticky = (if l.serial.isSome ∧ (s1.seq l.who).task.map TaskRef.serial = l.serial then
            (s1.seq l.who).now.sticky.set 3 (((s1.seq l.who).now.sticky[3]).raise made.2.2 l.vpc l.slot l.stamp)
          else (s1.seq l.who).now.sticky)) ∧
    ∀ kind : WaitKind, loadLines l (List.range 256) s = (s1, .unanswered kind) →
      exec (.weightLoadComplete core) s = .next (s1.setCore core { s1.core core with
        loads := { l with sent := askAgain l.sent kind s1.cycle } :: rest })

/-- GLEANER_CHECK: the oldest pick leaves, and each column whose gap exceeds its bound counts as a violation (R175). -/
def Gleans (s : State) : Prop :=
  ∀ (core : Fin 512) (mac : Fin 8) (p : Pick) (rest : List Pick), ((s.core core).macroAt mac).picks = p :: rest →
    ∃ t : State, exec (.gleanerCheck core mac) s = .next t ∧ ((t.core core).macroAt mac).picks = rest ∧
      ((t.core core).macroAt mac).violations = ((s.core core).macroAt mac).violations +
        (p.columns.filter fun c => (Val.read fp32 c.2.2.2.toNat).lt (c.2.1.sub .nearest c.2.2.1).1.abs).length

/-- No SEND of a core waits for its send register. -/
def NoSenderWaits (s : State) (core : Fin 512) : Prop := ∀ (g : Fin 2) (p : Wait), (s.seq ⟨core, g⟩).wait = some p → p.kind ≠ .send
/-- The send register of a core is empty. -/
def registerEmpty (core : Fin 512) (t : State) : State := t.setCore core { t.core core with sendReg := none }

/-- SEND_FLIT_INJECTION when no SEND waits for the register: a flit whose queue has one of its 64 entries left and whose way
stands is on its way, and the register is empty; one for another package leaves by the fabric with the next sequence
number of the sequencer that sent it toward its die (R248, R249, R410). -/
def Injects (s : State) : Prop :=
  ∀ (core : Fin 512) (x : Outgoing), (s.core core).sendReg = some x → NoSenderWaits s core →
    let c := s.cluster x.cluster
    let who : Agent := .seq ⟨core, x.group⟩
    (x.pkg = s.sirxon.package → roundTrip s.nets (core.val / 4) x.cluster.val = .arrives →
      (c.queues[x.queue]).length + (c.inbound.filter fun f => f.queue = x.queue).length < 64 →
      exec (.sendFlitInjection core) s = .next (registerEmpty core (s.setCluster x.cluster { c with
        inbound := c.inbound ++ [{ queue := x.queue, flit := x.flit, origin := core.val / 4 }] }))) ∧
    (x.pkg ≠ s.sirxon.package → fabricResponds s.nets (s.nets.entry who) x.pkg.toNat = true → fabricWaits s.nets x.pkg.toNat = false →
      exec (.sendFlitInjection core) s = .next { registerEmpty core s with
        nets := s.nets.sendNew who (4 * x.pkg.toNat + x.cluster.val / 32) })

/-- MESSAGE_QUEUE_ARRIVAL: the oldest flit on its way to a queue, with no earlier one from its router before it, stands last in
it (R248, R347). -/
def FlitArrives (s : State) : Prop :=
  ∀ (cluster : Fin 128) (queue : Fin 8) (f : Inbound), let k := s.cluster cluster
    nextArrival queue k.inbound [] = some f →
    ∃ t : State, exec (.messageQueueArrival cluster queue) s = .next t ∧
      (t.cluster cluster).inbound = k.inbound.erase f ∧ (t.cluster cluster).queues[queue] = k.queues[queue] ++ [f.flit] ∧
      ∀ q : Fin 8, q ≠ queue → (t.cluster cluster).queues[q] = k.queues[q]

/-- CORE_WRITE_PATH_DRAIN: the core's writes stand last in the cluster cache's queue, in their order (R326). -/
def PathDrains (s : State) : Prop :=
  ∀ core : Fin 512, ∃ t : State, exec (.coreWritePathDrain core) s = .next t ∧ (t.core core).writePath = [] ∧
    (t.cluster (core.val / 4)).pending = (s.cluster (core.val / 4)).pending ++ (s.core core).writePath ∧ t.dram = s.dram

/-- CLUSTER_CACHE_WRITE_DRAIN of a queue of one write: where its home takes it it is applied and leaves the queue; copies of
65,536 cycles that waited for it leave, and no copy comes (R252, R328, R331). -/
def CacheDrains (s : State) : Prop :=
  (∀ cluster : Fin 128, (s.cluster cluster).pending = [] → exec (.clusterCacheWriteDrain cluster) s = .next s) ∧
  ∀ (cluster : Fin 128) (p : PendingWrite) (t : State), (s.cluster cluster).pending = [p] →
    (∀ n : Nat, s.applyPending cluster p = (t, some n) → ∃ copies : List Copy,
      exec (.clusterCacheWriteDrain cluster) s = .next
        (t.setCluster cluster { t.cluster cluster with pending := (t.cluster cluster).pending.erase p, copies := copies }) ∧
      (∀ c, c ∈ copies → c ∈ (t.cluster cluster).copies) ∧
      ((t.cluster cluster).copies.length ≤ 16 → copies = (t.cluster cluster).copies.filter fun c =>
        t.cycle < c.fetched + 65536 || ((t.cluster cluster).pending.erase p).any fun p => p.va / 128 == c.line)) ∧
    (s.applyPending cluster p = (t, none) → exec (.clusterCacheWriteDrain cluster) s = .next t)

/-- CLUSTER_CACHE_COPY_DROP: copies fetched 65,536 cycles ago or more leave, but for those with a write of their line queued
(R328). -/
def CopiesDrop (s : State) : Prop :=
  ∀ cluster : Fin 128, exec (.clusterCacheCopyDrop cluster) s = .next (s.setCluster cluster { s.cluster cluster with
    copies := (s.cluster cluster).copies.filter fun c =>
      s.cycle < c.fetched + 65536 || (s.cluster cluster).pending.any fun p => p.va / 128 == c.line })

/-! #### Patrol, sparing, recalibration and retirement (R161, R176, R259, R348, R359, R361, R404) -/

/-- PATROL_READ of a line outside a compute phase: a clean one changes nothing; a corrected error counts for its row, an
uncorrectable one poisons the line and marks the row; and an error found is recorded in the die's ring (R359, R361). -/
def Patrols (s : State) : Prop :=
  ∀ (die : Fin 4) (line : Fin 1073741824), (s.pcAt (pcOf die (128 * line.val))).compute = false →
    let key := rowKey die (128 * line.val)
    exec (.patrolRead die line .clean) s = .next s ∧
    (∃ t : State, exec (.patrolRead die line .corrected) s = .next t ∧ t.dram = s.dram ∧ (t.die die).poison = (s.die die).poison ∧
      (t.die die).corrected = tabPut key (tabGet 0 key (s.die die).corrected + 1) (s.die die).corrected ∧
      (t.die die).errors.length = (s.die die).errors.length + 1) ∧
    ∃ t : State, exec (.patrolRead die line .uncorrectable) s = .next t ∧ t.dram = s.dram ∧
      (t.die die).errors.length = (s.die die).errors.length + 1 ∧ key ∈ (t.die die).failedRows ∧
      ∀ x, x ∈ (t.die die).poison ↔ x ∈ (s.die die).poison ∨ x = line.val

/-- A row has shown an uncorrectable error, or its corrected ones have reached Sirxon's threshold (R361). -/
def Worn (s : State) (die pa : Nat) : Prop :=
  rowKey die pa ∈ (s.die die).failedRows ∨
    (s.sirxon.rowThreshold ≠ 0 ∧ s.sirxon.rowThreshold ≤ tabGet 0 (rowKey die pa) (s.die die).corrected)

/-- ROW_SPARING of a worn row outside a compute phase: with a spare left in its subarray it goes to the next of the four, its
counts start again, and a record says so (R361). -/
def Spares (s : State) : Prop :=
  ∀ row : RowId, let die := row.pc.tower.val / 2
    let pa := rowAddress row
    let key := (pcOf die pa * 16 + pa / 2 ^ 17 % 16) * 128 + pa / 2 ^ 30
    Worn s die pa → (s.pcAt (pcOf die pa)).compute = false → tabGet 0 key (s.die die).spares < 4 →
    ∃ t : State, exec (.rowSparing row) s = .next t ∧ t.dram = s.dram ∧
      (t.die die).spares = tabPut key (tabGet 0 key (s.die die).spares + 1) (s.die die).spares ∧
      (t.die die).remap = tabPut (rowKey die pa) (tabGet 0 key (s.die die).spares) (s.die die).remap ∧
      rowKey die pa ∉ (t.die die).failedRows ∧ (t.die die).errors.length = (s.die die).errors.length + 1

/-- MACRO_RECALIBRATION at the threshold, between tasks, of a macro that has not been recalibrated, or more than three times:
every column valid, offsets of a new calibration, counts zero (R176, log entry 68). -/
def Recalibrates (s : State) : Prop :=
  ∀ (core : Fin 512) (mac : Fin 8), let m := (s.core core).macroAt mac
    s.betweenTasks core = true → (s.core core).liveMacros.getLsbD mac = true → s.sirxon.threshold ≤ m.violations →
    (m.recalibrations = 0 ∨ 3 < m.recalibrations) →
    ∃ t : State, exec (.macroRecalibration core mac) s = .next t ∧ t.sirxon.calibrations = s.sirxon.calibrations + 1 ∧
      (t.core core).macroAt mac = { m with
        calibration := s.sirxon.calibrations + 1, offsets := [], valid := BitVec.allOnes 128, violations := 0, skipped := 0,
        recalibrations := m.recalibrations + 1 }

/-- MACRO_RETIREMENT of one that reached the threshold again within three recalibrations: it is no longer live and the die's crib
is empty (R161, R176). -/
def RetiresMacro (s : State) : Prop :=
  ∀ (core : Fin 512) (mac : Fin 8), let m := (s.core core).macroAt mac
    s.betweenTasks core = true → (s.core core).liveMacros.getLsbD mac = true → s.sirxon.threshold ≤ m.violations →
    1 ≤ m.recalibrations → m.recalibrations ≤ 3 →
    ∃ t : State, exec (.macroRetirement core mac) s = .next t ∧ (t.die (dieOf core)).crib = [] ∧
      t.sirxon.macrosRetired = s.sirxon.macrosRetired + 1 ∧
      ∀ j : Fin 8, (t.core core).liveMacros.getLsbD j = ((s.core core).liveMacros.getLsbD j && decide (j ≠ mac))

/-- CORE_RETIREMENT: the core is retired and its write path handed on, its send register and loads are empty; a rank that ran on
it ends, and its task fails with 0x341 (R404). That a flit in the send register is dropped is log entry 68's choice. -/
def RetiresCore (s : State) : Prop :=
  ∀ core : Fin 512, (s.core core).retired = false →
    ∃ t : State, exec (.coreRetirement core) s = .next t ∧ (t.core core).retired = true ∧ (t.core core).writePath = [] ∧
      (t.core core).sendReg = none ∧ (t.core core).loads = [] ∧ (t.die (dieOf core)).crib = [] ∧
      t.sirxon.coresRetired = s.sirxon.coresRetired + 1 ∧
      ∀ (g : Fin 2) (x : TaskRef) (e : Entry), (s.seq ⟨core, g⟩).phase = .running → (s.seq ⟨core, g⟩).task = some x →
        (s.seq ⟨core, 1 - g⟩).phase = .empty → s.entry x.die x.serial = some e → e.failure = none →
        (t.seq ⟨core, g⟩).phase = .empty ∧
          ∃ (y : Entry) (f : EndInfo), t.entry x.die x.serial = some y ∧ y.failure = some f ∧ f.cause = 0x341

/-- BIN_RETIREMENT: a free bin is retired, and the lowest spare is free in its place; a bin in use is marked (R259). -/
def RetiresBin (s : State) : Prop :=
  ∀ (cluster : Fin 128) (bin : Fin 64), let b := (s.cluster cluster).bins[bin]
    (b.state = .free → ∃ t : State, exec (.binRetirement cluster bin) s = .next t ∧
      ((t.cluster cluster).bins[bin]).state = .retired ∧ t.sirxon.binsRetired = s.sirxon.binsRetired + 1 ∧
      ∀ i : Fin 64, ((s.cluster cluster).bins[i]).state = .spare →
        (∀ j : Fin 64, j < i → ((s.cluster cluster).bins[j]).state ≠ .spare) → ((t.cluster cluster).bins[i]).state = .free) ∧
    ((∃ c x, b.state = .owned c x) ∨ (∃ n r x, b.state = .parked n r x) → exec (.binRetirement cluster bin) s = .next
      (s.setCluster cluster { s.cluster cluster with bins := (s.cluster cluster).bins.set bin { b with marked := true } }))

/-- The tables that a list of entries makes: of a router and a destination each. -/
def tablesOf (routes : List (Nat × Nat × RouteEntry)) : Tab (Option RouteEntry) :=
  routes.foldl (fun m r => tabPut (128 * (r.1 % 128) + r.2.1 % 128) (some r.2.2) m) []

/-- ROUTER_FAILURE: the router is among the failed ones and every core of its cluster is retired; the tables that Sirxon gives
stand where they take every packet in at most three hops past the failed routers, with ESC where it takes three; else the
tables are those of log entry 9 (R348). -/
def RouterFails (s : State) : Prop :=
  ∀ (router : Fin 128) (routes : List (Nat × Nat × RouteEntry)),
    let failed := if router ∈ s.nets.failedRouters then s.nets.failedRouters else router :: s.nets.failedRouters
    let given : Nets := { s.nets with failedRouters := failed, routes := tablesOf routes }
    ∃ t : State, exec (.routerFailure router routes) s = .next t ∧ t.nets.failedRouters = failed ∧
      (∀ i : Fin 4, (t.core (4 * router.val + i.val)).retired = true) ∧
      t.nets.routes = (if routes ≠ [] ∧ given.sound = true then tablesOf routes else [])

/-! #### Links, records, clock and cooling (R398 to R409) -/

/-- LANE_FAILURE: the first failed data lane of a link moves to the spare while the link retrains; the spare's own failure moves
nothing; a second failure takes the link down (R407). -/
def LaneFails (s : State) : Prop :=
  ∀ (link : Fin 18) (lane : Fin 9), let l := s.nets.links[link]
    l.down = false → lane ∉ l.failed →
    ∃ t : State, exec (.laneFailure link lane) s = .next t ∧ t.nets.links[link] =
      (if l.failed ≠ [] then { l with failed := lane :: l.failed, down := true }
       else if lane.val = 8 then { l with failed := [lane] } else { l with failed := [lane], retraining := true }) ∧
      t.sirxon.lanesSpared = s.sirxon.lanesSpared + (if l.failed = [] ∧ lane.val < 8 then 1 else 0)

/-- LINK_RETRAIN_COMPLETE of a link that retrains delivers every flit that waited; FLIT_REPLAY of a link that neither retrains nor
is down delivers the oldest (R406, R407). A response among them has left the package. -/
def LinkRecovers (s : State) : Prop :=
  ∀ link : Fin 18, let l := s.nets.links[link]
    (l.retraining = true → exec (.linkRetrainComplete link) s = .next
      { s with nets := { s.nets with
        links := s.nets.links.set link { l with retraining := false, waiting := [] },
        responses := s.nets.responses ++ l.waiting.filterMap LinkFlit.reply } }) ∧
    (l.retraining = false → exec (.linkRetrainComplete link) s = .next s) ∧
    (l.retraining = false → l.down = false → exec (.flitReplay link) s = .next
      { s with nets := { s.nets with
        links := s.nets.links.set link { l with waiting := l.waiting.tail },
        responses := s.nets.responses ++ (l.waiting.take 1).filterMap LinkFlit.reply } })

/-- ROUTING_TABLE_REWRITE of one entry: bits 4:0 and 7 of it stand; a link above 17 and a route of more than 8 hops are not
written; a package that is reachable no more counts (R408, R409). -/
def RoutesRewritten (s : State) : Prop :=
  ∀ (pkg : Nat) (e : BitVec 16) (hops : Nat), pkg < 4096 →
    (18 ≤ e.toNat % 32 ∨ 8 < hops → exec (.routingTableRewrite [(pkg, e, hops)]) s = .next s) ∧
    (e.toNat % 32 < 18 → hops ≤ 8 →
      ∃ t : State, exec (.routingTableRewrite [(pkg, e, hops)]) s = .next t ∧
        t.nets = { s.nets with fabric := tabPut pkg (e &&& 0x9F) s.nets.fabric } ∧
        t.sirxon.deadPackages = s.sirxon.deadPackages +
          (if (fabricLink s.nets pkg).isSome = true ∧ e.getLsbD 7 = false then 1 else 0))

/-- HEALTH_RING_WRITE: with the dies' rings drained and an entry free, the oldest record is written whole at HRTAIL, and HRTAIL
advances (R403). -/
def RingFills (s : State) : Prop :=
  ∀ (r : RingRec) (rest : List RingRec), s.sirxon.records = r :: rest → (∀ d : Fin 4, (s.die d).errors = []) →
    s.host.hrEn = true → (s.host.hrTail - s.host.hrHead).toNat < 2 ^ s.host.hrLgn.toNat →
    ∃ t : State, exec .healthRingWrite s = .next t ∧ t.sirxon.records = rest ∧ t.host = { s.host with hrTail := s.host.hrTail + 1 } ∧
      t.hostMem = writeBytes (s.host.hrbase.toNat + 64 * (s.host.hrTail.toNat % 2 ^ s.host.hrLgn.toNat)) r.bytes s.hostMem

/-- STAMP_RATE_CORRECTION within 100 ppm; THERMAL_THROTTLE and THERMAL_STOP; DVFS_CHANGE between tasks within 520 to 720 mV, the
cap 5 at the nominal 600 mV, where a new cap empties every crib (R165, R398, R400). -/
def Regulates (s : State) : Prop :=
  (∀ ppm : Int, ppm.natAbs ≤ 100 → exec (.stampRateCorrection ppm true) s = .next
    { s with sirxon := { s.sirxon with ppm := ppm } }) ∧
  (∃ t : State, exec .thermalThrottle s = .next t ∧ t.sirxon.throttled = true ∧ t.sirxon.stopped = s.sirxon.stopped) ∧
  (∃ t : State, exec .thermalStop s = .next t ∧ t.sirxon.stopped = true ∧ t.sirxon.reason.getLsbD 5 = true) ∧
  ∀ mv cap : Nat, 520 ≤ mv → mv ≤ 720 → 1 ≤ cap → cap ≤ 8 → (mv = 600 → cap = 5) →
    (∀ (d : Fin 4) (e : Entry) (c : List (Fin 512)), e ∈ (s.die d).table → e.status ≠ .running c) →
    ∃ t : State, exec (.dvfsChange mv cap) s = .next t ∧ t.sirxon = { s.sirxon with millivolts := mv, cap := cap } ∧
      ∀ d : Fin 4, (t.die d).crib = if cap = s.sirxon.cap then (s.die d).crib else []

/-! #### The host port (R390 to R396, R403) -/

/-- POWER_UP: everything of the part is as at reset; what lies outside the part is kept. -/
def PowersUp (s : State) : Prop :=
  ∃ t : State, exec .powerUp s = .next t ∧ t.cores = [] ∧ t.clusters = [] ∧ t.dies = [] ∧ t.pcs = [] ∧ t.dram = [] ∧
    t.host = {} ∧ t.sirxon = {} ∧ t.stamp = 0 ∧ t.hostMem = s.hostMem ∧ t.remote = s.remote

/-- BOOTCTL_WRITE in state 0 or 2: a length of at most 256 MiB starts verification, a longer one is refused with 0x381. -/
def BootStarts (s : State) : Prop :=
  ∀ n : Word, (s.host.bootState = 0 ∨ s.host.bootState = 2) → exec (.bootctlWrite n) s = .next
    { s with host := if n.toNat ≤ 2 ^ 28 then { s.host with bootState := 1, bootCause := 0, imageLength := n.toNat }
                     else { s.host with bootState := 2, bootCause := 0x381 } }

/-- IMAGE_VERIFICATION in state 1: the signature first (0x381), then the version (0x382), else state 3 and the image's digest. -/
def Verifies (s : State) : Prop :=
  s.host.bootState = 1 → let image := s.readPa 0 0 s.host.imageLength
    exec .imageVerification s = .next (
      if Config.signatureValid image = false then { s with host := { s.host with bootState := 2, bootCause := 0x381 } }
      else if Config.versionAccepted image = false then { s with host := { s.host with bootState := 2, bootCause := 0x382 } }
      else { s with host := { s.host with bootState := 3, bootCause := 0 }, sirxon := { s.sirxon with digest := sha512 image } })

/-- SIRXON_BRING_UP in state 3, with nothing found bad: state 4; the package number is set and the routers' tables are written,
every core has its eight macros calibrated in every column, and bins 0 to 59 of every cluster are free and 60 to 63 spare. -/
def BringsUp (s : State) : Prop :=
  ∀ plan : BringUp, s.host.bootState = 3 → plan.retiredCores = [] → plan.retiredMacros = [] → plan.retiredBins = [] →
    plan.fabric = [] → plan.failedLanes = [] → plan.retiredRouters = [] → plan.retiredRows = [] →
    ∃ t : State, exec (.sirxonBringUp plan) s = .next t ∧ t.host.bootState = 4 ∧ t.sirxon.package = plan.package ∧
      t.sirxon.started = true ∧ t.sirxon.threshold = plan.gleanerThreshold ∧ t.sirxon.rowThreshold = plan.rowThreshold ∧
      t.nets.written = true ∧
      (∀ (c : Fin 512) (m : Fin 8), ((t.core c).macroAt m).valid = BitVec.allOnes 128 ∧ ((t.core c).macroAt m).sampling = false) ∧
      ∀ (k : Fin 128) (b : Fin 64), ((t.cluster k).bins[b]).state = if b.val < 60 then .free else .spare

/-- QNOTIFY_WRITE: with EN and at most 2^LGN entries from QHEAD the tail is taken; else EN clears and BOOTSTS shows 0x301
(R393). One without relaxed ordering does not pass a BAR2 write that waits: it stands in line behind it (R394). -/
def Notifies (s : State) : Prop :=
  ∀ (q : Fin 64) (tail : BitVec 32), let x := s.host.queues[q]
    let h : HostPort := { s.host with relaxed := false }
    let behind : Prop := s.host.relaxed = false ∧ ∃ a, a ∈ s.host.waiting ∧ a.data.isSome = true
    (behind → exec (.qnotifyWrite q tail) s = .next { s with host :=
      { h with waiting := s.host.waiting ++ [{ offset := 0, length := 0, data := none, notify := some (q, tail) }] } }) ∧
    (¬behind → exec (.qnotifyWrite q tail) s = .next { s with host :=
      if x.en = true ∧ (tail - x.head).toNat ≤ 2 ^ x.lgn.toNat then { h with queues := s.host.queues.set q { x with tail := tail } }
      else { h with queues := s.host.queues.set q { x with en := false }, bootCause := 0x301 } })

/-- HRCTL_WRITE and HRHEAD_WRITE (R403). -/
def RingControlled (s : State) : Prop :=
  ∀ v : Word,
    let h := s.host
    let controlled : HostPort :=
      if h.hrEn = true then { h with hrLost := 0 }
      else if (v.getLsbD 63 = true ∧ (v.extractLsb' 16 4).toNat < 4) then { h with hrEn := false, bootCause := 0x301 }
      else { h with hrEn := v.getLsbD 63, hrLost := v.extractLsb' 32 16, hrLgn := v.extractLsb' 16 4 }
    let consumed : HostPort :=
      if 2 ^ h.hrLgn.toNat < (h.hrTail - v.setWidth 32).toNat then { h with hrEn := false, bootCause := 0x301 }
      else { h with hrHead := v.setWidth 32 }
    exec (.hrctlWrite v) s = .next { s with host := controlled } ∧ exec (.hrheadWrite v) s = .next { s with host := consumed }

/-- BAR0_REGISTER_WRITE of registers with no behaviour of their own: the stamp before boot, APBASE, HRBASE while the ring is
off, a queue's base; read-only and unassigned offsets ignore it (R391). That the bits below the stated multiple of a base are
dropped is the choice of log entry 53. -/
def Bar0Written (s : State) : Prop :=
  ∀ v : Word,
    (s.host.bootState = 0 → exec (.bar0RegisterWrite 0x10 v) s = .next { s with stamp := v }) ∧
    exec (.bar0RegisterWrite 0x20 v) s = .next { s with host := { s.host with apbase := v &&& ~~~0x3FFFFFFFF } } ∧
    (s.host.hrEn = false → exec (.bar0RegisterWrite 0x28 v) s = .next { s with host := { s.host with hrbase := v &&& ~~~0xFFF } }) ∧
    (∀ q : Fin 64, exec (.bar0RegisterWrite (BitVec.ofNat 16 (0x1000 + 32 * q.val)) v) s = .next
      { s with host := { s.host with queues := s.host.queues.set q { s.host.queues[q] with base := v &&& ~~~0xFFF } } }) ∧
    ∀ off : BitVec 16, off.toNat ∈ [0x00, 0x18, 0x38, 0x48] ∨ 0x1800 ≤ off.toNat → exec (.bar0RegisterWrite off v) s = .next s

/-- The host's read of a BAR0 register answers the word that its fields make; a write-only register and an offset without one
answer nothing (R391; log entry 53). -/
def RegistersRead (s : State) : Prop :=
  ∀ (off : BitVec 16) (rest : List Action), s.agenda = .registerRead off :: rest →
    let t : State := { s with agenda := rest }
    let h := s.host
    let answer (w : Word) : State := { t with host := { t.host with replies := t.host.replies ++ [(0, false, wordBytes w)] } }
    (∀ w, (off, w) ∈ [(0x10#16, s.stamp), (0x18, s.healthWord), (0x20, h.apbase), (0x28, h.hrbase), (0x38, h.hrTail.setWidth 64),
        (0x40, h.hrHead.setWidth 64)] → step s = .next (answer w)) ∧
    (off = 0x00 → ∃ w : Word, step s = .next (answer w) ∧ w.extractLsb' 60 4 = BitVec.ofNat 4 h.bootState ∧
      w.extractLsb' 0 10 = h.bootCause ∧ w.extractLsb' 10 50 = 0) ∧
    (off = 0x30 → ∃ w : Word, step s = .next (answer w) ∧ w.getLsbD 63 = h.hrEn ∧ w.extractLsb' 32 16 = h.hrLost ∧
      w.extractLsb' 16 4 = h.hrLgn ∧ w.extractLsb' 0 16 = 0) ∧
    (off = 0x08 ∨ 0x1800 ≤ off.toNat → step s = .next t)

/-- A host access waits alone at the port. -/
def atPort (s : State) (a : HostAccess) : State := { s with host := { s.host with waiting := [a] } }
/-- It is over: the port has none, a request of it to another package is out no more, and a read has its answer. -/
def portFree (t : State) (answers : List (Nat × Bool × List Byte)) : State :=
  { t with host := { t.host with waiting := t.host.waiting.drop 1, replies := t.host.replies ++ answers },
           nets := { t.nets with asking := t.nets.asking.filter fun r => r.who ≠ .host } }
/-- How the read of a cause is answered: Completer Abort for 0x244 and classes 0x280 to 0x2BF, else Unsupported Request (R396). -/
def abortStatus (c : Cause) : Nat := if c.toNat = 0x244 ∨ c.toNat / 64 = 0xA then 2 else 1

/-- HOST_BAR2_READ and HOST_BAR2_WRITE before the queues open reach PA 0 on of die 0; after, at a port where no access waits, they
are translated, and a cause answers a read with Unsupported Request or Completer Abort and drops a write (R396). -/
def ApertureRead (s : State) : Prop :=
  ∀ (off : BitVec 34) (n : Nat), off.toNat + n ≤ 2 ^ 34 → s.host.waiting = [] →
    let va := (s.host.apbase.toNat + off.toNat) % 2 ^ 64
    let a : HostAccess := { offset := off.toNat, length := n, data := none }
    (s.host.bootState ≠ 4 → exec (.hostBar2Read off n) s = .next
      { s with host := { s.host with replies := s.host.replies ++ [(0, false, s.readPa 0 off.toNat n)] } }) ∧
    (s.host.bootState = 4 →
      (∀ (l : List Byte) (ep : Bool) (t : State), (a.work va).on (atPort s a) = (.ok (some (l, ep)), t) →
        exec (.hostBar2Read off n) s = .next (portFree t [(0, ep, l)])) ∧
      ∀ (c : Cause) (at_ : Word) (d : BitVec 16) (t : State), (a.work va).on (atPort s a) = (.error (.cause c at_ d), t) →
        ∃ v : State, exec (.hostBar2Read off n) s = .next v ∧ v.host.replies = t.host.replies ++ [(abortStatus c, false, [])] ∧
          v.host.waiting = t.host.waiting.drop 1 ∧ v.dram = t.dram)
def ApertureWritten (s : State) : Prop :=
  ∀ (off : BitVec 34) (l : List Byte), off.toNat + l.length ≤ 2 ^ 34 → s.host.waiting = [] →
    let va := (s.host.apbase.toNat + off.toNat) % 2 ^ 64
    let a : HostAccess := { offset := off.toNat, length := l.length, data := some l }
    (s.host.bootState ≠ 4 → exec (.hostBar2Write off l) s = .next (s.writePa 0 off.toNat l)) ∧
    (s.host.bootState = 4 →
      (∀ t : State, (writeGlobal .host .system 0 va l).on (atPort s a) = (.ok (), t) →
        exec (.hostBar2Write off l) s = .next (portFree t [])) ∧
      ∀ (c : Cause) (at_ : Word) (d : BitVec 16) (t : State),
        (writeGlobal .host .system 0 va l).on (atPort s a) = (.error (.cause c at_ d), t) →
        ∃ v : State, exec (.hostBar2Write off l) s = .next v ∧ v.host.replies = t.host.replies ∧
          v.host.waiting = t.host.waiting.drop 1 ∧ v.dram = t.dram)

/-! #### Entries of the host's queues (R392), the crib (R308, R310, R315) -/

/-- The next entry of a queue is read: the queues are open, it is enabled and notified, no checkpoint of another queue is in
progress, its graph is not stopped, and its die's table has room beside the claims of the others (R268, R281, R393, R399). -/
def HeadRead (s : State) (q : Fin 64) (type : Nat → Prop) : Prop :=
  let die := (s.host.queues[q]).die.toNat
  hostWaits s die q.val = true ∧ roomLeft s die q.val ∧ type ((s.headBytes q).getD 7 0).toNat

/-- QHEAD advances, and nothing of the entry waits. -/
def headPast (q : Fin 64) (t : State) : State :=
  let x : HostQueue :=
    { t.host.queues[q] with head := (t.host.queues[q]).head + 1, sent := none, due := none, withdrew := false, opened := [] }
  { t with host := { t.host with queues := t.host.queues.set q x } }

/-- The end of a command, and of a submission that a check refuses. -/
def commandOver (s : State) (state : BitVec 4) (cause : Cause) : EndInfo :=
  { state := state, cause := cause, unit := 0, wmark := 0, pstatus := 0, whereC := 0, stamp := s.stamp }

/-- A card (types 0x01 to 0x20) and a task (0x80) that every check passes enter the table; one that a check refuses takes a
serial number and gets a record of STATE 5 at its completion address (R271, R273, R392). -/
def HostEnters (i : Fin 64 → Instr) (type : Nat → Prop) (check : State → Fin 64 → M Entry) (compl : State → Fin 64 → Word)
    (kind : State → Fin 64 → Option (BitVec 8)) (s : State) : Prop :=
  ∀ (q : Fin 64) (t : State), HeadRead s q type →
    (∀ e : Entry, s.tryHost q (check s q) = .ok e t →
      let die := (s.host.queues[q]).die.toNat
      exec (i q) s = .next (headPast q (t.setDie die ((t.die die).enter e t.stamp t.sirxon.stopped)))) ∧
    ∀ (c : Cause) (u : State), s.tryHost q (check s q) = .fails t c →
      let die := (t.host.queues[q]).die.toNat
      let n := (t.die die).nextSerial
      t.putHostRecord q ((compl s q).toNat / 64 * 64) n (recordHead n (kind s q) 0 false (commandOver t 5 c)) = (u, true) →
      exec (i q) s = .next (headPast q (u.setDie die { u.die die with nextSerial := n + 1 }))
/-- Lists that an entry names are read by Sirxon (R316). -/
def hostCard (s : State) (q : Fin 64) : M Entry :=
  checkCard (s.host.queues[q]).die.toNat q (fun va n => readGlobal .sirxon .system 0 va n) (s.headBytes q)
def hostTask (s : State) (q : Fin 64) : M Entry :=
  checkRecord (s.host.queues[q]).die.toNat q (fun va n => readGlobal .sirxon .system 0 va n) ((s.headBytes q).drop 0x40)

def cardCompl (s : State) (q : Fin 64) : Word := wordAt (s.headBytes q) 8
def taskCompl (s : State) (q : Fin 64) : Word := wordAt ((s.headBytes q).drop 0x40) 0x18
def cardKind (s : State) (q : Fin 64) : Option (BitVec 8) := some ((wordAt (s.headBytes q) 0).extractLsb' 56 8)

/-- The record of a command, under a serial number that the spec leaves open (log entry 14), and QHEAD past its entry. -/
def Answered (t : State) (q : Fin 64) (at_ : Nat) (f : EndInfo) (u : State) : Prop :=
  ∃ v : State, t.putHostRecord q at_ (Config.commandSerial t.free).toNat
      (recordHead (Config.commandSerial t.free).toNat none 0 false f) = (v, true) ∧
    u = headPast q { v with free := v.free + 1 }

/-- MAP's fields: a nonzero number of pages, homed on the die, and a reserved bit nowhere (R392). -/
def mapFits (s : State) (q : Fin 64) : Prop :=
  let die := (s.host.queues[q]).die.toNat
  s.headWord q 8 % 64 = 0 ∧ s.headWord q 0x10 % 65536 = 0 ∧ s.headWord q 0x18 % 2 ^ 32 ≠ 0 ∧
    s.homedOn die (s.headWord q 0x10) = true ∧ s.headWord q 0x10 % 2 ^ 50 + 65536 * (s.headWord q 0x18 % 2 ^ 32) ≤ 2 ^ 50

/-- LOAD, UNLOAD, MAP and CRIB_INVALIDATE, each with what it has done when its record is written (R301, R311, R312, R392). -/
def ImageCommands (s : State) : Prop :=
  ∀ (q : Fin 64) (u : State), let die := (s.host.queues[q]).die.toNat
    (∀ t : State, HeadRead s q (· = 0xC0) →
      s.loadCommand q die (s.headWord q 8) (s.headWord q 0x10) (s.headWord q 0x18) (s.headWord q 0x20) = (t, true) →
      exec (.load q) s = .next (headPast q t)) ∧
    (∀ (n : Nat) (x : ImageSlot) (im : Image), HeadRead s q (· = 0xC1) → s.headWord q 8 % 64 = 0 →
      (s.die die).slotOf (s.headWord q 0x10) = some (n, x, im) →
      exec (.unload q) s = .next (headPast q (s.setDie die { s.die die with
        images := tabPut n { x with image := some { im with unloading := some (s.headWord q 8) } } (s.die die).images }))) ∧
    (HeadRead s q (· = 0xC2) → mapFits s q →
      let run := s.tryHost q (mapBody q die (s.headWord q 0x10) (s.headWord q 0x18 % 2 ^ 32) (wordAt (s.headBytes q) 0x18))
      (∀ t : State, run = .ok () t → Answered t q (t.headWord q 8) (commandOver t 1 0) u → exec (.map q) s = .next u) ∧
      ∀ (t : State) (c : Cause), run = .fails t c → Answered t q (t.headWord q 8) (commandOver t 2 c) u → exec (.map q) s = .next u) ∧
    (HeadRead s q (· = 0xC3) → s.headWord q 8 % 64 = 0 → s.headWord q 0x10 = 0 →
      Answered (s.setDie die { s.die die with crib := [] }) q (s.headWord q 8) (commandOver s 1 0) u →
      exec (.cribInvalidate q) s = .next u) ∧
    (∀ (n : Nat) (x : ImageSlot) (im : Image), HeadRead s q (· = 0xC3) → s.headWord q 8 % 64 = 0 → s.headWord q 0x10 ≠ 0 →
      (s.die die).slotOf (s.headWord q 0x10) = some (n, x, im) →
      Answered (s.setDie die { s.die die with crib := (s.die die).crib.filter fun e => e.key.digest ≠ im.digest }) q (s.headWord q 8)
        (commandOver s 1 0) u → exec (.cribInvalidate q) s = .next u)

/-- ATTEST, CHECKPOINT and RESTORE, and an entry of no type: the record of each (R392, R397, R399). A checkpoint that has begun goes
on whatever its graph or its die's table holds; no frame is streamed during a compute phase (R366). -/
def StoreCommands (s : State) : Prop :=
  ∀ (q : Fin 64) (u : State),
    (HeadRead s q (· = 0xC4) → s.headWord q 8 % 64 = 0 →
      let s1 : State := { s with free := s.free + 1 }
      (∀ t : State, Config.deviceKeyReadable s.free = true →
        s1.tryHost q (attestBody (s.headWord q 0x10) (s.headWord q 0x18)) = .ok () t →
        Answered t q (s.headWord q 8) (commandOver s 1 0) u → exec (.attest q) s = .next u) ∧
      (Config.deviceKeyReadable s.free = false → Answered s1 q (s.headWord q 8) (commandOver s 2 0x383) u →
        exec (.attest q) s = .next u)) ∧
    (∀ st : Store, s.storeOf (s.headWord q 0x10) = some st → s.headWord q 8 % 64 = 0 →
      (HeadRead s q (· = 0xC5) → s.sirxon.checkpoint = none →
        ∃ t : State, exec (.checkpoint q) s = .next t ∧ t.sirxon.checkpoint = some q ∧ t.dram = s.dram ∧
          ∀ d : Fin 4, (t.die d).paused = true) ∧
      ∀ t : State, ((s.headBytes q).getD 7 0).toNat = 0xC5 → s.sirxon.checkpoint = some q → s.atRest = true → s.drained = true →
        (∀ x, x ∈ s.pcs → x.2.compute = false) → s.tryHost q (storeReach st) = .ok () t →
        t.storeFault .w st = none →
        let s1 := t.flushSlices.streamOut st (4 * streamBytes)
        Answered (({ s1 with stores := s1.storedPages (s.headWord q 0x10) :: s1.stores.filter fun p => p.store ≠ s.headWord q 0x10,
                             sirxon := { s1.sirxon with checkpoint := none } } : State).setPaused false) q (t.headWord q 8)
          { commandOver t 1 0 with unit := 1, wmark := 4 * (2 ^ 37 - 2 ^ 24) } u → exec (.checkpoint q) s = .next u) ∧
    (∀ (st : Store) (t : State), HeadRead s q (· = 0xC6) → s.storeOf (s.headWord q 0x10) = some st → s.headWord q 8 % 64 = 0 →
      s.sirxon.anyIssued = false → (∀ x, x ∈ s.pcs → x.2.compute = false) → s.tryHost q (storeReach st) = .ok () t →
      t.storeFault .r st = none →
      Answered ((t.streamIn st (4 * streamBytes)).restorePages (s.headWord q 0x10)) q (t.headWord q 8)
        { commandOver t 1 0 with unit := 1, wmark := 4 * (2 ^ 37 - 2 ^ 24) } u → exec (.restore q) s = .next u) ∧
    (HeadRead s q (fun n => n ∉ List.range 0x21 ∧ n ∉ [0x80, 0xC0, 0xC1, 0xC2, 0xC3, 0xC4, 0xC5, 0xC6] ∨ n = 0) →
      Answered s q (s.headWord q 8) (commandOver s 5 0x302) u → exec (.entryInvalid q) s = .next u)

/-- UNLOAD_COMPLETE: once no entry of the table names the image and the command's record is written, its slot is empty with the
next generation, and the crib entries of its digest are gone (R311, R312). -/
def Unloads (s : State) : Prop :=
  ∀ (die : Fin 4) (slot : Fin 4096) (im : Image) (at_ : Nat) (t : State),
    (tabGet ({} : ImageSlot) slot (s.die die).images).image = some im → im.unloading = some at_ →
    (∀ e, e ∈ (s.die die).table → e.card = none → e.task.handle.toNat / 2 ^ 12 % 2 ^ 12 ≠ slot.val) →
    s.unloadRecord die slot at_ = (t, true) →
    ∃ u : State, exec (.unloadComplete die slot) s = .next u ∧ u.dram = t.dram ∧ u.hostMem = t.hostMem ∧
      (u.die die).images = tabPut slot
        { generation := ((tabGet ({} : ImageSlot) slot (t.die die).images).generation + 1) % 256 } (t.die die).images ∧
      (u.die die).crib = (t.die die).crib.filter fun e => e.key.digest ≠ im.digest

/-- A sequencer is about to enter a block that is not in the crib: the die, the block's key, its code (R308). -/
def EntersBlock (s : State) (who : SeqId) (c : CodeRef) (v : Variant) (key : CribKey) : Prop :=
  let q := s.seq who
  q.code = some c ∧ s.variantOf c = some v ∧ s.issues who = true ∧ q.bundle.pos = 0 ∧ q.bundle.replay = none ∧
    key = s.cribKey c v q.before.vpc ∧ key.vpc = q.before.vpc ∧ (s.die c.die).cribEntry key = none

/-- CRIB_LOWERING of the block that a sequencer is about to enter: its entry is in the crib (R308); a literal lowering counts
as a fallback (R310); a word that cannot be read stands with it, the bundle of the block or the literal word that it belongs to.
A sequencer that then needs that word traps with 0x1C1 or 0x1C2, and its image is marked failed (R315). -/
def Lowers (s : State) : Prop :=
  ∀ (who : SeqId) (c : CodeRef) (v : Variant) (key : CribKey), let q := s.seq who
    let withEntry (lost : Option LostWord) : State :=
      s.setDie c.die { s.die c.die with crib := { key := key, lost := lost } :: (s.die c.die).crib }
    (EntersBlock s who c v key →
      exec (.cribLowering who .overlapped) s = .next (withEntry none) ∧
      (∃ t : State, exec (.cribLowering who .literal) s = .next t ∧ (t.die c.die).cribEntry key = some { key := key, lost := none } ∧
        (t.die c.die).fallbacks = (s.die c.die).fallbacks + 1) ∧
      (∀ n : Nat, blockStart v.code (bundleOn v.code key.vpc n) = key.vpc →
        exec (.cribLowering who (.codeUnreadable n)) s = .next (withEntry (some (.code (bundleOn v.code key.vpc n))))) ∧
      ∀ n : Nat, exec (.cribLowering who (.literalUnreadable n)) s = .next
        (withEntry (some (.literal (q.before.lpc + BitVec.ofNat 32 (4 * n)))))) ∧
    (∀ (e : CribEntry) (n : Nat), s.agenda = [] → who = s.focus → q.code = some c → s.variantOf c = some v → s.issues who = true →
      q.bundle.pos = 0 → q.bundle.replay = none → (s.die c.die).cribEntry (s.cribKey c v q.before.vpc) = some e → c.slot = some n →
      let x := tabGet ({} : ImageSlot) n (s.die c.die).images
      let failed := (s.setDie c.die { s.die c.die with
        images := tabPut n { x with image := x.image.map fun (im : Image) => { im with failed := true } } (s.die c.die).images }).openBundle who
      let trap (code : Cause) : TrapData :=
        { point := { slot := 0, cause := code, addr := 0, detail := 0 }, vpc := q.before.vpc, entries := [],
          resume := q.before.vpc, boundary := false, loops := q.before.loops }
      (e.lost = some (.code q.before.vpc) → step s = .next (failed.takeTrap who (trap 0x1C1)).tick) ∧
      (e.lost = some (.literal q.before.lpc) → readsLiteral q.before (bundleSlots v.code q.before.vpc) = true →
        step s = .next (failed.takeTrap who (trap 0x1C2)).tick))

end Sys2Proof.Statements

open Sys2Proof Sys2Proof.Machine Sys2Proof.Statements

/-! ### Prefixes and the X engine -/

/-- R61: a NOP only takes its place in the bundle; alone with S = 1 it changes nothing but VPC; at the end of a larger bundle
the bundle ends. -/
def Obligations.NopDoesNothing : Prop :=
  ∀ s : State,
    exec (.nop false) s = .next (noted (fun _ b => { b with lit := none }) s) ∧
    exec (.nop true) s = .next ((noted (fun _ b => { b with lit := none }) s).endBundle s.focus) ∧
    (s.cur.bundle.pos = 0 → s.cur.bundle.replay = none → s.cur.bundle.trap = none → s.cur.bundle.ending = none →
      s.cur.bundle.target = none → s.cur.bundle.boundary = false → s.cur.now = s.cur.before →
      exec (.nop true) s = .next (afterLoneNop s))

/-- R62, R63, R65: LIT gives the next slot its literal, GUARD tests bit 0 of a predicate once, as the preceding bundles left it,
SCOPE names the scope of the bundle's accesses. -/
def Obligations.PrefixesNoteTheBundle : Prop :=
  ∀ s : State,
    (∀ l : BitVec 24, exec (.lit l) s = .next (noted (fun _ b => { b with lit := some l }) s)) ∧
    (∀ (p : BitVec 7) (m : BitVec 8) (pol : Bool), exec (.guard p m pol) s = .next
      (noted (fun q b => { b with guard := some (decide ((q.before.getP p).getLsbD 0 ≠ pol), m) }) s)) ∧
    ∀ (c : BitVec 5) (sc : Scope), (c.toNat, sc) ∈ [(0, Scope.core), (1, .cluster), (2, .die), (3, .package), (4, .fabric), (5, .system)] →
      exec (.scope c) s = .next (noted (fun _ b => { b with scope := sc }) s)

/-- R79, R81 to R83: the nine arithmetic slots complete, with the value and the exceptions of the spec's formulas. -/
def Obligations.IntegerArithmeticCompletes : Prop :=
  Yields .add 0x08 addResult ∧ Yields .sub 0x09 subResult ∧ Yields .and 0x0A (logicResult (· &&& ·) (· &&& ·)) ∧
    Yields .or 0x0B (logicResult (· ||| ·) (· ||| ·)) ∧ Yields .xor 0x0C (logicResult (· ^^^ ·) (· ^^^ ·)) ∧
    Yields .shf 0x0D shfResult ∧ Yields .mul 0x0E mulResult ∧ Yields .div 0x0F divResult ∧ Yields .mnx 0x10 mnxResult

/-- R84: all 256 bits of the predicate take the outcome, unless N; lx0 receives bits [63:0] of it whatever N holds; no exception
is raised and nothing else changes. R85: D takes A when bit 0 of p[F] is 1, and B otherwise; x0 takes nothing, and with N only lx0
receives the value. -/
def Obligations.CompareAndSelectDeliver : Prop :=
  (∀ (s : State) (w : Slot) (fm : Form) (o : Operands) (s' : State), Performs 0x11 w fm s → Reads w fm s o s' →
    Lands s s' w .x (fun r n =>
      let all := if condition (w.f.toNat % 8) o.xa (operandB w o o.lit.isSome) then BitVec.allOnes 256 else 0
      n.lx = #v[all.setWidth 64, r.lx[0]] ∧ n.lv = r.lv ∧ n.x = r.x ∧ n.v = r.v ∧
      ∀ k, n.getP k = if k = highPred w ∧ w.n = false then all else r.getP k) (exec (.cmp w) s)) ∧
  (∀ (s : State) (w : Slot) (fm : Form) (o : Operands) (s' : State), Performs 0x14 w fm s → Reads w fm s o s' →
    Lands s s' w .x (fun r n =>
      let y := if (s.cur.before.getP (0#2 ++ w.f)).getLsbD 0 = true then o.xa else o.xb
      n.lx = #v[y, r.lx[0]] ∧ n.lv = r.lv ∧ n.p = r.p ∧ n.v = r.v ∧
      ∀ k, n.getX k = if k = w.d ∧ k ≠ 0 ∧ w.n = false then y else r.getX k) (exec (.sel w) s))

/-- R86 to R89: the moves and conversions complete with the spec's values; a conversion to FP32 rounds in sr.round's mode, one
from FP32 clamps with integer saturation. -/
def Obligations.MovesAndConversionsComplete : Prop :=
  Yields .movi 0x12 moviResult ∧ Yields .moviTop 0x12 moviTopResult ∧ Yields .moviUpper 0x12 moviUpperResult ∧
    Yields .movx 0x13 (fun _ o => Result.ofX o.xa) ∧ Yields .movxSignExtend 0x13 movxSxResult ∧
    Yields .movxZeroExtend 0x13 movxZxResult ∧ Yields .movxSif 0x13 (fun _ o => fromIntResult o.xa.toInt o) ∧
    Yields .movxUif 0x13 (fun _ o => fromIntResult o.xa.toNat o) ∧
    Yields .movxFsi 0x13 (fun _ o => toIntResult (-(2 ^ 63)) (2 ^ 63 - 1) o) ∧
    Yields .movxFui 0x13 (fun _ o => toIntResult 0 (2 ^ 64 - 1) o) ∧ Yields .movxVlane 0x13 vlaneResult ∧
    Yields .movxIdx 0x13 idxResult ∧ Yields .movxCnt 0x13 cntResult

/-- R91 to R93: BR and br.not test bit 0 of p[A], p0 to p63, JMP is always taken, BRU tests the mask-stack top; a taken one goes
to the spec's word offset from its bundle, with a literal above the offset's own bits. -/
def Obligations.BranchesTransfer : Prop :=
  Completes .br 0x15 (Transfers testBit shortOffset) ∧ Completes .brNot 0x15 (Transfers (fun o => !testBit o) shortOffset) ∧
    Completes .jmp 0x16 (Transfers (fun _ => true) jumpOffset) ∧ Completes .bru 0x17 (Transfers maskTest shortOffset)

/-- R95, R96: LOOP and loop n enter a loop or skip its body, with a count clamped to 32 bits; NEXT repeats or leaves it. -/
def Obligations.LoopsIssue : Prop :=
  Completes .loop 0x18 (LoopIssues fun _ o => o.xa.toInt) ∧
    Completes .loopN 0x18 (LoopIssues fun w o => (((o.lit.getD 0) ++ w.b).toNat : Int)) ∧ Completes .next 0x19 NextIssues

/-- R98, R99, R218: an SVC and a HALT stand until their bundle ends, with the service number or the failure that they carry. -/
def Obligations.ServiceAndHaltStand : Prop :=
  Completes .svcCall 0x1A (Stands 0x1A fun w _ => .call ((w.a ++ w.b).setWidth 16)) ∧
    Completes .svcTrap 0x1A (Stands 0x1A fun w _ => .trap ((w.a ++ w.b).setWidth 16)) ∧
    Completes .svcTret 0x1A (Stands 0x1A fun _ _ => .tret) ∧ Completes .halt 0x1B (Stands 0x1B fun _ _ => .halt none) ∧
    Completes .haltFail 0x1B (Stands 0x1B fun _ o => .halt (some (failureOf 0x042 (o.xa.setWidth 16) o.regs)))

/-- R28, R100, R189, R216: CSRR delivers a system register as the preceding bundles left it; CSRW writes its fields and clears a
sticky record. -/
def Obligations.SystemRegistersReadAndWrite : Prop := Completes .csrr 0x1C ReadsSystem ∧ Completes .csrw 0x1D WritesSystem

/-! ### The G engine -/

/-- R109, R110: STRM writes a descriptor, STRX one dimension, strx.off clears one; a stride or extent out of range traps with
0x089 and changes nothing. -/
def Obligations.StreamDescriptorsAreSet : Prop :=
  Completes .strm 0x20 SetsWhole ∧ Completes .strx 0x21 SetsDimension ∧ Completes .strxOff 0x21 ClearsDimension ∧
    Traps .strx 0x21 (fun _ o s' s2 code addr detail => ¬strideFits o ∧ s2 = s' ∧ code = 0x089 ∧ addr = 0 ∧ detail = 0)

/-- R111 to R115: loads and stores of scalars and vectors complete wherever their bytes can be accessed, with the post-increment
of the base register. -/
def Obligations.LoadsAndStoresComplete : Prop :=
  Completes .ld 0x22 Loads ∧ Completes .st 0x23 Stores ∧ Completes .vld 0x24 LoadsVector ∧ Completes .vst 0x25 StoresVector

/-- R117 to R121: the words of a queue control word and the gather of a row from A space; a push to a queue that is not full and a
pop from one that is not empty complete; else they wait. -/
def Obligations.QueuesAndGatherComplete : Prop :=
  Completes .ldQe 0x22 LoadsQueueWord ∧ Completes .stQe 0x23 StoresQueueWord ∧ Completes .gath 0x26 Gathers ∧
    Completes .qpsh 0x2C (Pushes true) ∧ Completes .qpshV 0x2C (Pushes false) ∧ Completes .qpop 0x2D (Pops true) ∧
    Completes .qpopV 0x2D (Pops false) ∧ Waits .qpsh 0x2C (QueueWaits true true) ∧ Waits .qpshV 0x2C (QueueWaits true false) ∧
    Waits .qpop 0x2D (QueueWaits false true) ∧ Waits .qpopV 0x2D (QueueWaits false false)

/-- R122 to R124: an AMO is one read and write at the home slice, MON arms the monitor, MWT returns the first status that holds or
waits. That an AMO and a MON drop the line's copy in the issuer's cluster cache is the model's choice (log entry 20). -/
def Obligations.AtomicsAndMonitorComplete : Prop :=
  Completes .amo 0x27 Atomically ∧ Completes .mon 0x28 Monitors ∧ Completes .mwt 0x29 MonitorEnds ∧ Waits .mwt 0x29 MonitorWaits

/-- R125, R127, R128: FENCE performs the earlier accesses at its scope; preq asks for a page and preq.w waits for it; PREF brings
lines in and raises nothing. That a FENCE at die scope or wider applies every queued write of the cluster, and that the
sequencer's time takes over what its earlier reads met, is the model's choice (log entries 33 and 20). -/
def Obligations.FencesAndResidencyComplete : Prop :=
  Completes .fence 0x2A Fences ∧ Completes .preq 0x2B AsksResidency ∧ Completes .preqW 0x2B FindsResident ∧
    Waits .preqW 0x2B WaitsResidency ∧ Completes .pref 0x2E Prefetches

/-! ### The V engine -/

/-- R134 to R137: element-wise arithmetic under the mask: an element is computed where the mask bit of its first byte is 1. -/
def Obligations.VectorArithmeticCompletes : Prop :=
  CompletesWith .vadd 0x30 (fun _ _ _ => True) (Lanes byT (arithLane (fun f r a b _ => fAdd f r a b) fun a b _ => a + b)) ∧
    CompletesWith .vsub 0x31 (fun _ _ _ => True) (Lanes byT (arithLane (fun f r a b _ => fSub f r a b) fun a b _ => a - b)) ∧
    CompletesWith .vmul 0x32 (fun _ _ _ => True) (Lanes byT (arithLane (fun f r a b _ => fMul f r a b) fun a b _ => a * b)) ∧
    CompletesWith .vfma 0x33 (fun _ _ _ => True) (Lanes byT (arithLane fFma fun a b d => a * b + d)) ∧
    CompletesWith .vmnx 0x34 (fun _ _ _ => True) (Lanes byT minMaxLane) ∧
    CompletesWith .vshf 0x36 (fun _ _ _ => True) (Lanes byT shiftLane)

/-- R138, R139, R151: logic on bytes and on predicates, comparison, and the five moves, each under the mask. -/
def Obligations.VectorLogicAndMovesComplete : Prop :=
  CompletesWith .vlog 0x35 (fun _ _ _ => True) (Bytewise fun w o => logic (w.f.extractLsb' 0 3).toNat o.a o.b) ∧
    CompletesWith .vlogP 0x35 (fun _ _ _ => True)
      (Bitwise bankD fun w o => logic (w.f.extractLsb' 2 2).toNat (bankA w o) (bankB w o)) ∧
    CompletesWith .vcmp 0x3C (fun _ _ _ => True) Compares ∧
    CompletesWith .vmov 0x45 (fun _ _ _ => True) (Bytewise fun _ o => o.a) ∧
    CompletesWith .vmovFp 0x45 (fun _ _ _ => True) (Bytewise fun w o => (bankA w o).setWidth 2048) ∧
    CompletesWith .vmovTp 0x45 (fun _ _ _ => True) (Bitwise bankD fun _ o => o.a.setWidth 256) ∧
    CompletesWith .vmovExp 0x45 (fun _ _ _ => True) (Bytewise fun w o => expanded (bankA w o)) ∧
    CompletesWith .vmovIns 0x45 (fun _ _ _ => True) Inserts

/-- R140 under the mask of R134: byte j of D is byte j of A where bit j of p[F] is 1, else byte j of B; no exception. -/
def Obligations.VectorSelectTakesBytes : Prop :=
  ∀ (s : State) (w : Slot) (fm : Form) (o : Operands) (s' : State), Performs 0x3D w fm s → Reads w fm s o s' →
    ∃ v : Vec, (∀ j, j < 256 → lane 8 v j =
        if s.cur.before.maskTop.getLsbD j = true then
          (if (s.cur.before.getP (0#2 ++ w.f)).getLsbD j = true then lane 8 o.a j else lane 8 o.b j)
        else lane 8 (s.cur.before.getV w.d) j) ∧
      Lands s s' w .v (fun r n => n.lv = #v[v, r.lv[0], r.lv[1], r.lv[2]] ∧ n.lx = r.lx ∧ n.p = r.p ∧ n.x = r.x ∧
        ∀ k, n.getV k = if k = w.d ∧ w.n = false then v else r.getV k) (exec (.vsel w) s)

/-- R50, R51, R145 to R147: reductions and the functions of one element, each rounded once. -/
def Obligations.ReductionsAndFunctionsComplete : Prop :=
  CompletesWith .vred 0x38 (fun _ _ _ => True) Reduces ∧
    CompletesWith .vexp 0x39 (fun _ _ _ => True) (Lanes byT (unaryLane fun w f r a => fExp f r (mOf w = 1) a)) ∧
    CompletesWith .vrcp 0x3A (fun _ _ _ => True) (Lanes byT (unaryLane fun _ => fRecip)) ∧
    CompletesWith .vrsq 0x3B (fun _ _ _ => True) (Lanes byT (unaryLane fun _ => fRsqrt)) ∧
    CompletesWith .vsqrt 0x3B (fun _ _ _ => True) (Lanes byT (unaryLane fun _ => fSqrt)) ∧
    CompletesWith .vrmx 0x47 (fun _ _ _ => True) (Lanes byT rescaleLane)

/-- R141 to R144, R148 to R150: conversions, quantisation and scaling; permutations, broadcasts and index sequences. -/
def Obligations.ConversionsAndPermutesComplete : Prop :=
  CompletesWith .vcvt 0x37 (fun _ _ _ => True) Converts ∧ CompletesWith .vqnt 0x41 (fun _ _ _ => True) Quantises ∧
    CompletesWith .vsca 0x40 (fun _ _ _ => True) (Lanes (fun _ _ => 4) scaleLane) ∧
    CompletesWith .vprm 0x3E (fun _ _ _ => True) (Lanes byM permuteLane) ∧
    CompletesWith .vbrd 0x3F (fun _ _ _ => True) (Lanes byM (broadcastLane false)) ∧
    CompletesWith .vbrdImm 0x3F (fun _ _ _ => True) (Lanes byM (broadcastLane true)) ∧
    CompletesWith .viot 0x46 (fun _ _ _ => True) (Lanes byM indexLane)

/-- R18, R30, R152: the mask stack pushes, inverts and pops; a push at depth 8 and a pop or invert at depth 0 trap with no
effect. -/
def Obligations.MaskStackMoves : Prop :=
  Completes .vmps 0x42 PushesMask ∧ Completes .vmiv 0x43 InvertsMask ∧ Completes .vmpp 0x44 PopsMask ∧
    Traps .vmps 0x42 MaskOverflows ∧ Traps .vmiv 0x43 MaskUnderflows ∧ Traps .vmpp 0x44 MaskUnderflows

/-! ### The M engine -/

/-- R45 to R49, R160, R163 to R175, R181, R182, R184, R187: wherever their mode holds, their literal word is there, their sets
stand and their activations can be read, the four MMVs enter every participant's columns into its lanes, in ascending order, each
S rounded once with its bound; the causes 0x101 to 0x105 and 0x107 come in the spec's order and change nothing. The decode of a
code that only a set of another format holds, an e_w of -68 where no BF16 load has written it, and the converter's free code are
the model's choices (log entries 68, 63 and 3). -/
def Obligations.MatrixSlotsComplete : Prop :=
  CompletesWith .mmv8 0x50 (MatrixReady .m8) (Multiplies .m8) ∧ CompletesWith .mmv4 0x51 (MatrixReady .m4) (Multiplies .m4) ∧
    CompletesWith .mmv2 0x52 (MatrixReady .m2) (Multiplies .m2) ∧ CompletesWith .mmvb 0x53 (MatrixReady .mb) (Multiplies .mb) ∧
    Traps .mmv8 0x50 (ModeRefused .m8) ∧ Traps .mmv4 0x51 (ModeRefused .m4) ∧ Traps .mmv2 0x52 (ModeRefused .m2) ∧
    Traps .mmvb 0x53 (ModeRefused .mb)

/-- R187 to R192: weight loads and updates, the choice of a set, the converter's calibration and the gleaner's sampling. -/
def Obligations.WeightMaintenanceCompletes : Prop :=
  Completes .mwld 0x54 StartsLoad ∧ Completes .mwsl 0x55 SelectsSet ∧ Completes .mwup 0x56 UpdatesRows ∧
    Completes .mcalW 0x57 WritesCalibration ∧ Completes .mcalInv 0x57 Invalidates ∧ Completes .mcalR 0x57 ReadsCalibration ∧
    Completes .msmpSet 0x58 SetsSampling ∧ Completes .msmpRd 0x58 ReadsSampling

/-- R45, R48, R160, R193, R194: MACR reads lanes, MACW writes them, MACS zeroes or scales them in place, each with its bound; a lane
address off its multiple or at 65,536 and beyond traps with 0x104 and changes nothing. -/
def Obligations.AccumulatorLanesChange : Prop :=
  Completes .macrV 0x59 (ReadsLanes 64 32 fun l => l.value.toNat) ∧ Completes .macrB 0x59 (ReadsLanes 64 32 fun l => l.bound.toNat) ∧
    Completes .macrP 0x59 (ReadsLanes 32 64 fun l => l.bound.toNat * 2 ^ 32 + l.value.toNat) ∧
    CompletesWith .macwV 0x5A (fun _ => LanesAt 64) (ChangedLanes 64 fun o i _ => (settled (floatAt o i) 0, 0)) ∧
    CompletesWith .macwP 0x5A (fun _ => LanesAt 32)
      (ChangedLanes 32 fun o i _ => (settled (floatAt o (2 * i)) (writtenBound (floatAt o (2 * i + 1))), 0)) ∧
    CompletesWith .macsZ 0x5B (fun _ => LanesAt 128) (ChangedLanes 128 fun _ _ _ => (⟨0, 0⟩, 0)) ∧
    CompletesWith .macsS 0x5B (fun _ => LanesAt 128) (ChangedLanes 128 fun o _ l => l.scale (floatAt o 0)) ∧
    CompletesWith .macsV 0x5B (fun _ => LanesAt 64) (ChangedLanes 64 fun o i l => l.scale (floatAt o i)) ∧
    Traps .macrV 0x59 (LanesRefused 64) ∧ Traps .macrB 0x59 (LanesRefused 64) ∧ Traps .macrP 0x59 (LanesRefused 32) ∧
    Traps .macwV 0x5A (LanesRefused 64) ∧ Traps .macwP 0x5A (LanesRefused 32) ∧ Traps .macsZ 0x5B (LanesRefused 128) ∧
    Traps .macsS 0x5B (LanesRefused 128) ∧ Traps .macsV 0x5B (LanesRefused 64)

/-! ### The K engine -/

/-- R195 to R197, R203: COPY and MCST whose checks pass take their channel; GET and PUT move their bytes at once. That PUT's
signal drops the line's copy in the cluster's cache is the model's choice (log entry 20). -/
def Obligations.CopiesAreAccepted : Prop :=
  Completes .copy 0x60 AcceptsCopy ∧ Completes .mcst 0x61 AcceptsMulticast ∧ Completes .get 0x62 Gets ∧ Completes .put 0x63 Puts

/-- R200, R201: WPTR reads a channel's pointer, status word or stamp into D and lk0; the status form sets REPORTED after the read
when FAILED is 1; F[3:2] = 3 and F[4] = 1 are refused. -/
def Obligations.ChannelReadsDeliver : Prop :=
  Completes .wptrP 0x65 ReadsPointer ∧ Completes .wptrS 0x65 ReadsStatus ∧ Completes .wptrT 0x65 ReadsStamp ∧
    (∀ (q : Seq) (o : Operands) (v : Word), o.form.engine = .k → o.form.d = .x → o.form.result = true →
      (q.commit o (Result.ofX v)).now.lk = v ∧
      ∀ n, (q.commit o (Result.ofX v)).now.getX n = if n = o.slot.d ∧ n ≠ 0 ∧ o.slot.n = false then v else q.now.getX n) ∧
    ∀ (w : Slot) (l : Option (BitVec 24)), (w.f.extractLsb' 2 2 = 3 ∨ w.f.getLsbD 4 = true) →
      decode l (w.word 0x65) = .error (.checkCode 3)

/-- R202, R204, R253, R268: KSYN ends when its work has, waits while it goes on, and traps with 0x141 on a failure unreported; JOB and
TASK enter the die's table or wait for room. -/
def Obligations.SynchronisersAndSubmittersComplete : Prop :=
  Completes .ksyn 0x66 Synchronises ∧ Waits .ksyn 0x66 SynchroniserWaits ∧ Traps .ksyn 0x66 SynchroniserTraps ∧
    Completes .job 0x64 (Submits 128 jobCheck) ∧ Waits .job 0x64 (SubmitterWaits 128 jobCheck) ∧
    Completes .task 0x70 (Submits 64 taskCheck) ∧ Waits .task 0x70 (SubmitterWaits 64 taskCheck)

/-! ### The Y engine -/

/-- R242 to R246: a rendezvous point is initialised, arrived at and waited for; the traps 0x181 to 0x184. -/
def Obligations.RendezvousCompletes : Prop :=
  Completes .rvin 0x68 (Initialises false) ∧ Completes .rvinB 0x68 (Initialises true) ∧ Completes .rvinRd 0x68 ReadsPoint ∧
    Completes .arv 0x69 (Arrives fun o => o.xa.toNat) ∧ Completes .arvOne 0x69 (Arrives fun _ => 1) ∧
    Completes .rvwt 0x6A PhasePassed ∧ Traps .rvin 0x68 (InitialiserTraps false) ∧ Traps .rvinB 0x68 (InitialiserTraps true) ∧
    Waits .rvwt 0x6A PhaseAwaited ∧ Traps .rvwt 0x6A PhaseTraps

/-- R235 to R239: GIVE moves a bin from a window to a window of the team and arrives on a point, at every bundle scope; the bank
map attaches, frees, shares and reads windows; a GIVE and a bmap.free whose window has an access in flight drain; the traps of
each, in their order. That an alloc takes neither a FREE bin that is marked for retirement nor the lowest ones that a reservation
still needs, so that 0x0A4 can be raised beside them, is the model's choice (log entry 68). -/
def Obligations.BinsMoveBetweenWindows : Prop :=
  CompletesWith .give 0x6B CanGive Gives ∧ Completes .bmapAlloc 0x6C (Allocates false) ∧
    Completes .bmapAllocz 0x6C (Allocates true) ∧ Completes .bmapFree 0x6C Frees ∧ Completes .bmapShare 0x6C Shares ∧
    Completes .bmapRd 0x6C ReadsWindow ∧ Waits .give 0x6B GiveDrains ∧ Waits .bmapFree 0x6C FreeDrains ∧
    Traps .give 0x6B GiveTraps ∧ Traps .bmapAlloc 0x6C AllocatorTraps ∧ Traps .bmapAllocz 0x6C AllocatorTraps ∧
    Traps .bmapFree 0x6C FreeTraps ∧ Traps .bmapShare 0x6C ShareTraps

/-- R249, R250, R254 to R256: messages, time, yielding and the discovered quantities. -/
def Obligations.MessagesAndTimeComplete : Prop :=
  Completes .send 0x6D Sends ∧ Waits .send 0x6D SenderWaits ∧ Completes .recv 0x6E Receives ∧ Waits .recv 0x6E ReceiverWaits ∧
    Completes .mprb 0x6F ProbesQueue ∧ Completes .timeNow 0x71 ReadsStampNow ∧ Completes .timeUntil 0x71 StampReached ∧
    Waits .timeUntil 0x71 StampAwaited ∧ Completes .yld 0x72 YieldEnds ∧ Waits .yld 0x72 YieldWaits ∧
    Completes .hlth 0x73 ReadsHealth

/-! ### Events -/

/-- R121, R124, R127, R202, R237, R246, R250, R254, R255: a waiting slot goes on at its event and completes with the operands it read
at issue. -/
def Obligations.WaitsEndByTheirEvents : Prop :=
  Resumes .mwtWake .mwt 0x29 (EndsByEvent 1) ∧ Resumes .mwtLimit .mwt 0x29 (EndsByLimit 1) ∧
    Resumes .preqWComplete .preq 0x2B ResidencyEnds ∧
    Resumes .queueOpWake .queue 0x2C (fun w => Pushes (w.f = 0) w) ∧ Resumes .queueOpWake .queue 0x2D (fun w => Pops (w.f = 0) w) ∧
    Resumes .ksynComplete .ksyn 0x66 Synchronises ∧ Resumes .rvwtComplete .rvwt 0x6A PhasePassed ∧
    Resumes .recvWake .recv 0x6E Receives ∧ Resumes .timeUntilReached .time 0x71 StampReached ∧
    Resumes .yldWake .yld 0x72 YieldsOnEvent ∧ Resumes .yldCyclesPassed .yld 0x72 YieldsOnTime ∧
    ResumesWith .drainComplete .drain 0x6B GiveDrained GiveMoved ∧ Resumes .drainComplete .drain 0x6C FreeDrained

/-- R121, R204, R246, R249, R250, R268, R348, R411: a wait past its limit raises its cause, unperformed; a request without response is
sent a second time before it does. -/
def Obligations.WaitsExpire : Prop :=
  Expires .queueWaitLimit .queue (fun op => op = 0x2C ∨ op = 0x2D) 1048576 0x087 keepsPlace
      (StillAwaits .queue fun p => QueueWaits (decide (p.op = 0x2C)) (decide (p.w.f = 0))) waitedWord
      (fun p => BitVec.ofNat 16 ((waitedWord p).toNat / 131072 % 16)) ∧
    Expires .jobSubmissionWaitLimit .room (· = 0x64) 1048576 0x144 leavesRoom (fun _ _ _ => True) (fun _ => 0) (fun _ => 0) ∧
    Expires .taskSubmissionWaitLimit .room (· = 0x70) 1048576 0x202 leavesRoom (fun _ _ _ => True) (fun _ => 0) (fun _ => 0) ∧
    Expires .rendezvousWaitLimit .rvwt (· = 0x6A) 16777216 0x185 keepsPlace (StillAwaits .rvwt fun _ => PhaseAwaited)
      (fun _ => 0) (fun p => p.w.b.setWidth 16) ∧
    Expires .messageSendWaitLimit .send (· = 0x6D) 1048576 0x187 keepsPlace (fun s w _ => (s.core w.core).sendReg.isSome = true)
      (fun _ => 0) (fun _ => 0) ∧
    Expires .messageReceiveWaitLimit .recv (· = 0x6E) 1048576 0x188 leavesLine NoFlitFor (fun _ => 0)
      (fun p => p.w.b.setWidth 16) ∧
    Expires .networkRequestTimeout .network (fun _ => True) 65536 0x244 keepsPlace (fun s w _ => (s.seq w).bundle.resent = true)
      (fun p => p.addr) (fun _ => 0) ∧
    Expires .fabricRequestTimeout .fabric (fun _ => True) 1048576 0x282 keepsPlace (fun s w _ => (s.seq w).bundle.resent = true)
      (fun p => p.addr) (fun _ => 0) ∧
    Resends .networkRequestTimeout .network 65536 ∧ Resends .fabricRequestTimeout .fabric 1048576

/-- R99, R268, R278 to R281, R288: the scheduler places, starts, ages, stops and reserves; a HALT that waited ends its rank, and
an ended entry gets its record. That TASK_PLACEMENT preloads group 0 of cores whose two groups are empty, and that a placed task
of a stopped graph goes back, is the model's choice (log entries 25 and 13). -/
def Obligations.SchedulerServesItsEntries : Prop :=
  ∀ s : State, Places s ∧ Starts s ∧ Ages s ∧ StopsGraph s ∧ Reserves s ∧ GrantsRoom s ∧ Records s ∧ Halts s

/-- R282 to R286: a task at rest at its boundaries is saved, its parked bins may be evicted, and it resumes. -/
def Obligations.PreemptionSavesAndResumes : Prop := ∀ s : State, Saves s ∧ ResumesTask s ∧ Evicts s

/-- R274, R354, R356, R357, R414, R415: copy cards, collectives, migrations and residency requests end with what they did. -/
def Obligations.CardsEnd : Prop :=
  ∀ s : State, CopiesCard s ∧ Collects s ∧ CollectiveExpires s ∧ Migrates s ∧ ServesResidency s

/-- R366 to R368, R373 to R383: bank MACs, attention steps and row cards, and the phases and power states of a pseudo-channel.
That a row card fails before a further row is done, where a lost line and the contents of a spill row lie, and the SOURCE of its
record are the model's choices (log entries 43, 67 and 70). -/
def Obligations.TowersComputeAndSleep : Prop :=
  ∀ s : State, MultipliesBanks s ∧ Attends s ∧ RowCardsIssue s ∧ ClearsRows s ∧ CopiesRows s ∧ RowsBreak s ∧
    PhaseStarts s ∧ PhaseYields s ∧ NormalEnds s ∧ Sleeps s ∧ Wakes s

/-- R175, R187, R198, R199, R248, R249, R252, R326, R328: transfers end or fail, weight loads end, the gleaner checks its picks;
flits reach their queues, writes their homes, and copies age out. The order of the loads of a core and of flits of different
routers, and the zeros of a line that a load cannot read, are the model's choices (log entries 68 and 28). -/
def Obligations.BackgroundWorkMoves : Prop :=
  ∀ s : State, TransferEnds s ∧ TransferFails s ∧ LoadEnds s ∧ Gleans s ∧ Injects s ∧ FlitArrives s ∧ PathDrains s ∧ CacheDrains s ∧
    CopiesDrop s

/-- R161, R176, R259, R348, R359, R361, R404: patrol, sparing, recalibration and retirement. -/
def Obligations.UpkeepActs : Prop :=
  ∀ s : State, Patrols s ∧ Spares s ∧ Recalibrates s ∧ RetiresMacro s ∧ RetiresCore s ∧ RetiresBin s ∧ RouterFails s

/-- R398, R400, R403, R406 to R408: lanes, links, routes, the health ring, the stamp clock and cooling. -/
def Obligations.LinksAndHealthAct : Prop :=
  ∀ s : State, LaneFails s ∧ LinkRecovers s ∧ RoutesRewritten s ∧ RingFills s ∧ Regulates s

/-- R390 to R396: power-up, boot, bring-up and the host's registers and aperture. The empty DRAM of POWER_UP and what it keeps,
the bits of a base that are dropped, and HRHEAD beyond HRTAIL as more than a ring away are the model's choices (log entries 1, 57
and 53). -/
def Obligations.HostPortActs : Prop :=
  ∀ s : State, PowersUp s ∧ BootStarts s ∧ Verifies s ∧ BringsUp s ∧ Notifies s ∧ RingControlled s ∧ Bar0Written s ∧
    RegistersRead s ∧ ApertureRead s ∧ ApertureWritten s

/-- R271, R273, R308, R310 to R312, R315, R392, R397, R399: entries of the host's queues, its commands, the end of an unload, and
the crib. The trap of a word that cannot be read (no entries, slot 0, RESUME its own bundle), the checks of a command's fields, a
store's layout, and when a lost word is noticed are the model's choices (log entries 44, 52, 54 and 66). -/
def Obligations.HostEntriesAndCrib : Prop :=
  ∀ s : State, HostEnters .hostJobCardEntry (fun n => 1 ≤ n ∧ n ≤ 0x20) hostCard cardCompl cardKind s ∧
    HostEnters .hostTaskEntry (· = 0x80) hostTask taskCompl (fun _ _ => none) s ∧
    ImageCommands s ∧ StoreCommands s ∧ Unloads s ∧ Lowers s

/-! ### Encoding -/

/-- R52, R60, R69: the word of every well-formed instruction decodes to it, with every operand at every value it admits. -/
def Obligations.DecodeInvertsEncode : Prop :=
  ∀ (lit : Option (BitVec 24)) (i : Instr) (w : BitVec 32), i.wellFormed lit = true → encode i = [w] → decode lit w = .ok i

/-- R52, R60, R70, R71: what a word decodes to is well formed and encodes to that word, so no two words give one instruction. -/
def Obligations.EncodeInvertsDecode : Prop :=
  ∀ (lit : Option (BitVec 24)) (i : Instr) (w : BitVec 32), decode lit w = .ok i → i.wellFormed lit = true ∧ encode i = [w]

/-- Words that the spec prints, read as it says, and the reserved opcodes of R69, which K-001 refuses. -/
def Obligations.DecodesTheSpecsWords : Prop :=
  decode none 0x80000000 = .ok (.nop true) ∧ decode none 0x01003D09 = .ok (.lit 0x003D09) ∧
    decode none 0x02050200 = .ok (.guard 5 2 false) ∧
    decode none 0x920B3FFF = .ok (.moviTop ⟨true, false, false, 5, 0x27, 0x3F, 0x1F⟩) ∧
    decode none 0xBC060042 = .ok (.vcmp ⟨true, false, false, 3, 0, 2, 2⟩) ∧
    decode none 0xD0001127 = .ok (.mmv8 ⟨true, false, false, 0, 2, 9, 7⟩) ∧
    decode none 0xDB002121 = .ok (.macsS ⟨true, false, false, 0, 4, 9, 1⟩) ∧
    decode none 0xD90C0122 = .ok (.macrP ⟨true, false, false, 6, 0, 9, 2⟩) ∧
    decode none 0xE4108000 = .ok (.job ⟨true, false, false, 8, 16, 0, 0⟩) ∧
    decode none 0xEC100040 = .ok (.bmapAlloc ⟨true, false, false, 8, 0, 2, 0⟩) ∧
    ∀ w : BitVec 32, (w.extractLsb' 24 7).toNat ∈ [0x04, 0x05, 0x06, 0x07, 0x1E, 0x1F, 0x2F, 0x48, 0x49, 0x4A, 0x4B, 0x4C,
        0x4D, 0x4E, 0x4F, 0x5C, 0x5D, 0x5E, 0x5F, 0x67, 0x74, 0x75, 0x76, 0x77, 0x78, 0x79, 0x7A, 0x7B, 0x7C, 0x7D, 0x7E, 0x7F] →
      ∀ lit, decode lit w = .error (.checkCode 1)

/-! ### The machine -/

/-- R12, R29, R53, R62, R156, R218, R285, R308: with no agenda a step of an issuing sequencer runs the instruction that the word at
VPC and its place in the bundle decodes to, or that its next replay entry holds, its block lowered first, and time passes; a
sequencer that does not issue lets time pass alone, and one that waits for its trap frame tries again; the head of an agenda is
the event it names, the slot of the core it names, or time, which never takes the stamp back (log entry 2) and takes the copies of
65,536 cycles out of the cluster caches but for those with a write queued (R328). That the whole frame is tried again is the model's
choice (log entries 22 and 65). -/
def Obligations.StepRunsTheDecodedSlot : Prop :=
  ∀ s : State,
    (∀ (v : Variant) (x : BitVec 32) (i : Instr), s.agenda = [] → s.issues s.focus = true → s.wordsLost s.focus = none →
      s.cur.bundle.replay = none → s.cur.code.bind s.variantOf = some v → v.code[s.cur.before.vpc.toNat / 4 + s.cur.bundle.pos]? = some x →
      decode s.curLit x = .ok i → step s = tickOutcome (exec i (s.lowered s.focus))) ∧
    (∀ (r : Replay) (e : ReplayEntry) (rest : List ReplayEntry) (i : Instr), s.agenda = [] → s.issues s.focus = true →
      s.cur.bundle.replay = some r → r.entries = e :: rest → decode e.lit e.word = .ok i → step s = tickOutcome (exec i s)) ∧
    (s.agenda = [] → s.issues s.focus = false → (∀ p, s.cur.wait = some p → p.kind ≠ .frame) → step s = .next s.tick) ∧
    (∀ (p : Wait), s.agenda = [] → s.cur.wait = some p → p.kind = .frame → (s.core s.focus.core).issuing = some s.focus.group →
      s.sirxon.stopped = false →
      (∀ d, s.cur.bundle.pendingTrap = some d → step s = .next (s.takeTrap s.focus d).tick) ∧
      (s.cur.bundle.pendingTrap = none → step s = .next (s.trapReturn s.focus).tick)) ∧
    (∀ (i : Instr) (rest : List Action), s.agenda = .event i :: rest → step s = exec i { s with agenda := rest }) ∧
    (∀ (c : Fin 512) (g : Fin 2) (rest : List Action) (v : Variant) (x : BitVec 32) (i : Instr),
      s.agenda = .issue c :: rest → (s.core c).issuing = some g →
      let t : State := { s with agenda := rest, focus := ⟨c, g⟩ }
      t.issues ⟨c, g⟩ = true → t.wordsLost ⟨c, g⟩ = none → t.cur.bundle.replay = none → t.cur.code.bind t.variantOf = some v →
      v.code[t.cur.before.vpc.toNat / 4 + t.cur.bundle.pos]? = some x → decode t.curLit x = .ok i →
      step s = exec i (t.lowered ⟨c, g⟩)) ∧
    ∀ (cycles ns : Nat) (rest : List Action), s.agenda = .elapse cycles ns :: rest →
      let fresh (x : Nat × Cluster) (c : Copy) : Bool :=
        s.cycle + cycles < c.fetched + 65536 || x.2.pending.any fun p => p.va / 128 == c.line
      step s = .next
        { s with
          agenda := rest, cycle := s.cycle + cycles, stamp := BitVec.ofNat 64 (min (s.stamp.toNat + ns) (2 ^ 64 - 1)),
          clusters := s.clusters.map fun x => (x.1, { x.2 with copies := x.2.copies.filter (fresh x) }) }

/-- R5, R10, R71: a slot that sealing refuses has no run-time behaviour: that the step then stops with its lowest check code is the
model's choice (log entry 58). R63, R64: a slot
that its bundle's guard makes false has no effect but its place in the bundle, whatever it is, a HALT and an SVC too, beside the
stalls of its bundle: an X or V slot without a stream port has none, and an MMV stalls while a set that it reads is loading (R186,
log entry 65). R211: above
a trapping slot a memory slot, an M, K or Y slot, a mask-stack slot, CSRW, STRM, STRX, a HALT and an SVC are not performed: their
entries stand in state 0. -/
def Obligations.SlotsThatDoNotRun : Prop :=
  (∀ (i : Instr) (op : BitVec 7) (w : Slot) (s : State) (n : Nat), i.slot? = some (op, w) → s.cur.bundle.replay = none →
    n ∈ slotChecks op w s.curLit ++ imageKindChecks (s.cur.phase = .service) op w →
    (∀ m, m ∈ slotChecks op w s.curLit ++ imageKindChecks (s.cur.phase = .service) op w → n ≤ m) →
    exec i s = .fault (.notSealed n)) ∧
  (∀ (i : Instr) (op : BitVec 7) (w : Slot) (fm : Form) (s : State) (mask : BitVec 8), i.slot? = some (op, w) →
    s.cur.bundle.replay = none → slotChecks op w s.curLit = [] → imageKindChecks (s.cur.phase = .service) op w = [] →
    form op w s.curLit.isSome = some fm → s.cur.bundle.guard = some (false, mask) → mask.getLsbD s.cur.bundle.pos = true →
    let u := s.openBundle s.focus
    (exec i s = .next u ∨ exec i s = .next (u.finishSlot s.focus w.stop)) ∧
    ((fm.engine = .x ∨ fm.engine = .v) → readsPort fm w = false → exec i s = .next (u.finishSlot s.focus w.stop)) ∧
    ∀ j p : Nat, op ∈ [0x50#7, 0x51, 0x52, 0x53] → j < 8 → s.cur.before.mmode.getLsbD j = true →
      ((List.range 8).filter fun k => (s.core s.focus.core).liveMacros.getLsbD k)[j]? = some p →
      ((s.core s.focus.core).wset p (s.cur.before.mmode.extractLsb' 8 2).toNat).loading = true → exec i s = .next u) ∧
  ∀ (i : Instr) (op : BitVec 7) (w : Slot) (fm : Form) (s : State) (t : TrapPoint), i.slot? = some (op, w) →
    s.cur.bundle.replay = none → s.cur.bundle.trap = some t → s.cur.bundle.guardedFalse = false → slotChecks op w s.curLit = [] →
    imageKindChecks (s.cur.phase = .service) op w = [] → form op w s.curLit.isSome = some fm →
    (slotClass op = .deferred ∨ slotClass op = .service) →
    let u := s.openBundle s.focus
    let q := u.seq s.focus
    exec i s = .next ((u.setSeq s.focus
      { q with bundle := { q.bundle with entries := q.bundle.entries ++ [mkEntry q op fm w s.curLit 0] } }).finishSlot s.focus w.stop)

/-- R215, R218: in a replay a state 3 entry has no effect, and a state 2 entry is not performed: D and latch 0 of its engine, and lm0 for
GATH, receive THIRD, the sticky record takes XCPT at the entry's VPC and position, OPA becomes the held operand where H is set, and an
M entry advances LPC by 4; nothing else of the sequencer changes. -/
def Obligations.ReplayEntriesLand : Prop :=
  ∀ (i : Instr) (op : BitVec 7) (w : Slot) (fm : Form) (s : State) (r : Replay) (e : ReplayEntry) (rest : List ReplayEntry),
    i.slot? = some (op, w) → s.cur.bundle.replay = some r → r.entries = e :: rest → slotChecks op w e.lit = [] →
    imageKindChecks (s.cur.phase = .service) op w = [] → form op w e.lit.isSome = some fm →
    (e.state = 3 → exec i s = .next (s.advanceReplay s.focus r)) ∧
    (e.state = 2 → ∃ p : Seq, exec i s = .next ((s.setSeq s.focus p).advanceReplay s.focus r) ∧ LandsEntry fm e s.cur p)

/-- R54, R55, R66: every operand is read as the preceding bundles left it, by its code; a slot without a stream port reads nothing
else. -/
def Obligations.OperandsReadByTheirCodes : Prop :=
  ∀ (s s' : State) (w : Slot) (fm : Form) (o : Operands), Reads w fm s o s' →
    o.who = s.focus ∧ o.slot = w ∧ o.lit = s.curLit ∧ o.regs = s.cur.before ∧ o.vpc = s.cur.before.vpc ∧
    o.scope = s.cur.bundle.scope ∧ o.pos = s.cur.bundle.pos ∧
    (fm.a = .scalar → kindAccepts .scalar w.a = true → w.a.toNat < 48 → o.xa = scalarAt fm.engine s.cur.before w.a) ∧
    (fm.b = .scalar → kindAccepts .scalar w.b = true → w.b.toNat < 48 → o.xb = scalarAt fm.engine s.cur.before w.b) ∧
    (fm.a = .vector → kindAccepts .vector w.a = true → w.a.toNat < 48 → o.a = vectorAt fm.engine s.cur.before w.a) ∧
    (fm.b = .vector → kindAccepts .vector w.b = true → w.b.toNat < 48 → o.b = vectorAt fm.engine s.cur.before w.b) ∧
    (readsPort fm w = false → s' = s.openBundle s.focus)

/-- R105 to R109: a stream port reads its element for the loop indices: pad delivers zero with no access and no fault; else the bytes of
its space, extended as ZX says in a scalar position; from an engine that its space does not permit it raises 0x088, with ADDR 0. An
element of C space is its lanes' bytes; one that is misaligned, or at or past 0x80000, raises 0x08B at its address and reads nothing.
No STRM word gives SPACE 3. That 0x088 has ADDR 0, and that pad comes before it, is the model's choice (log entry 63). -/
def Obligations.StreamPortsReadTheirElement : Prop :=
  ∀ (s : State) (who : SeqId) (sc : Scope) (e : Engine) (r : Regs) (k : Fin 16),
    let d := r.streams[k]
    let code : BitVec 6 := BitVec.ofNat 6 (48 + k.val)
    let a := elementAt r d
    let permitted := d.space = 0 ∨ (d.space = 1 ∧ (e = .g ∨ e = .v ∨ e = .m ∨ e = .k)) ∨ (d.space = 2 ∧ e = .m)
    (isPad r d = true → (readScalar who sc e r code).on s = (.ok 0, s) ∧ (readVector who sc e r code).on s = (.ok 0, s)) ∧
    (isPad r d = false → d.space ≠ 3 → ¬permitted →
      (readScalar who sc e r code).on s = (.error (.cause 0x088 0 0), s) ∧
      (readVector who sc e r code).on s = (.error (.cause 0x088 0 0), s)) ∧
    (isPad r d = false → permitted →
      (∀ (l : List Byte) (t : State), (if d.space = 0 then readGlobal (.seq who) sc 0 a (2 ^ d.esz.toNat) else aRead who.core a (2 ^ d.esz.toNat)).on s
          = (.ok l, t) → l.length = 2 ^ d.esz.toNat → d.space ≠ 2 →
        (readScalar who sc e r code).on s = (.ok (extended d.zx (2 ^ d.esz.toNat) l), t)) ∧
      (∀ (l : List Byte) (t : State), (if d.space = 0 then readGlobal (.seq who) sc 0 a 256 else aRead who.core a 256).on s = (.ok l, t) →
          d.space ≠ 2 → (readVector who sc e r code).on s = (.ok (vecOf l), t)) ∧
      (d.space = 2 → a % 256 = 0 → a < 0x80000 → ∃ v : Vec, (readVector who sc e r code).on s = (.ok v, s) ∧
        ∀ i, i < 32 → lane 64 v i = (tabGet (0 : Word) (a / 8 + i) (s.core who.core).lanes).toNat) ∧
      (d.space = 2 → a % 2 ^ d.esz.toNat = 0 → a < 0x80000 → (readScalar who sc e r code).on s =
        (.ok (extended d.zx (2 ^ d.esz.toNat) ((List.range (2 ^ d.esz.toNat)).map fun i =>
          (tabGet (0 : Word) ((a + i) / 8) (s.core who.core).lanes).extractLsb' (8 * ((a + i) % 8)) 8)), s)) ∧
      (d.space = 2 → a % 256 ≠ 0 ∨ 0x80000 ≤ a → (readVector who sc e r code).on s = (.error (.cause 0x08B (BitVec.ofNat 64 a) 0), s)) ∧
      (d.space = 2 → a % 2 ^ d.esz.toNat ≠ 0 ∨ 0x80000 ≤ a →
        (readScalar who sc e r code).on s = (.error (.cause 0x08B (BitVec.ofNat 64 a) 0), s))) ∧
    ∀ (w : Slot) (l : Option (BitVec 24)), w.a.toNat ∉ [44, 45, 46] → w.f.extractLsb' 3 2 = 3 →
      decode l (w.word 0x20) = .error (.checkCode 3)

/-- R11, R20, R21, R57, R66, R218: the frame of the slots that work on registers alone: of the whole state only the sequencer changes, and
of its registers only the one that D names, the engine's own latches, sticky record and, with H, held operand. A stream port's read
has left its own effects before; in a replay the same holds of an entry of state 0 or 1; and with S = 1 the bundle then ends as it
ends. -/
def Obligations.RegisterSlotsChangeTheirRegister : Prop :=
  (∀ (mk : Slot → Instr) (op : BitVec 7), (mk, op) ∈ xSlots → Frames mk op .x XResult ∧ FramesAll mk op .x always XResult) ∧
    (Frames .csrr 0x1C .x XResult ∧
      FramesAll .csrr 0x1C .x (fun w o s' => ∃ v, sysContent o s' (sysNumber w) = some v) XResult) ∧
    (∀ (mk : Slot → Instr) (op : BitVec 7), (mk, op) ∈ vSlots → Frames mk op .v VResult ∧ FramesAll mk op .v always VResult) ∧
    ∀ (mk : Slot → Instr) (op : BitVec 7) (e : Engine) (dest : Slot → BitVec 7),
      (mk, op, e, dest) ∈ [(Instr.cmp, 0x11#7, Engine.x, highPred), (.vcmp, 0x3C, .v, highPred), (.vlogP, 0x35, .v, bankD),
        (.vmovTp, 0x45, .v, bankD)] → Frames mk op e (PResult e dest) ∧ FramesAll mk op e always (PResult e dest)

/-- R114, R229, R233: an A-space access inside an attached window that no transfer of the sequencer's own holds up reads or writes
exactly its bytes of the bin; past the windows it raises 0x083, across a window's end 0x082, detached or draining 0x081, and to an
incoming window it waits: a read and a write alike. -/
def Obligations.ASpaceAccessesReachTheirBin : Prop :=
  ∀ (s : State) (core : Fin 512) (addr n : Nat), let c := core.val / 4
    (s.core core).loads = [] → (∀ (g : Fin 2) (k : Fin 4), ((s.seq ⟨core, g⟩).channels[k]).busy = false) →
    (InWindow s core addr n → MemoryCanonical s →
      (∀ l : List Byte, l.length = n → ∃ t : State, (aWrite core addr l).on s = (.ok (), t) ∧
        (∀ i, i < n → binByte t c (placeIn s core addr + i) = l.getD i 0) ∧
        (∀ a, a < placeIn s core addr ∨ placeIn s core addr + n ≤ a → binByte t c a = binByte s c a) ∧
        t.dram = s.dram ∧ t.hostMem = s.hostMem ∧ t.remote = s.remote ∧ t.cores = s.cores ∧
        ∀ k : Nat, k < 128 → k ≠ c → t.cluster k = s.cluster k) ∧
      ((∀ u, u ∈ (s.cluster c).poison → 8 * u + 8 ≤ placeIn s core addr ∨ placeIn s core addr + n ≤ 8 * u) →
        (aRead core addr n).on s = (.ok ((List.range n).map fun i => binByte s c (placeIn s core addr + i)), s))) ∧
    (2 ^ 21 ≤ addr → ∀ l : List Byte, (aWrite core addr l).on s = (.error (.cause 0x083 (BitVec.ofNat 64 addr) 0), s) ∧
      (aRead core addr n).on s = (.error (.cause 0x083 (BitVec.ofNat 64 addr) 0), s)) ∧
    (addr < 2 ^ 21 → 131072 < addr % 131072 + n → (aRead core addr n).on s = (.error (.cause 0x082 (BitVec.ofNat 64 addr) 0), s) ∧
      ∀ l : List Byte, l.length = n → (aWrite core addr l).on s = (.error (.cause 0x082 (BitVec.ofNat 64 addr) 0), s)) ∧
    (addr < 2 ^ 21 → addr % 131072 + n ≤ 131072 →
      let e := ((s.core core).windows[addr / 131072 % 16]'(Nat.mod_lt _ (by decide)))
      (e.inc = false → (e.att = false ∨ e.drn = true) →
        (aRead core addr n).on s = (.error (.cause 0x081 (BitVec.ofNat 64 addr) 0), s) ∧
        ∀ l : List Byte, l.length = n → (aWrite core addr l).on s = (.error (.cause 0x081 (BitVec.ofNat 64 addr) 0), s)) ∧
      (e.inc = true → (aRead core addr n).on s = (.error .stall, s) ∧
        ∀ l : List Byte, l.length = n → (aWrite core addr l).on s = (.error .stall, s)))

/-- R113, R114, R122, R203, R326: the frame of what stores. A scalar or vector store to A space changes its bytes of the bin alone, at the
address that the store computes. A store to global memory, once the pages of its bytes are checked and its line is free, changes no
byte of memory outside the homes of its bytes, queues no write but its own, and leaves every bin, lane and weight; so does an AMO
about its word, and a PUT about its bytes and then about its signal word. Of the registers only the base and the AMO's D may
change, the latches of the engine and, with H, its held operand. -/
def Obligations.StoresChangeTheirBytesOnly : Prop :=
  (∀ (mk : Slot → Instr) (op : BitVec 7), (mk, op) ∈ [(Instr.st, 0x23#7), (.vst, 0x25#7)] →
    ∀ (s s' t : State) (w : Slot) (fm : Form) (o : Operands), Fits mk w s → Performs op w fm s → Reads w fm s o s' → EndsPlainly w s →
      exec (mk w) s = .next t →
      let core := s.focus.core
      let addr := effective o o.xb (storeDisp o)
      let keeps (u : State) : Prop := StoreKeeps .g w (u.seq s.focus) (t.seq s.focus) ∧
        (t.seq s.focus).now.lg = (u.seq s.focus).now.lg ∧
        ∀ r, r ≠ w.b.setWidth 5 → (t.seq s.focus).now.getX r = (u.seq s.focus).now.getX r
      (w.f.extractLsb' 3 2 = 1 → MemoryCanonical s' →
        (w.stop = true → InWindow s' core addr.toNat (if op = 0x25 then 256 else scalarBytes w)) →
        let stored (i : Nat) : Prop :=
          if op = 0x25 then i < 256 ∧ (w.f.getLsbD 0 = true → o.regs.maskTop.getLsbD i = true) else i < scalarBytes w
        let c := core.val / 4
        (∀ a, (∀ i, stored i → a ≠ placeIn s' core ((addr.toNat + i) % 2 ^ 64)) → binByte t c a = binByte s' c a) ∧
        (∀ k : Nat, k < 128 → k ≠ c → t.cluster k = s'.cluster k) ∧ t.dram = s'.dram ∧ t.hostMem = s'.hostMem ∧
        t.remote = s'.remote ∧ (∀ k : Fin 512, (t.core k).lanes = (s'.core k).lanes ∧ (t.core k).wspace = (s'.core k).wspace) ∧
        keeps s') ∧
      ∀ (ps : List (Nat × Nat × Option Home)) (s1 s2 : State), w.f.extractLsb' 3 2 = 0 →
        (checkSpans (.seq s.focus) .w false (storedSpans op w o)).on s' = (.ok ps, s1) →
        (checkBlocked (.seq s.focus) o.scope ps).on s1 = (.ok (), s2) → MemoryCanonical s2 →
        (w.stop = true → ∃ s3, (writeAll (.seq s.focus) o.scope (cacheHint o) ps (storedBytes op w o)).on s2 = (.ok (), s3)) →
        StoresOnly core ps s2 t ∧ keeps s2) ∧
  (∀ (s s' s1 t : State) (w : Slot) (fm : Form) (o : Operands) (h : Home), Fits .amo w s → Performs 0x27 w fm s → Reads w fm s o s' →
    EndsPlainly w s → (homeWord o .rw .atomic o.xa (amoBytes w)).on s' = (.ok h, s1) → MemoryCanonical s1 →
    exec (.amo w) s = .next t →
    StoresOnly s.focus.core [(o.xa.toNat, amoBytes w, some h)] s1 t ∧ StoreKeeps .g w (s1.seq s.focus) (t.seq s.focus) ∧
    ∀ r, r ≠ w.d ∨ w.n = true → (t.seq s.focus).now.getX r = (s1.seq s.focus).now.getX r) ∧
  ∀ (s s' s1 s2 s3 s4 t : State) (w : Slot) (fm : Form) (o : Operands) (p : Nat) (ps : List (Nat × Nat × Option Home)),
    Fits .put w s → Performs 0x63 w fm s → Reads w fm s o s' → EndsPlainly w s → PutChecked o s' p s1 →
    let n := lenOf o.xd
    (checkSpans (.seq s.focus) .w false (lineSpans o.xb.toNat n)).on s1 = (.ok ps, s2) →
    (checkBlocked (.seq s.focus) o.scope ps).on s2 = (.ok (), s3) → MemoryCanonical s3 →
    (writeAll (.seq s.focus) o.scope 0 ps (readBytes (s1.cluster o.cluster).mem p n)).on s3 = (.ok (), s4) →
    exec (.put w) s = .next t →
    let keeps (u : State) : Prop := StoreKeeps .k w (u.seq s.focus) (t.seq s.focus) ∧
      (t.seq s.focus).now.lg = (u.seq s.focus).now.lg ∧ (t.seq s.focus).now.x = (u.seq s.focus).now.x
    StoresOnly s.focus.core ps s3 s4 ∧ (o.xd1 = 0 → StoresOnly s.focus.core ps s3 t ∧ keeps s3) ∧
    ∀ (h : Home) (x : State), o.xd1 ≠ 0 → (homeWord o .w .atomic o.xd1 8).on s4 = (.ok h, x) → MemoryCanonical x →
      StoresOnly s.focus.core [(o.xd1.toNat, 8, some h)] x t ∧ keeps x

/-- R326, R327: a home write stores exactly its bytes, at a write time past every lease on the line and not before the writer's own
time; at die scope or wider the writer's time becomes it. -/
def Obligations.HomeWritesFollowTheirTimes : Prop :=
  ∀ (s : State) (who : SeqId) (sc : Scope) (die pa : Nat) (l : List Byte) (hint : BitVec 2), MemoryCanonical s →
    let h := Home.dram die pa
    let t := s.homeWrite (.seq who) sc h l hint
    let key := die * 2 ^ 37 + pa
    die < 4 → pa < 2 ^ 37 → pa % 128 + l.length ≤ 128 → l ≠ [] →
    (∀ i, i < l.length → readByte (key + i) t.dram = l.getD i 0) ∧
    (∀ a, a < key ∨ key + l.length ≤ a → readByte a t.dram = readByte a s.dram) ∧
    t.hostMem = s.hostMem ∧ t.remote = s.remote ∧ (∀ k : Nat, k < 128 → t.cluster k = s.cluster k) ∧
    (2 ≤ sc.rank → (t.seq who).time = max ((s.lineTimes h).2 + 1) (s.seq who).time) ∧
    (sc.rank < 2 → (t.seq who).time = (s.seq who).time)

/-- R24, R53, R66, R94, R98, R210, R211: a bundle at its end sees its trap taken first, with the entry of its own HALT or SVC among the
others in the order of the slots; else its SVC enters service with its number and an empty replay, and its HALT ends the rank; else
the next bundle, at the transfer's target or in sequence, reads what this one wrote. At an iteration boundary a running rank whose
task a request pre-empts stops there. -/
def Obligations.BundlesEnd : Prop :=
  ∀ (s : State) (who : SeqId), let q := s.seq who
    let next := q.bundle.target.getD (q.before.vpc + BitVec.ofNat 32 (4 * q.bundle.pos))
    let trap (code : Cause) (n : BitVec 16) : TrapData :=
      { point := { slot := q.bundle.endEntry.slot.toNat, cause := code, addr := 0, detail := n }, vpc := q.before.vpc, entries := [],
        resume := next, boundary := q.bundle.boundary, loops := q.before.loops }
    (q.bundle.trap = none → q.bundle.ending = none → q.bundle.boundary = false →
      s.endBundle who = s.setSeq who { q with now := { q.now with vpc := next }, before := { q.now with vpc := next }, bundle := {},
                                              wait := none }) ∧
    (q.bundle.trap = none → q.bundle.ending = none → q.bundle.boundary = true →
      let u : Seq := { q with now := { q.now with vpc := next }, before := { q.now with vpc := next }, bundle := {}, wait := none }
      (q.phase ≠ .running ∨ q.task = none ∨ s.preemptPending who = false → s.endBundle who = s.setSeq who u) ∧
      ∀ t : TaskRef, q.phase = .running → q.task = some t → s.preemptPending who = true → ∃ p : Wait, p.kind = .stopped ∧
        s.endBundle who = (s.setSeq who { u with wait := some p }).modEntry t.die t.serial fun e =>
          { e with stopped := e.stopped ++ [t.rank] }) ∧
    (∀ n, q.bundle.trap = none → q.bundle.ending = some (.call n) → s.endBundle who = s.takeTrap who (trap 0x041 n)) ∧
    (∀ n, q.bundle.trap = none → q.bundle.ending = some (.trap n) → s.endBundle who = s.takeTrap who (trap 0x042 n)) ∧
    (∀ f, q.bundle.trap = none → q.bundle.ending = some (.halt f) → s.endBundle who = s.halt who f) ∧
    (q.bundle.trap = none → q.bundle.ending = some .tret → s.endBundle who = s.trapReturn who) ∧
    (∀ p, q.bundle.trap = some p → q.bundle.ending = none → s.endBundle who = s.takeTrap who
      { point := p, vpc := q.before.vpc, entries := q.bundle.entries, resume := next, boundary := q.bundle.boundary,
        loops := q.before.loops }) ∧
    ∀ (p : TrapPoint) (x : Ending), q.bundle.trap = some p → q.bundle.ending = some x →
      ∃ below above : List ReplayEntry, q.bundle.entries = below ++ above ∧ (∀ e, e ∈ below → e.slot ≤ q.bundle.endEntry.slot) ∧
        (∀ e, above.head? = some e → q.bundle.endEntry.slot < e.slot) ∧
        s.endBundle who = s.takeTrap who { point := p, vpc := q.before.vpc, entries := below ++ q.bundle.endEntry :: above,
                                           resume := next, boundary := q.bundle.boundary, loops := q.before.loops }

/-- R25, R211, R213, R330: a trap of a running task whose frame can be written: the frame is written, the other group starts in
trap service, the core issues from it, and the trapped group's registers stay, with its bundle's exceptions; the service group has
met what the trapped one met. That the frame is written as a write of the trapped sequencer at core scope is the model's choice
(log entry 22). -/
def Obligations.TrapsEnterService : Prop :=
  ∀ (s s1 : State) (who : SeqId) (t : TaskRef) (d : TrapData),
    (s.seq who).phase = .running → (s.seq who).task = some t → (s.die t.die).service ≠ none →
    (writeGlobal (.seq who) .core 0 t.ctx.toNat (frameOf (s.seq who) who d).bytes).on s = (.ok (), s1) → (s1.seq who).phase = .running →
    let u := s.takeTrap who d
    let o := otherOf who
    u.focus = o ∧ (u.core who.core).issuing = some o.group ∧ (u.core who.core).frame = some (frameOf (s.seq who) who d) ∧
    AtService (u.seq o) t d.point.cause ∧ (u.seq who).phase = .running ∧ (u.seq who).task = (s1.seq who).task ∧
    (u.seq who).now = { (s1.seq who).now with vpc := d.vpc } ∧ (u.seq who).wait = none ∧
    (u.seq who).bundle.raised = (s1.seq who).bundle.raised ∧ (s1.seq who).time ≤ (u.seq o).time ∧
    u.dram = s1.dram ∧ u.hostMem = s1.hostMem

/-- R213 to R215: the frame's 0x2500 bytes: HDR0 to HDR5, the loop entries of R14 from the outermost on, the latches, the held operands
and the replay entries at their offsets, and zero in what a shallower stack leaves free. -/
def Obligations.FramesHaveTheirLayout : Prop :=
  ∀ (f : Frame), f.entries.length ≤ 6 →
    let b := f.bytes
    b.length = 0x2500 ∧
    wordAt b 0x00 = f.vpc ++ f.slot ++ 0#1 ++ BitVec.ofNat 4 f.entries.length ++ 0#14 ++ f.cause ∧
    wordAt b 0x08 = f.stamp ∧ wordAt b 0x10 = f.addr ∧ wordAt b 0x18 = f.detail.setWidth 64 ∧ wordAt b 0x20 = f.resume ++ f.lpc ∧
    wordAt b 0x28 = BitVec.ofNat 64 f.regs.loops.length ∧
    (∀ i, i < 6 → ∀ e : LoopEntry, e = f.regs.loops.getD i { index := 0, count := 0, start := 0, endV := 0 } →
      wordAt b (0x40 + 16 * i) = e.count ++ e.index ∧ wordAt b (0x48 + 16 * i) = e.endV ++ e.start) ∧
    wordAt b 0xA0 = f.regs.lx[0] ∧ wordAt b 0xA8 = f.regs.lx[1] ∧ wordAt b 0xB0 = f.regs.lg[0] ∧ wordAt b 0xB8 = f.regs.lg[1] ∧
    wordAt b 0xC0 = f.regs.lk ∧ wordAt b 0xC8 = f.regs.ly ∧
    (∀ i : Fin 4, vecOf ((b.drop (0x100 + 256 * i.val)).take 256) = f.regs.lv[i]) ∧
    (∀ i : Fin 2, vecOf ((b.drop (0x500 + 256 * i.val)).take 256) = f.regs.lm[i]) ∧
    (∀ e : Engine, vecOf ((b.drop (0x700 + 256 * e.idx.val)).take 256) = f.regs.held[e.idx]) ∧
    (∀ i e, f.entries[i]? = some e → vecOf ((b.drop (0x0D00 + 1024 * i + 0x100)).take 256) = e.opa ∧
      vecOf ((b.drop (0x0D00 + 1024 * i + 0x200)).take 256) = e.opb ∧ vecOf ((b.drop (0x0D00 + 1024 * i + 0x300)).take 256) = e.third ∧
      (wordAt b (0x0D00 + 1024 * i)).extractLsb' 24 2 = e.state ∧ wordAt b (0x0D00 + 1024 * i + 0x10) = e.addr)

/-- R212, R285, R289, R315, R330: a cause in trap service is a double fault: the service group is empty, and the trapped task's rank,
which has met what the service met, ends with 0x043; a trap with no service image ends it with 0x1C3, one whose frame meets a cause
with 0x205, stamped with the time at which it happened; a frame whose write must wait is written later, and one whose write has no
response, sent a second time, ends the task with 0x205 as well. That a write which must wait leaves the trap pending, and is then
made whole, is the model's choice (log entries 22 and 65). -/
def Obligations.TrapsThatCannotBeServedEndTheTask : Prop :=
  ∀ (s : State) (who : SeqId) (d : TrapData), let q := s.seq who
    (∀ f : Frame, q.phase = .service → (s.core who.core).frame = some f →
      s.takeTrap who d = (leftService who s).failRank (otherOf who) (failAt 0x043 0 f.loops)) ∧
    (∀ t : TaskRef, q.phase = .running → q.task = some t → (s.die t.die).service = none →
      s.takeTrap who d = s.failRank who (failAt 0x1C3 0 d.loops)) ∧
    (∀ (t : TaskRef) (e : Stop) (s1 : State), q.phase = .running → q.task = some t → (s.die t.die).service ≠ none →
      (writeGlobal (.seq who) .core 0 t.ctx.toNat (frameOf q who d).bytes).on s = (.error e, s1) →
      FrameStops s1 who e (some d) (s1.failRank who (failAt 0x205 0 d.loops)) (s.takeTrap who d)) ∧
    ∀ (t : TaskRef) (e : Entry) (f : FailInfo), q.task = some t → t.size = 1 → s.entry t.die t.serial = some e → e.failure = none →
      (∀ c : Fin 4, (q.channels[c]).busy = false) → (s.core who.core).sendReg = none → e.status = .running [who.core] →
      ∃ y : Entry, (s.failRank who f).entry t.die t.serial = some y ∧ ((s.failRank who f).seq who).phase = .empty ∧
        ∃ info : EndInfo, y.status = .ended info ∧ info.cause = f.cause ∧ info.pstatus = f.pstatus ∧
          info.state = (if f.wmark = 0 then 2 else 3) ∧ info.wmark = f.wmark ∧ info.stamp = s.stamp ∧
          y.failure = some info

/-- R218, R219, R330: svc.tret with DISP = 0 gives the core back, with latches and held operands of the frame and the loop entries as the
handler left them, and replays the entries or continues at RESUME; with DISP of 1 or more it ends the task with the
frame's cause and FSTATUS. A frame that cannot be read back ends it with 0x205, as one whose read has no response does; one whose read must wait is
read later: the model's choice (log entry 65). -/
def Obligations.TrapReturnRestoresOrEnds : Prop :=
  ∀ (s s1 : State) (who : SeqId) (f : Frame) (t : TaskRef) (disp : Nat) (fstatus : BitVec 16) (loops : List LoopEntry)
    (entries : List ReplayEntry), (s.core who.core).frame = some f → (s.seq who).task = some t → f.group = 1 - who.group →
    (readBack who t.ctx.toNat f).on s = (.ok (disp, fstatus, loops, entries), s1) →
    let o := otherOf who
    let u := s.trapReturn who
    let left := leftService who s1
    let back : State := left.setCore who.core { left.core who.core with frame := none }
    let r := { (s1.seq o).now with lx := f.regs.lx, lg := f.regs.lg, lv := f.regs.lv, lm := f.regs.lm, lk := f.regs.lk, ly := f.regs.ly,
                                   held := f.regs.held, loops := loops }
    (disp ≠ 0 → u = back.failRank o (failAt f.cause.toNat fstatus f.loops)) ∧
    (disp = 0 → entries ≠ [] → u.focus = o ∧ (u.core who.core).issuing = some o.group ∧ (u.core who.core).frame = none ∧
      (u.seq who).phase = .empty ∧ (u.seq o).now = r ∧ (u.seq o).before = r ∧
      (u.seq o).bundle.replay = some { entries := entries, resume := f.resume, loops := f.loops }) ∧
    (disp = 0 → entries = [] → f.boundary = false → u.focus = o ∧ (u.core who.core).issuing = some o.group ∧
      (u.core who.core).frame = none ∧ (u.seq who).phase = .empty ∧ (u.seq o).now = { r with vpc := f.resume } ∧
      (u.seq o).before = { r with vpc := f.resume } ∧ (u.seq o).bundle = {}) ∧
    (s1.seq who).time ≤ (left.seq o).time ∧
    ∀ (z : State) (e : Stop) (z1 : State), (z.core who.core).frame = some f → (z.seq who).task = some t →
      (readBack who t.ctx.toNat f).on z = (.error e, z1) →
      FrameStops z1 who e none ((leftService who z1).failRank o (failAt 0x205 0 f.loops)) (z.trapReturn who)

/-- R99, R156, R160, R199: a HALT at its bundle's end whose transfers are over, whose flit has left and whose failures are reported empties
its group, clears the live-tile map and gives the core to the other group if that is ready, else back to the scheduler; with work
left it waits. -/
def Obligations.HaltEndsItsRank : Prop :=
  ∀ (s : State) (who : SeqId) (t : TaskRef) (f : Option FailInfo), let q := s.seq who
    q.task = some t →
    ((∀ c : Fin 4, (q.channels[c]).busy = false ∧ ((q.channels[c]).failed = true → (q.channels[c]).reported = true)) →
      (s.core who.core).sendReg = none →
      let u := s.halt who f
      (u.seq who).phase = .empty ∧ (u.seq who).task = none ∧ (u.seq who).monitor = none ∧ (u.core who.core).live = 0 ∧
      (u.core who.core).issuing = nextGroup s who) ∧
    (((∃ c : Fin 4, (q.channels[c]).busy = true) ∨ (s.core who.core).sendReg.isSome = true) →
      ((s.halt who f).seq who).wait.map Wait.kind = some .halt ∧ ((s.halt who f).seq who).task = q.task)

/-- The canonical form of the byte memories, a convention of the model, is kept by every step from every state that has it. -/
def Obligations.StepsKeepMemoryCanonical : Prop := ∀ s t : State, MemoryCanonical s → step s = .next t → MemoryCanonical t

/-- R11, R26, R28, R105, R195, R226, R391, R395: the machine after reset: no group holds a task, every register, latch and record is zero
but sr.mmode, whose reset value is 0x0100_0001; every bin is SPARE, no byte is stored, and the boot ROM is in state 0; and every
memory has its canonical form. The zero of a register, the state SPARE and the empty DRAM are the choice of log entries 1 and 16. -/
def Obligations.ResetIsAtPowerUp : Prop :=
  let s := State.reset
  (∀ who : SeqId, let q := s.seq who
    q.phase = .empty ∧ q.now = q.before ∧ q.now.vpc = 0 ∧ q.now.lpc = 0 ∧ q.now.loops = [] ∧ q.now.masks = [] ∧
    (∀ n, q.now.getX n = 0) ∧ (∀ n, q.now.getV n = 0) ∧ (∀ n, q.now.getP n = 0) ∧ q.now.round = 0 ∧ q.now.mmode = 0x01000001 ∧
    q.now.sticky = Vector.replicate 6 {} ∧ q.now.streams = Vector.replicate 16 {} ∧ q.channels = Vector.replicate 4 {}) ∧
  (∀ (k : Fin 128) (b : Fin 64), ((s.cluster k).bins[b]).state = .spare) ∧ s.dram = [] ∧ s.hostMem = [] ∧ s.stamp = 0 ∧
  s.host.bootState = 0 ∧ s.host.bootCause = 0 ∧ ∀ i : Fin 64, (s.host.queues[i]).en = false ∧ MemoryCanonical s
end

