-- ==== Sys2Proof/Laws/Compute.lean ====
section
/-! SUPPORT. How a computation over the state runs, one lemma for each way of building one. -/

namespace Sys2Proof.Machine

theorem M.on_pure {α : Type} (a : α) (s : State) : (pure a : M α).on s = (.ok a, s) := rfl

/-- A computation after another: the first one's stop is the whole's. -/
theorem M.on_bind {α β : Type} (m : M α) (f : α → M β) (s : State) :
    (m >>= f).on s = match m.on s with
      | (.ok a, s') => (f a).on s'
      | (.error e, s') => (.error e, s') := by
  show StateT.run (ExceptT.run (m >>= f)) s = _
  simp only [ExceptT.run_bind, StateT.run_bind, M.on]
  rcases h : StateT.run (ExceptT.run m) s with ⟨r, s'⟩
  cases r <;> rfl

theorem M.on_bind_ok {α β : Type} {m : M α} {f : α → M β} {s s' : State} {a : α} (h : m.on s = (.ok a, s')) :
    (m >>= f).on s = (f a).on s' := by rw [M.on_bind, h]

theorem M.on_bind_stop {α β : Type} {m : M α} {f : α → M β} {s s' : State} {e : Stop} (h : m.on s = (.error e, s')) :
    (m >>= f).on s = (.error e, s') := by rw [M.on_bind, h]

theorem M.on_map {α β : Type} (f : α → β) (m : M α) (s : State) :
    (f <$> m).on s = match m.on s with
      | (.ok a, s') => (.ok (f a), s')
      | (.error e, s') => (.error e, s') := by
  rw [map_eq_pure_bind, M.on_bind]
  rfl

theorem M.on_get (s : State) : (get : M State).on s = (.ok s, s) := rfl
theorem M.on_set (t s : State) : (set t : M PUnit).on s = (.ok ⟨⟩, t) := rfl
theorem M.on_modify (f : State → State) (s : State) : (modify f : M PUnit).on s = (.ok ⟨⟩, f s) := rfl
theorem M.on_throw {α : Type} (e : Stop) (s : State) : (throw e : M α).on s = (.error e, s) := rfl
theorem M.on_raise {α : Type} (code : Nat) (addr : Word) (d : BitVec 16) (s : State) :
    (raise code addr d : M α).on s = (.error (.cause (BitVec.ofNat 10 code) addr d), s) := rfl
theorem M.on_waitFor {α : Type} (k : WaitKind) (addr : Word) (s : State) :
    (waitFor k addr : M α).on s = (.error (.wait k addr), s) := rfl
theorem M.on_stall {α : Type} (s : State) : (stall : M α).on s = (.error .stall, s) := rfl

theorem M.on_raiseIf_false {c : Bool} (h : c = false) (code : Nat) (addr : Word) (d : BitVec 16) (s : State) :
    (raiseIf c code addr d).on s = (.ok (), s) := by subst h; rfl
theorem M.on_raiseIf_true {c : Bool} (h : c = true) (code : Nat) (addr : Word) (d : BitVec 16) (s : State) :
    (raiseIf c code addr d).on s = (.error (.cause (BitVec.ofNat 10 code) addr d), s) := by subst h; rfl

theorem M.on_getCore (c : Nat) (s : State) : (getCore c).on s = (.ok (s.core c), s) := rfl
theorem M.on_modCore (c : Nat) (f : Core → Core) (s : State) : (modCore c f).on s = (.ok (), s.setCore c (f (s.core c))) := rfl
theorem M.on_getCluster (c : Nat) (s : State) : (getCluster c).on s = (.ok (s.cluster c), s) := rfl
theorem M.on_modCluster (c : Nat) (f : Cluster → Cluster) (s : State) :
    (modCluster c f).on s = (.ok (), s.setCluster c (f (s.cluster c))) := rfl
theorem M.on_getDie (d : Nat) (s : State) : (getDie d).on s = (.ok (s.die d), s) := rfl
theorem M.on_modDie (d : Nat) (f : Die → Die) (s : State) : (modDie d f).on s = (.ok (), s.setDie d (f (s.die d))) := rfl
theorem M.on_getSeq (w : SeqId) (s : State) : (getSeq w).on s = (.ok (s.seq w), s) := rfl
theorem M.on_modSeq (w : SeqId) (f : Seq → Seq) (s : State) : (modSeq w f).on s = (.ok (), s.setSeq w (f (s.seq w))) := rfl
theorem M.on_drawFree (s : State) : drawFree.on s = (.ok s.free, { s with free := s.free + 1 }) := rfl

end Sys2Proof.Machine
end

