-- ==== Sys2Proof/Laws/Memory.lean ====
section
/-! SUPPORT. Byte memories and sparse tables: a read after a write, and that every memory operation keeps the canonical form. -/

namespace Sys2Proof.Machine

/-! ### Sparse tables -/

@[simp] theorem tabFind_tabPut_same {α : Type} (k : Nat) (v : α) (t : Tab α) : tabFind k (tabPut k v t) = some v := by
  induction t with
  | nil => simp [tabPut, tabFind]
  | cons e t ih =>
    obtain ⟨j, w⟩ := e
    simp only [tabPut]
    split
    · simp [tabFind]
    · split
      · simp [tabFind]
      · simp_all [tabFind]

theorem tabFind_tabPut_other {α : Type} {k j : Nat} (h : j ≠ k) (v : α) (t : Tab α) :
    tabFind j (tabPut k v t) = tabFind j t := by
  induction t with
  | nil => simp [tabPut, tabFind, Ne.symm h]
  | cons e t ih =>
    obtain ⟨i, w⟩ := e
    simp only [tabPut]
    split
    · simp [tabFind, Ne.symm h]
    · split
      · rename_i h1 h2
        subst h2
        simp [tabFind, Ne.symm h]
      · simp [tabFind, ih]

@[simp] theorem tabGet_tabPut_same {α : Type} (d : α) (k : Nat) (v : α) (t : Tab α) : tabGet d k (tabPut k v t) = v := by
  simp [tabGet]

theorem tabGet_tabPut_other {α : Type} {k j : Nat} (h : j ≠ k) (d v : α) (t : Tab α) :
    tabGet d j (tabPut k v t) = tabGet d j t := by
  simp [tabGet, tabFind_tabPut_other h]

/-- A table after a put, entry by entry. -/
theorem tabGet_tabPut {α : Type} (d v : α) (k j : Nat) (t : Tab α) :
    tabGet d j (tabPut k v t) = if j = k then v else tabGet d j t := by
  split
  · rename_i h; subst h; simp
  · rename_i h; exact tabGet_tabPut_other h d v t

/-- The later of two puts at one key stands. -/
@[simp] theorem tabPut_tabPut {α : Type} (k : Nat) (v w : α) (t : Tab α) : tabPut k v (tabPut k w t) = tabPut k v t := by
  induction t with
  | nil => simp [tabPut]
  | cons e t ih =>
    obtain ⟨j, x⟩ := e
    by_cases h1 : k < j
    · simp [tabPut, h1]
    · by_cases h2 : j = k
      · simp [tabPut, h2]
      · simp [tabPut, h1, h2, ih]

/-! ### The canonical form -/

theorem Memory.wfFrom_le {lo lo' : Nat} {m : Memory} (h : Memory.wfFrom lo m = true) (hl : lo' ≤ lo) :
    Memory.wfFrom lo' m = true := by
  cases m with
  | nil => rfl
  | cons c t =>
    obtain ⟨a, v⟩ := c
    simp only [Memory.wfFrom, Bool.and_eq_true, decide_eq_true_eq] at h ⊢
    exact ⟨⟨Nat.le_trans hl h.1.1, h.1.2⟩, h.2⟩

/-- Below its floor a memory lists nothing. -/
theorem readByte_below {lo a : Nat} {m : Memory} (h : Memory.wfFrom lo m = true) (ha : a < lo) : readByte a m = unlisted := by
  induction m generalizing lo with
  | nil => rfl
  | cons c t ih =>
    obtain ⟨b, v⟩ := c
    simp only [Memory.wfFrom, Bool.and_eq_true, decide_eq_true_eq] at h
    have hb : b ≠ a := by omega
    simp only [readByte, hb, if_false]
    exact ih h.2 (by omega)

theorem wfFrom_writeByte {lo : Nat} (a : Nat) (v : Byte) {m : Memory} (h : Memory.wfFrom lo m = true) :
    Memory.wfFrom (min lo a) (writeByte a v m) = true := by
  induction m generalizing lo with
  | nil =>
    simp only [writeByte]
    split
    · rfl
    · rename_i hv
      simp [Memory.wfFrom, hv, Nat.min_le_right]
  | cons c t ih =>
    obtain ⟨b, w⟩ := c
    have h0 := h
    simp only [Memory.wfFrom, Bool.and_eq_true, decide_eq_true_eq] at h
    simp only [writeByte]
    split
    · rename_i hab
      split
      · exact Memory.wfFrom_le h0 (Nat.min_le_left _ _)
      · rename_i hv
        simp only [Memory.wfFrom, Bool.and_eq_true, decide_eq_true_eq]
        exact ⟨⟨Nat.min_le_right _ _, hv⟩, ⟨by omega, h.1.2⟩, h.2⟩
    · split
      · rename_i hab hba
        split
        · exact Memory.wfFrom_le h.2 (by omega)
        · rename_i hv
          simp only [Memory.wfFrom, Bool.and_eq_true, decide_eq_true_eq]
          exact ⟨⟨Nat.min_le_right _ _, hv⟩, by rw [← hba]; exact h.2⟩
      · rename_i hab hba
        simp only [Memory.wfFrom, Bool.and_eq_true, decide_eq_true_eq]
        refine ⟨⟨by omega, h.1.2⟩, ?_⟩
        exact Memory.wfFrom_le (ih h.2) (by omega)

theorem Memory.wf_writeByte (a : Nat) (v : Byte) {m : Memory} (h : m.wf = true) : (writeByte a v m).wf = true :=
  Memory.wfFrom_le (wfFrom_writeByte a v h) (Nat.zero_le _)

theorem Memory.wf_writeBytes (a : Nat) (l : List Byte) {m : Memory} (h : m.wf = true) : (writeBytes a l m).wf = true := by
  induction l generalizing a m with
  | nil => exact h
  | cons b bs ih => exact ih (a + 1) (Memory.wf_writeByte a b h)

theorem wfFrom_filter {lo : Nat} (p : Host.Cell → Bool) {m : Memory} (h : Memory.wfFrom lo m = true) :
    Memory.wfFrom lo (m.filter p) = true := by
  induction m generalizing lo with
  | nil => rfl
  | cons c t ih =>
    obtain ⟨a, v⟩ := c
    simp only [Memory.wfFrom, Bool.and_eq_true, decide_eq_true_eq] at h
    simp only [List.filter_cons]
    split
    · simp only [Memory.wfFrom, Bool.and_eq_true, decide_eq_true_eq]
      exact ⟨h.1, ih h.2⟩
    · exact Memory.wfFrom_le (ih h.2) (by omega)

theorem Memory.wf_filter (p : Host.Cell → Bool) {m : Memory} (h : m.wf = true) : Memory.wf (m.filter p) = true := wfFrom_filter p h

theorem Memory.wf_clearBytes {m : Memory} (a n : Nat) (h : m.wf = true) : (clearBytes m a n).wf = true := Memory.wf_filter _ h

/-- Writing any cells one after another. -/
theorem Memory.wf_foldl {α : Type} (addr : α → Nat) (val : α → Byte) (l : List α) {m : Memory} (h : m.wf = true) :
    Memory.wf (l.foldl (fun acc c => writeByte (addr c) (val c) acc) m) = true := by
  induction l generalizing m with
  | nil => exact h
  | cons c t ih => exact ih (Memory.wf_writeByte _ _ h)

theorem Memory.wf_moveCells (m : Memory) (src dst n : Nat) (h : m.wf = true) : (moveCells m src dst n).wf = true :=
  Memory.wf_foldl (fun c : Host.Cell => c.1 - src + dst) (fun c => c.2) _ (Memory.wf_clearBytes _ _ (Memory.wf_clearBytes _ _ h))

theorem Memory.wf_carryCells (m into : Memory) (src n dst : Nat) (h : into.wf = true) : (carryCells m src n into dst).wf = true :=
  Memory.wf_foldl (fun c : Host.Cell => c.1 - src + dst) (fun c => c.2) _ (Memory.wf_clearBytes _ _ h)

theorem Memory.wf_copyCells (m : Memory) (src dst n : Nat) (h : m.wf = true) : (copyCells m src dst n).wf = true :=
  Memory.wf_foldl (fun c : Host.Cell => c.1 - src + dst) (fun c => c.2) _ (Memory.wf_clearBytes _ _ h)

/-! ### A read after a write -/

/-- A byte of a memory in canonical form after a write of one byte. -/
theorem readByte_writeByte {m : Memory} (h : m.wf = true) (a b : Nat) (v : Byte) :
    readByte b (writeByte a v m) = if b = a then v else readByte b m := by
  unfold Memory.wf at h
  generalize (0 : Nat) = lo at h
  induction m generalizing lo with
  | nil =>
    simp only [writeByte]
    split
    · rename_i hv; subst hv; simp [readByte]
    · by_cases hb : b = a
      · simp [readByte, hb]
      · simp [readByte, hb, Ne.symm hb]
  | cons c t ih =>
    obtain ⟨k, w⟩ := c
    have h0 := h
    simp only [Memory.wfFrom, Bool.and_eq_true, decide_eq_true_eq] at h
    simp only [writeByte]
    split
    · rename_i hak
      split
      · rename_i hv
        split
        · rename_i hb
          subst hb hv
          rw [readByte, if_neg (by omega)]
          exact readByte_below h.2 (by omega)
        · rfl
      · by_cases hb : b = a
        · simp [readByte, hb]
        · rw [if_neg hb, readByte, if_neg (Ne.symm hb)]
    · split
      · rename_i hka
        subst hka
        split
        · rename_i hv
          split
          · rename_i hb; subst hb hv; exact readByte_below h.2 (by omega)
          · rename_i hb
            rw [readByte, if_neg (Ne.symm hb)]
        · by_cases hb : b = k
          · simp [readByte, hb]
          · rw [if_neg hb, readByte, if_neg (Ne.symm hb), readByte, if_neg (Ne.symm hb)]
      · simp only [readByte, ih _ h.2]
        split
        · rename_i hkb
          subst hkb
          rw [if_neg (by omega)]
        · rfl

/-- Outside the bytes written, every byte reads as before. -/
theorem readByte_writeBytes_outside {m : Memory} (h : m.wf = true) (a b : Nat) (l : List Byte)
    (hb : b < a ∨ a + l.length ≤ b) : readByte b (writeBytes a l m) = readByte b m := by
  induction l generalizing a m with
  | nil => rfl
  | cons x xs ih =>
    simp only [List.length_cons] at hb
    rw [writeBytes, ih (Memory.wf_writeByte _ _ h) (a + 1) (by omega), readByte_writeByte h, if_neg (by omega)]

/-- The bytes written read back. -/
theorem readByte_writeBytes {m : Memory} (h : m.wf = true) (a i : Nat) (l : List Byte) (hi : i < l.length) :
    readByte (a + i) (writeBytes a l m) = l[i] := by
  induction l generalizing a m i with
  | nil => simp at hi
  | cons x xs ih =>
    rw [writeBytes]
    cases i with
    | zero =>
      rw [readByte_writeBytes_outside (Memory.wf_writeByte _ _ h) _ _ _ (by omega), readByte_writeByte h]
      simp
    | succ i =>
      have hx : i < xs.length := by simpa using hi
      have := ih (m := writeByte a x m) (Memory.wf_writeByte _ _ h) (a + 1) i hx
      rw [show a + (i + 1) = a + 1 + i by omega, this]
      simp

theorem State.reset_memory : State.reset.dram.wf = true ∧ State.reset.hostMem.wf = true ∧ State.reset.remote.wf = true :=
  ⟨rfl, rfl, rfl⟩

end Sys2Proof.Machine
end

