-- ==== Sys2Proof/Laws/Ops.lean ====
section
/-! SUPPORT. What running a slot can do, said once: a slot that stands to be performed either takes its result's effect or
stops as its body stopped. -/

namespace Sys2Proof.Machine

theorem perform_ok {who : SeqId} {o : Operands} {body : Operands → M Result} {s s2 : State} {r : Result}
    (h : (body o).on s = (.ok r, s2)) :
    (perform who o body).on s = (.ok (), s2.setSeq who ((s2.seq who).commit o r)) := by
  unfold perform
  rw [M.on_bind_ok h, M.on_modSeq]

theorem perform_stop {who : SeqId} {o : Operands} {body : Operands → M Result} {s s2 : State} {e : Stop}
    (h : (body o).on s = (.error e, s2)) : (perform who o body).on s = (.error e, s2) := by
  unfold perform
  rw [M.on_bind_stop h]

/-- A slot that stands to be performed and whose operands read well runs its body on them. -/
theorem runSlot_reads {op : BitVec 7} {w : Slot} {fm : Form} {s s' : State} {o : Operands} (body : Operands → M Result)
    (hp : Performs op w fm s) (hr : Reads w fm s o s') :
    runSlot op w body s = .next (match (perform s.focus o body).on s' with
      | (.ok _, s2) => s2.slotDone s.focus w
      | (.error e, s2) => s2.stopSlot s.focus op fm w s.curLit o e) := by
  obtain ⟨h1, h2, h3, h4, h5, h6⟩ := hp
  unfold Reads at hr
  unfold State.cur at h1 h2 h3 h5
  unfold State.curLit State.cur at h4 h6 hr
  unfold runSlot
  simp only [h1, h4, h5, h6, List.append_nil, h3, h2, Option.isSome_none, Bool.false_eq_true, if_false]
  unfold State.runWith
  simp only [hr]
  rfl

/-- A body that answers a result takes effect. -/
theorem runSlot_ok {op : BitVec 7} {w : Slot} {fm : Form} {s s' s2 : State} {o : Operands} {r : Result}
    {body : Operands → M Result} (hp : Performs op w fm s) (hr : Reads w fm s o s') (hb : (body o).on s' = (.ok r, s2)) :
    runSlot op w body s = .next (s2.performed s.focus w o r) := by
  rw [runSlot_reads body hp hr, perform_ok hb]
  rfl

/-- A body that stops: a trap, a wait, or a retry. -/
theorem runSlot_stop {op : BitVec 7} {w : Slot} {fm : Form} {s s' s2 : State} {o : Operands} {e : Stop}
    {body : Operands → M Result} (hp : Performs op w fm s) (hr : Reads w fm s o s') (hb : (body o).on s' = (.error e, s2)) :
    runSlot op w body s = .next (s2.stopSlot s.focus op fm w s.curLit o e) := by
  rw [runSlot_reads body hp hr, perform_stop hb]

/-- What a read of the operands says of who reads, its word, its literal and its form. -/
theorem Reads.fixed {w : Slot} {fm : Form} {s s' : State} {o : Operands} (h : Reads w fm s o s') :
    o.who = s.focus ∧ o.slot = w ∧ o.lit = s.curLit ∧ o.form = fm ∧ o.replay = false := by
  unfold Reads readOperands at h
  simp only [M.on_bind, M.on_getSeq] at h
  revert h
  split
  · simp only [M.on_bind, M.on_pure]
    rcases (readOperand s.focus _ fm.engine _ fm.b w.b).on (s.openBundle s.focus) with ⟨_ | b, s2⟩
    · intro h; simp at h
    · intro h
      simp only [Prod.mk.injEq, Except.ok.injEq] at h
      obtain ⟨rfl, _⟩ := h
      exact ⟨rfl, rfl, rfl, rfl, rfl⟩
  · simp only [M.on_bind]
    rcases (readOperand s.focus _ fm.engine _ fm.a w.a).on (s.openBundle s.focus) with ⟨_ | a, s1⟩
    · intro h; simp at h
    · dsimp only
      rcases (readOperand s.focus _ fm.engine _ fm.b w.b).on s1 with ⟨_ | b, s2⟩
      · intro h; simp at h
      · intro h
        simp only [M.on_pure, Prod.mk.injEq, Except.ok.injEq] at h
        obtain ⟨rfl, _⟩ := h
        exact ⟨rfl, rfl, rfl, rfl, rfl⟩

/-- An instruction whose arm runs a body completes as the body says. -/
theorem Completes.ofBody {mk : Slot → Instr} {op : BitVec 7} {effect : Slot → Operands → State → State → Result → Prop}
    {body : Operands → M Result} (arm : ∀ w s, exec (mk w) s = runSlot op w body s)
    (hb : ∀ (o : Operands) (s' s2 : State) (r : Result), o.replay = false → effect o.slot o s' s2 r → (body o).on s' = (.ok r, s2)) :
    Completes mk op effect := by
  intro s w fm o s' s2 r _ hp hr h
  obtain ⟨-, rfl, -, -, hrep⟩ := hr.fixed
  rw [arm]
  exact runSlot_ok hp hr (hb o s' s2 r hrep h)

/-- An instruction whose arm runs a body that only answers a value yields it. -/
theorem Yields.ofBody {mk : Slot → Instr} {op : BitVec 7} {val : Slot → Operands → Result} {body : Operands → M Result}
    (arm : ∀ w s, exec (mk w) s = runSlot op w body s)
    (hb : ∀ (s : State) (fm : Form) (o : Operands) (s' : State), Fits mk o.slot s → Performs op o.slot fm s →
      Reads o.slot fm s o s' → (body o).on s' = (.ok (val o.slot o), s')) : Yields mk op val := by
  intro s w fm o s' hf hp hr
  obtain ⟨-, rfl, -, -, -⟩ := hr.fixed
  rw [arm]
  exact runSlot_ok hp hr (hb s fm o s' hf hp hr)

/-- An instruction whose arm runs a body traps where its body raises a cause. -/
theorem Traps.ofBody {mk : Slot → Instr} {op : BitVec 7} {when_ : Slot → Operands → State → State → Nat → Word → BitVec 16 → Prop}
    {body : Operands → M Result} (arm : ∀ w s, exec (mk w) s = runSlot op w body s)
    (hb : ∀ (o : Operands) (s' s2 : State) (code : Nat) (addr : Word) (detail : BitVec 16), o.replay = false →
      when_ o.slot o s' s2 code addr detail → (body o).on s' = (.error (.cause (BitVec.ofNat 10 code) addr detail), s2)) :
    Traps mk op when_ := by
  intro s w fm o s' s2 code addr detail _ hp hr h hn
  obtain ⟨-, rfl, -, -, hrep⟩ := hr.fixed
  rw [arm, runSlot_stop hp hr (hb o s' s2 code addr detail hrep h)]
  simp only [State.stopSlot, hn]

/-- An instruction whose arm runs a body waits where its body does. -/
theorem Waits.ofBody {mk : Slot → Instr} {op : BitVec 7} {when_ : Slot → Operands → State → State → WaitKind → Word → Prop}
    {body : Operands → M Result} (arm : ∀ w s, exec (mk w) s = runSlot op w body s)
    (hb : ∀ (o : Operands) (s' s2 : State) (k : WaitKind) (addr : Word), o.replay = false →
      when_ o.slot o s' s2 k addr → (body o).on s' = (.error (.wait k addr), s2)) : Waits mk op when_ := by
  intro s w fm o s' s2 k addr _ hp hr h
  obtain ⟨-, rfl, -, -, hrep⟩ := hr.fixed
  rw [arm, runSlot_stop hp hr (hb o s' s2 k addr hrep h)]
  rfl

/-- An operand position that holds no stream port leaves the state as it was. -/
theorem readOperand_register (who : SeqId) (sc : Scope) (e : Engine) (r : Regs) (t : State) {k : Kind} {code : BitVec 6}
    (hk : (isPort code && (k = .scalar || k = .vector)) = false) : ∃ v, (readOperand who sc e r k code).on t = (.ok v, t) := by
  cases k with
  | scalar =>
    have hc : isPort code = false := by simpa using hk
    exact ⟨_, by simp only [readOperand, readScalar, hc, Bool.not_false, if_true]; rfl⟩
  | vector =>
    have hc : isPort code = false := by simpa using hk
    exact ⟨_, by simp only [readOperand, readVector, hc, Bool.not_false, if_true]; rfl⟩
  | field => exact ⟨_, rfl⟩
  | unused => exact ⟨_, rfl⟩

/-- A slot without stream ports reads its registers alone. -/
theorem Reads.registers {w : Slot} {fm : Form} {s s' : State} {o : Operands} (h : Reads w fm s o s')
    (hp : readsPort fm w = false) : s' = s.openBundle s.focus := by
  unfold Reads readOperands at h
  simp only [M.on_bind, M.on_getSeq] at h
  unfold readsPort at hp
  simp only [Bool.or_eq_false_iff] at hp
  obtain ⟨v, hb⟩ := readOperand_register (s.focus) (State.seq (s.openBundle s.focus) s.focus).bundle.scope fm.engine
    (State.seq (s.openBundle s.focus) s.focus).before (s.openBundle s.focus) (by rw [Bool.and_comm]; exact hp.2)
  obtain ⟨u, ha⟩ := readOperand_register (s.focus) (State.seq (s.openBundle s.focus) s.focus).bundle.scope fm.engine
    (State.seq (s.openBundle s.focus) s.focus).before (s.openBundle s.focus) (by rw [Bool.and_comm]; exact hp.1)
  revert h
  split
  · simp only [M.on_bind, M.on_pure, hb, Prod.mk.injEq]
    exact fun h => h.2.symm
  · simp only [M.on_bind, M.on_pure, ha, hb, Prod.mk.injEq]
    exact fun h => h.2.symm

/-- A waiting slot whose body answers a result on its operands as read at issue takes effect. -/
theorem resumeWait_ok {s s2 : State} {who : SeqId} {k : WaitKind} {p : Wait} {fm : Form} {r : Result}
    {body : BitVec 7 → Slot → Operands → M Result} (hw : (s.seq who).wait = some p) (hk : p.kind = k)
    (hf : form p.op p.w (s.seq who).waitLit.isSome = some fm)
    (hb : (body p.op p.w (waitOperands s who p fm (s.seq who).waitLit)).on s = (.ok r, s2)) :
    s.resumeWait who k body = s2.performed who p.w (waitOperands s who p fm (s.seq who).waitLit) r := by
  unfold State.resumeWait
  simp only [hw, hk, ne_eq, not_true_eq_false, if_false, hf, State.runWith, M.on_pure, perform_ok hb]
  rfl

/-- A waiting slot outside a replay that raises a cause traps in its bundle. -/
theorem raiseWait_trap {s : State} {who : SeqId} {p : Wait} {fm : Form} {code : Nat} {addr : Word} {detail : BitVec 16}
    (hr : (s.seq who).bundle.replay = none) (hf : form p.op p.w (s.seq who).bundle.lit.isSome = some fm) :
    s.raiseWait who p code addr detail = (s.trapSlot who p.op fm p.w (s.seq who).bundle.lit (BitVec.ofNat 10 code) addr
      detail).finishSlot who p.w.stop := by
  unfold State.raiseWait
  simp only [Seq.waitLit, hr, hf, State.stopSlot]

end Sys2Proof.Machine
end

