-- ==== Sys2Proof/Laws/PerInstr.lean ====
section
/-! SUPPORT. One lemma per constructor of Instr: an engine slot encodes to one word that holds its opcode and every field
where R52 places them; a prefix to one word; an event to none. -/

namespace Sys2Proof.Laws.Encoding

/-- What the encoding of an instruction keeps: at most one word, and for an engine slot the word whose OP field is its
opcode, not one of the four prefixes', and whose other fields read back as they were (R52, R69). -/
def Statement (i : Instr) : Prop :=
  (encode i).length ≤ 1 ∧ ∀ op w, i.slot? = some (op, w) →
    4 ≤ op.toNat ∧ encode i = [w.word op] ∧ (w.word op).extractLsb' 24 7 = op ∧ Slot.ofWord (w.word op) = w

end Sys2Proof.Laws.Encoding

namespace Sys2Proof

/-- Every field of a slot reads back from its word (R52). -/
theorem Slot.ofWord_word (op : BitVec 7) (w : Slot) : (w.word op).extractLsb' 24 7 = op ∧ Slot.ofWord (w.word op) = w := by
  obtain ⟨st, n, h, d, a, b, f⟩ := w
  have bit (c : Bool) : (BitVec.ofBool c).getLsbD 0 = c := by cases c <;> rfl
  unfold Slot.word Slot.ofWord
  refine ⟨?_, ?_⟩
  · apply BitVec.eq_of_getLsbD_eq
    intro i hi
    simp only [BitVec.getLsbD_extractLsb', BitVec.getLsbD_append, hi, decide_true, Bool.true_and]
    repeat rw [if_neg (by omega)]
    rw [if_pos (by omega)]
    congr 1; omega
  · simp only [Slot.mk.injEq]
    refine ⟨?_, ?_, ?_, ?_, ?_, ?_, ?_⟩
    · simp only [BitVec.getLsbD_append]; exact bit st
    · simp only [BitVec.getLsbD_append]; exact bit n
    · simp only [BitVec.getLsbD_append]; exact bit h
    all_goals
      apply BitVec.eq_of_getLsbD_eq
      intro i hi
      simp only [BitVec.getLsbD_extractLsb', BitVec.getLsbD_append, hi, decide_true, Bool.true_and]
      repeat rw [if_neg (by omega)]
      rw [if_pos (by omega)]
      congr 1; omega
/-- The statement of an engine slot. -/
theorem Laws.Encoding.slotted {i : Instr} {op : BitVec 7} {w : Slot} (hs : i.slot? = some (op, w)) (he : encode i = [w.word op])
    (ho : 4 ≤ op.toNat) : Laws.Encoding.Statement i := by
  refine ⟨by simp [he], ?_⟩
  rintro op' w' h
  rw [hs] at h
  simp only [Option.some.injEq, Prod.mk.injEq] at h
  obtain ⟨rfl, rfl⟩ := h
  exact ⟨ho, he, Slot.ofWord_word op w⟩

/-- The statement of a prefix or an event: it has no engine slot. -/
theorem Laws.Encoding.slotless {i : Instr} (hs : i.slot? = none) (he : (encode i).length ≤ 1) : Laws.Encoding.Statement i :=
  ⟨he, by rintro op w h; rw [hs] at h; cases h⟩


theorem Laws.Encoding.nop (stop : Bool) : Laws.Encoding.Statement (.nop stop) := Laws.Encoding.slotless rfl (Nat.le_refl 1)
theorem Laws.Encoding.lit (literal : BitVec 24) : Laws.Encoding.Statement (.lit literal) := Laws.Encoding.slotless rfl (Nat.le_refl 1)
theorem Laws.Encoding.guard (pred : BitVec 7) (mask : BitVec 8) (pol : Bool) : Laws.Encoding.Statement (.guard pred mask pol) := Laws.Encoding.slotless rfl (Nat.le_refl 1)
theorem Laws.Encoding.scope (code : BitVec 5) : Laws.Encoding.Statement (.scope code) := Laws.Encoding.slotless rfl (Nat.le_refl 1)
theorem Laws.Encoding.add (w : Slot) : Laws.Encoding.Statement (.add w) := Laws.Encoding.slotted rfl rfl (by decide)
theorem Laws.Encoding.sub (w : Slot) : Laws.Encoding.Statement (.sub w) := Laws.Encoding.slotted rfl rfl (by decide)
theorem Laws.Encoding.and (w : Slot) : Laws.Encoding.Statement (.and w) := Laws.Encoding.slotted rfl rfl (by decide)
theorem Laws.Encoding.or (w : Slot) : Laws.Encoding.Statement (.or w) := Laws.Encoding.slotted rfl rfl (by decide)
theorem Laws.Encoding.xor (w : Slot) : Laws.Encoding.Statement (.xor w) := Laws.Encoding.slotted rfl rfl (by decide)
theorem Laws.Encoding.shf (w : Slot) : Laws.Encoding.Statement (.shf w) := Laws.Encoding.slotted rfl rfl (by decide)
theorem Laws.Encoding.mul (w : Slot) : Laws.Encoding.Statement (.mul w) := Laws.Encoding.slotted rfl rfl (by decide)
theorem Laws.Encoding.div (w : Slot) : Laws.Encoding.Statement (.div w) := Laws.Encoding.slotted rfl rfl (by decide)
theorem Laws.Encoding.mnx (w : Slot) : Laws.Encoding.Statement (.mnx w) := Laws.Encoding.slotted rfl rfl (by decide)
theorem Laws.Encoding.cmp (w : Slot) : Laws.Encoding.Statement (.cmp w) := Laws.Encoding.slotted rfl rfl (by decide)
theorem Laws.Encoding.movi (w : Slot) : Laws.Encoding.Statement (.movi w) := Laws.Encoding.slotted rfl rfl (by decide)
theorem Laws.Encoding.moviTop (w : Slot) : Laws.Encoding.Statement (.moviTop w) := Laws.Encoding.slotted rfl rfl (by decide)
theorem Laws.Encoding.moviUpper (w : Slot) : Laws.Encoding.Statement (.moviUpper w) := Laws.Encoding.slotted rfl rfl (by decide)
theorem Laws.Encoding.movx (w : Slot) : Laws.Encoding.Statement (.movx w) := Laws.Encoding.slotted rfl rfl (by decide)
theorem Laws.Encoding.movxSignExtend (w : Slot) : Laws.Encoding.Statement (.movxSignExtend w) := Laws.Encoding.slotted rfl rfl (by decide)
theorem Laws.Encoding.movxZeroExtend (w : Slot) : Laws.Encoding.Statement (.movxZeroExtend w) := Laws.Encoding.slotted rfl rfl (by decide)
theorem Laws.Encoding.movxSif (w : Slot) : Laws.Encoding.Statement (.movxSif w) := Laws.Encoding.slotted rfl rfl (by decide)
theorem Laws.Encoding.movxUif (w : Slot) : Laws.Encoding.Statement (.movxUif w) := Laws.Encoding.slotted rfl rfl (by decide)
theorem Laws.Encoding.movxFsi (w : Slot) : Laws.Encoding.Statement (.movxFsi w) := Laws.Encoding.slotted rfl rfl (by decide)
theorem Laws.Encoding.movxFui (w : Slot) : Laws.Encoding.Statement (.movxFui w) := Laws.Encoding.slotted rfl rfl (by decide)
theorem Laws.Encoding.movxVlane (w : Slot) : Laws.Encoding.Statement (.movxVlane w) := Laws.Encoding.slotted rfl rfl (by decide)
theorem Laws.Encoding.movxIdx (w : Slot) : Laws.Encoding.Statement (.movxIdx w) := Laws.Encoding.slotted rfl rfl (by decide)
theorem Laws.Encoding.movxCnt (w : Slot) : Laws.Encoding.Statement (.movxCnt w) := Laws.Encoding.slotted rfl rfl (by decide)
theorem Laws.Encoding.sel (w : Slot) : Laws.Encoding.Statement (.sel w) := Laws.Encoding.slotted rfl rfl (by decide)
theorem Laws.Encoding.br (w : Slot) : Laws.Encoding.Statement (.br w) := Laws.Encoding.slotted rfl rfl (by decide)
theorem Laws.Encoding.brNot (w : Slot) : Laws.Encoding.Statement (.brNot w) := Laws.Encoding.slotted rfl rfl (by decide)
theorem Laws.Encoding.jmp (w : Slot) : Laws.Encoding.Statement (.jmp w) := Laws.Encoding.slotted rfl rfl (by decide)
theorem Laws.Encoding.bru (w : Slot) : Laws.Encoding.Statement (.bru w) := Laws.Encoding.slotted rfl rfl (by decide)
theorem Laws.Encoding.loop (w : Slot) : Laws.Encoding.Statement (.loop w) := Laws.Encoding.slotted rfl rfl (by decide)
theorem Laws.Encoding.loopN (w : Slot) : Laws.Encoding.Statement (.loopN w) := Laws.Encoding.slotted rfl rfl (by decide)
theorem Laws.Encoding.next (w : Slot) : Laws.Encoding.Statement (.next w) := Laws.Encoding.slotted rfl rfl (by decide)
theorem Laws.Encoding.svcCall (w : Slot) : Laws.Encoding.Statement (.svcCall w) := Laws.Encoding.slotted rfl rfl (by decide)
theorem Laws.Encoding.svcTrap (w : Slot) : Laws.Encoding.Statement (.svcTrap w) := Laws.Encoding.slotted rfl rfl (by decide)
theorem Laws.Encoding.svcTret (w : Slot) : Laws.Encoding.Statement (.svcTret w) := Laws.Encoding.slotted rfl rfl (by decide)
theorem Laws.Encoding.halt (w : Slot) : Laws.Encoding.Statement (.halt w) := Laws.Encoding.slotted rfl rfl (by decide)
theorem Laws.Encoding.haltFail (w : Slot) : Laws.Encoding.Statement (.haltFail w) := Laws.Encoding.slotted rfl rfl (by decide)
theorem Laws.Encoding.csrr (w : Slot) : Laws.Encoding.Statement (.csrr w) := Laws.Encoding.slotted rfl rfl (by decide)
theorem Laws.Encoding.csrw (w : Slot) : Laws.Encoding.Statement (.csrw w) := Laws.Encoding.slotted rfl rfl (by decide)
theorem Laws.Encoding.strm (w : Slot) : Laws.Encoding.Statement (.strm w) := Laws.Encoding.slotted rfl rfl (by decide)
theorem Laws.Encoding.strx (w : Slot) : Laws.Encoding.Statement (.strx w) := Laws.Encoding.slotted rfl rfl (by decide)
theorem Laws.Encoding.strxOff (w : Slot) : Laws.Encoding.Statement (.strxOff w) := Laws.Encoding.slotted rfl rfl (by decide)
theorem Laws.Encoding.ld (w : Slot) : Laws.Encoding.Statement (.ld w) := Laws.Encoding.slotted rfl rfl (by decide)
theorem Laws.Encoding.ldQe (w : Slot) : Laws.Encoding.Statement (.ldQe w) := Laws.Encoding.slotted rfl rfl (by decide)
theorem Laws.Encoding.st (w : Slot) : Laws.Encoding.Statement (.st w) := Laws.Encoding.slotted rfl rfl (by decide)
theorem Laws.Encoding.stQe (w : Slot) : Laws.Encoding.Statement (.stQe w) := Laws.Encoding.slotted rfl rfl (by decide)
theorem Laws.Encoding.vld (w : Slot) : Laws.Encoding.Statement (.vld w) := Laws.Encoding.slotted rfl rfl (by decide)
theorem Laws.Encoding.vst (w : Slot) : Laws.Encoding.Statement (.vst w) := Laws.Encoding.slotted rfl rfl (by decide)
theorem Laws.Encoding.gath (w : Slot) : Laws.Encoding.Statement (.gath w) := Laws.Encoding.slotted rfl rfl (by decide)
theorem Laws.Encoding.amo (w : Slot) : Laws.Encoding.Statement (.amo w) := Laws.Encoding.slotted rfl rfl (by decide)
theorem Laws.Encoding.mon (w : Slot) : Laws.Encoding.Statement (.mon w) := Laws.Encoding.slotted rfl rfl (by decide)
theorem Laws.Encoding.mwt (w : Slot) : Laws.Encoding.Statement (.mwt w) := Laws.Encoding.slotted rfl rfl (by decide)
theorem Laws.Encoding.mwtWake (who : SeqId) : Laws.Encoding.Statement (.mwtWake who) := Laws.Encoding.slotless rfl (Nat.zero_le 1)
theorem Laws.Encoding.mwtLimit (who : SeqId) : Laws.Encoding.Statement (.mwtLimit who) := Laws.Encoding.slotless rfl (Nat.zero_le 1)
theorem Laws.Encoding.fence (w : Slot) : Laws.Encoding.Statement (.fence w) := Laws.Encoding.slotted rfl rfl (by decide)
theorem Laws.Encoding.preq (w : Slot) : Laws.Encoding.Statement (.preq w) := Laws.Encoding.slotted rfl rfl (by decide)
theorem Laws.Encoding.preqW (w : Slot) : Laws.Encoding.Statement (.preqW w) := Laws.Encoding.slotted rfl rfl (by decide)
theorem Laws.Encoding.preqWComplete (who : SeqId) : Laws.Encoding.Statement (.preqWComplete who) := Laws.Encoding.slotless rfl (Nat.zero_le 1)
theorem Laws.Encoding.qpsh (w : Slot) : Laws.Encoding.Statement (.qpsh w) := Laws.Encoding.slotted rfl rfl (by decide)
theorem Laws.Encoding.qpshV (w : Slot) : Laws.Encoding.Statement (.qpshV w) := Laws.Encoding.slotted rfl rfl (by decide)
theorem Laws.Encoding.qpop (w : Slot) : Laws.Encoding.Statement (.qpop w) := Laws.Encoding.slotted rfl rfl (by decide)
theorem Laws.Encoding.qpopV (w : Slot) : Laws.Encoding.Statement (.qpopV w) := Laws.Encoding.slotted rfl rfl (by decide)
theorem Laws.Encoding.queueOpWake (who : SeqId) : Laws.Encoding.Statement (.queueOpWake who) := Laws.Encoding.slotless rfl (Nat.zero_le 1)
theorem Laws.Encoding.queueWaitLimit (who : SeqId) : Laws.Encoding.Statement (.queueWaitLimit who) := Laws.Encoding.slotless rfl (Nat.zero_le 1)
theorem Laws.Encoding.pref (w : Slot) : Laws.Encoding.Statement (.pref w) := Laws.Encoding.slotted rfl rfl (by decide)
theorem Laws.Encoding.vadd (w : Slot) : Laws.Encoding.Statement (.vadd w) := Laws.Encoding.slotted rfl rfl (by decide)
theorem Laws.Encoding.vsub (w : Slot) : Laws.Encoding.Statement (.vsub w) := Laws.Encoding.slotted rfl rfl (by decide)
theorem Laws.Encoding.vmul (w : Slot) : Laws.Encoding.Statement (.vmul w) := Laws.Encoding.slotted rfl rfl (by decide)
theorem Laws.Encoding.vfma (w : Slot) : Laws.Encoding.Statement (.vfma w) := Laws.Encoding.slotted rfl rfl (by decide)
theorem Laws.Encoding.vmnx (w : Slot) : Laws.Encoding.Statement (.vmnx w) := Laws.Encoding.slotted rfl rfl (by decide)
theorem Laws.Encoding.vlog (w : Slot) : Laws.Encoding.Statement (.vlog w) := Laws.Encoding.slotted rfl rfl (by decide)
theorem Laws.Encoding.vlogP (w : Slot) : Laws.Encoding.Statement (.vlogP w) := Laws.Encoding.slotted rfl rfl (by decide)
theorem Laws.Encoding.vshf (w : Slot) : Laws.Encoding.Statement (.vshf w) := Laws.Encoding.slotted rfl rfl (by decide)
theorem Laws.Encoding.vcvt (w : Slot) : Laws.Encoding.Statement (.vcvt w) := Laws.Encoding.slotted rfl rfl (by decide)
theorem Laws.Encoding.vred (w : Slot) : Laws.Encoding.Statement (.vred w) := Laws.Encoding.slotted rfl rfl (by decide)
theorem Laws.Encoding.vexp (w : Slot) : Laws.Encoding.Statement (.vexp w) := Laws.Encoding.slotted rfl rfl (by decide)
theorem Laws.Encoding.vrcp (w : Slot) : Laws.Encoding.Statement (.vrcp w) := Laws.Encoding.slotted rfl rfl (by decide)
theorem Laws.Encoding.vrsq (w : Slot) : Laws.Encoding.Statement (.vrsq w) := Laws.Encoding.slotted rfl rfl (by decide)
theorem Laws.Encoding.vsqrt (w : Slot) : Laws.Encoding.Statement (.vsqrt w) := Laws.Encoding.slotted rfl rfl (by decide)
theorem Laws.Encoding.vcmp (w : Slot) : Laws.Encoding.Statement (.vcmp w) := Laws.Encoding.slotted rfl rfl (by decide)
theorem Laws.Encoding.vsel (w : Slot) : Laws.Encoding.Statement (.vsel w) := Laws.Encoding.slotted rfl rfl (by decide)
theorem Laws.Encoding.vprm (w : Slot) : Laws.Encoding.Statement (.vprm w) := Laws.Encoding.slotted rfl rfl (by decide)
theorem Laws.Encoding.vbrd (w : Slot) : Laws.Encoding.Statement (.vbrd w) := Laws.Encoding.slotted rfl rfl (by decide)
theorem Laws.Encoding.vbrdImm (w : Slot) : Laws.Encoding.Statement (.vbrdImm w) := Laws.Encoding.slotted rfl rfl (by decide)
theorem Laws.Encoding.vsca (w : Slot) : Laws.Encoding.Statement (.vsca w) := Laws.Encoding.slotted rfl rfl (by decide)
theorem Laws.Encoding.vqnt (w : Slot) : Laws.Encoding.Statement (.vqnt w) := Laws.Encoding.slotted rfl rfl (by decide)
theorem Laws.Encoding.vmps (w : Slot) : Laws.Encoding.Statement (.vmps w) := Laws.Encoding.slotted rfl rfl (by decide)
theorem Laws.Encoding.vmiv (w : Slot) : Laws.Encoding.Statement (.vmiv w) := Laws.Encoding.slotted rfl rfl (by decide)
theorem Laws.Encoding.vmpp (w : Slot) : Laws.Encoding.Statement (.vmpp w) := Laws.Encoding.slotted rfl rfl (by decide)
theorem Laws.Encoding.vmov (w : Slot) : Laws.Encoding.Statement (.vmov w) := Laws.Encoding.slotted rfl rfl (by decide)
theorem Laws.Encoding.vmovFp (w : Slot) : Laws.Encoding.Statement (.vmovFp w) := Laws.Encoding.slotted rfl rfl (by decide)
theorem Laws.Encoding.vmovTp (w : Slot) : Laws.Encoding.Statement (.vmovTp w) := Laws.Encoding.slotted rfl rfl (by decide)
theorem Laws.Encoding.vmovExp (w : Slot) : Laws.Encoding.Statement (.vmovExp w) := Laws.Encoding.slotted rfl rfl (by decide)
theorem Laws.Encoding.vmovIns (w : Slot) : Laws.Encoding.Statement (.vmovIns w) := Laws.Encoding.slotted rfl rfl (by decide)
theorem Laws.Encoding.viot (w : Slot) : Laws.Encoding.Statement (.viot w) := Laws.Encoding.slotted rfl rfl (by decide)
theorem Laws.Encoding.vrmx (w : Slot) : Laws.Encoding.Statement (.vrmx w) := Laws.Encoding.slotted rfl rfl (by decide)
theorem Laws.Encoding.mmv8 (w : Slot) : Laws.Encoding.Statement (.mmv8 w) := Laws.Encoding.slotted rfl rfl (by decide)
theorem Laws.Encoding.mmv4 (w : Slot) : Laws.Encoding.Statement (.mmv4 w) := Laws.Encoding.slotted rfl rfl (by decide)
theorem Laws.Encoding.mmv2 (w : Slot) : Laws.Encoding.Statement (.mmv2 w) := Laws.Encoding.slotted rfl rfl (by decide)
theorem Laws.Encoding.mmvb (w : Slot) : Laws.Encoding.Statement (.mmvb w) := Laws.Encoding.slotted rfl rfl (by decide)
theorem Laws.Encoding.mwld (w : Slot) : Laws.Encoding.Statement (.mwld w) := Laws.Encoding.slotted rfl rfl (by decide)
theorem Laws.Encoding.weightLoadComplete (core : Fin 512) : Laws.Encoding.Statement (.weightLoadComplete core) := Laws.Encoding.slotless rfl (Nat.zero_le 1)
theorem Laws.Encoding.mwsl (w : Slot) : Laws.Encoding.Statement (.mwsl w) := Laws.Encoding.slotted rfl rfl (by decide)
theorem Laws.Encoding.mwup (w : Slot) : Laws.Encoding.Statement (.mwup w) := Laws.Encoding.slotted rfl rfl (by decide)
theorem Laws.Encoding.mcalW (w : Slot) : Laws.Encoding.Statement (.mcalW w) := Laws.Encoding.slotted rfl rfl (by decide)
theorem Laws.Encoding.mcalInv (w : Slot) : Laws.Encoding.Statement (.mcalInv w) := Laws.Encoding.slotted rfl rfl (by decide)
theorem Laws.Encoding.mcalR (w : Slot) : Laws.Encoding.Statement (.mcalR w) := Laws.Encoding.slotted rfl rfl (by decide)
theorem Laws.Encoding.msmpSet (w : Slot) : Laws.Encoding.Statement (.msmpSet w) := Laws.Encoding.slotted rfl rfl (by decide)
theorem Laws.Encoding.msmpRd (w : Slot) : Laws.Encoding.Statement (.msmpRd w) := Laws.Encoding.slotted rfl rfl (by decide)
theorem Laws.Encoding.gleanerCheck (core : Fin 512) (mac : Fin 8) : Laws.Encoding.Statement (.gleanerCheck core mac) := Laws.Encoding.slotless rfl (Nat.zero_le 1)
theorem Laws.Encoding.macrV (w : Slot) : Laws.Encoding.Statement (.macrV w) := Laws.Encoding.slotted rfl rfl (by decide)
theorem Laws.Encoding.macrB (w : Slot) : Laws.Encoding.Statement (.macrB w) := Laws.Encoding.slotted rfl rfl (by decide)
theorem Laws.Encoding.macrP (w : Slot) : Laws.Encoding.Statement (.macrP w) := Laws.Encoding.slotted rfl rfl (by decide)
theorem Laws.Encoding.macwV (w : Slot) : Laws.Encoding.Statement (.macwV w) := Laws.Encoding.slotted rfl rfl (by decide)
theorem Laws.Encoding.macwP (w : Slot) : Laws.Encoding.Statement (.macwP w) := Laws.Encoding.slotted rfl rfl (by decide)
theorem Laws.Encoding.macsZ (w : Slot) : Laws.Encoding.Statement (.macsZ w) := Laws.Encoding.slotted rfl rfl (by decide)
theorem Laws.Encoding.macsS (w : Slot) : Laws.Encoding.Statement (.macsS w) := Laws.Encoding.slotted rfl rfl (by decide)
theorem Laws.Encoding.macsV (w : Slot) : Laws.Encoding.Statement (.macsV w) := Laws.Encoding.slotted rfl rfl (by decide)
theorem Laws.Encoding.copy (w : Slot) : Laws.Encoding.Statement (.copy w) := Laws.Encoding.slotted rfl rfl (by decide)
theorem Laws.Encoding.mcst (w : Slot) : Laws.Encoding.Statement (.mcst w) := Laws.Encoding.slotted rfl rfl (by decide)
theorem Laws.Encoding.copyTransferComplete (who : SeqId) (channel : Fin 4) : Laws.Encoding.Statement (.copyTransferComplete who channel) := Laws.Encoding.slotless rfl (Nat.zero_le 1)
theorem Laws.Encoding.copyTransferFailure (who : SeqId) (channel : Fin 4) : Laws.Encoding.Statement (.copyTransferFailure who channel) := Laws.Encoding.slotless rfl (Nat.zero_le 1)
theorem Laws.Encoding.get (w : Slot) : Laws.Encoding.Statement (.get w) := Laws.Encoding.slotted rfl rfl (by decide)
theorem Laws.Encoding.put (w : Slot) : Laws.Encoding.Statement (.put w) := Laws.Encoding.slotted rfl rfl (by decide)
theorem Laws.Encoding.job (w : Slot) : Laws.Encoding.Statement (.job w) := Laws.Encoding.slotted rfl rfl (by decide)
theorem Laws.Encoding.jobSubmissionWaitLimit (who : SeqId) : Laws.Encoding.Statement (.jobSubmissionWaitLimit who) := Laws.Encoding.slotless rfl (Nat.zero_le 1)
theorem Laws.Encoding.wptrP (w : Slot) : Laws.Encoding.Statement (.wptrP w) := Laws.Encoding.slotted rfl rfl (by decide)
theorem Laws.Encoding.wptrS (w : Slot) : Laws.Encoding.Statement (.wptrS w) := Laws.Encoding.slotted rfl rfl (by decide)
theorem Laws.Encoding.wptrT (w : Slot) : Laws.Encoding.Statement (.wptrT w) := Laws.Encoding.slotted rfl rfl (by decide)
theorem Laws.Encoding.ksyn (w : Slot) : Laws.Encoding.Statement (.ksyn w) := Laws.Encoding.slotted rfl rfl (by decide)
theorem Laws.Encoding.ksynComplete (who : SeqId) : Laws.Encoding.Statement (.ksynComplete who) := Laws.Encoding.slotless rfl (Nat.zero_le 1)
theorem Laws.Encoding.rvin (w : Slot) : Laws.Encoding.Statement (.rvin w) := Laws.Encoding.slotted rfl rfl (by decide)
theorem Laws.Encoding.rvinB (w : Slot) : Laws.Encoding.Statement (.rvinB w) := Laws.Encoding.slotted rfl rfl (by decide)
theorem Laws.Encoding.rvinRd (w : Slot) : Laws.Encoding.Statement (.rvinRd w) := Laws.Encoding.slotted rfl rfl (by decide)
theorem Laws.Encoding.arv (w : Slot) : Laws.Encoding.Statement (.arv w) := Laws.Encoding.slotted rfl rfl (by decide)
theorem Laws.Encoding.arvOne (w : Slot) : Laws.Encoding.Statement (.arvOne w) := Laws.Encoding.slotted rfl rfl (by decide)
theorem Laws.Encoding.rvwt (w : Slot) : Laws.Encoding.Statement (.rvwt w) := Laws.Encoding.slotted rfl rfl (by decide)
theorem Laws.Encoding.rvwtComplete (who : SeqId) : Laws.Encoding.Statement (.rvwtComplete who) := Laws.Encoding.slotless rfl (Nat.zero_le 1)
theorem Laws.Encoding.rendezvousWaitLimit (who : SeqId) : Laws.Encoding.Statement (.rendezvousWaitLimit who) := Laws.Encoding.slotless rfl (Nat.zero_le 1)
theorem Laws.Encoding.give (w : Slot) : Laws.Encoding.Statement (.give w) := Laws.Encoding.slotted rfl rfl (by decide)
theorem Laws.Encoding.drainComplete (who : SeqId) : Laws.Encoding.Statement (.drainComplete who) := Laws.Encoding.slotless rfl (Nat.zero_le 1)
theorem Laws.Encoding.bmapAlloc (w : Slot) : Laws.Encoding.Statement (.bmapAlloc w) := Laws.Encoding.slotted rfl rfl (by decide)
theorem Laws.Encoding.bmapAllocz (w : Slot) : Laws.Encoding.Statement (.bmapAllocz w) := Laws.Encoding.slotted rfl rfl (by decide)
theorem Laws.Encoding.bmapFree (w : Slot) : Laws.Encoding.Statement (.bmapFree w) := Laws.Encoding.slotted rfl rfl (by decide)
theorem Laws.Encoding.bmapShare (w : Slot) : Laws.Encoding.Statement (.bmapShare w) := Laws.Encoding.slotted rfl rfl (by decide)
theorem Laws.Encoding.bmapRd (w : Slot) : Laws.Encoding.Statement (.bmapRd w) := Laws.Encoding.slotted rfl rfl (by decide)
theorem Laws.Encoding.send (w : Slot) : Laws.Encoding.Statement (.send w) := Laws.Encoding.slotted rfl rfl (by decide)
theorem Laws.Encoding.sendFlitInjection (core : Fin 512) : Laws.Encoding.Statement (.sendFlitInjection core) := Laws.Encoding.slotless rfl (Nat.zero_le 1)
theorem Laws.Encoding.messageQueueArrival (cluster : Fin 128) (queue : Fin 8) : Laws.Encoding.Statement (.messageQueueArrival cluster queue) := Laws.Encoding.slotless rfl (Nat.zero_le 1)
theorem Laws.Encoding.messageSendWaitLimit (who : SeqId) : Laws.Encoding.Statement (.messageSendWaitLimit who) := Laws.Encoding.slotless rfl (Nat.zero_le 1)
theorem Laws.Encoding.recv (w : Slot) : Laws.Encoding.Statement (.recv w) := Laws.Encoding.slotted rfl rfl (by decide)
theorem Laws.Encoding.recvWake (who : SeqId) : Laws.Encoding.Statement (.recvWake who) := Laws.Encoding.slotless rfl (Nat.zero_le 1)
theorem Laws.Encoding.messageReceiveWaitLimit (who : SeqId) : Laws.Encoding.Statement (.messageReceiveWaitLimit who) := Laws.Encoding.slotless rfl (Nat.zero_le 1)
theorem Laws.Encoding.mprb (w : Slot) : Laws.Encoding.Statement (.mprb w) := Laws.Encoding.slotted rfl rfl (by decide)
theorem Laws.Encoding.task (w : Slot) : Laws.Encoding.Statement (.task w) := Laws.Encoding.slotted rfl rfl (by decide)
theorem Laws.Encoding.taskSubmissionWaitLimit (who : SeqId) : Laws.Encoding.Statement (.taskSubmissionWaitLimit who) := Laws.Encoding.slotless rfl (Nat.zero_le 1)
theorem Laws.Encoding.tableRoomGrant (die : Fin 4) : Laws.Encoding.Statement (.tableRoomGrant die) := Laws.Encoding.slotless rfl (Nat.zero_le 1)
theorem Laws.Encoding.timeNow (w : Slot) : Laws.Encoding.Statement (.timeNow w) := Laws.Encoding.slotted rfl rfl (by decide)
theorem Laws.Encoding.timeUntil (w : Slot) : Laws.Encoding.Statement (.timeUntil w) := Laws.Encoding.slotted rfl rfl (by decide)
theorem Laws.Encoding.timeUntilReached (who : SeqId) : Laws.Encoding.Statement (.timeUntilReached who) := Laws.Encoding.slotless rfl (Nat.zero_le 1)
theorem Laws.Encoding.yld (w : Slot) : Laws.Encoding.Statement (.yld w) := Laws.Encoding.slotted rfl rfl (by decide)
theorem Laws.Encoding.yldWake (who : SeqId) : Laws.Encoding.Statement (.yldWake who) := Laws.Encoding.slotless rfl (Nat.zero_le 1)
theorem Laws.Encoding.yldCyclesPassed (who : SeqId) : Laws.Encoding.Statement (.yldCyclesPassed who) := Laws.Encoding.slotless rfl (Nat.zero_le 1)
theorem Laws.Encoding.hlth (w : Slot) : Laws.Encoding.Statement (.hlth w) := Laws.Encoding.slotted rfl rfl (by decide)
theorem Laws.Encoding.rankHaltComplete (who : SeqId) : Laws.Encoding.Statement (.rankHaltComplete who) := Laws.Encoding.slotless rfl (Nat.zero_le 1)
theorem Laws.Encoding.cribLowering (who : SeqId) (lowering : Lowering) : Laws.Encoding.Statement (.cribLowering who lowering) := Laws.Encoding.slotless rfl (Nat.zero_le 1)
theorem Laws.Encoding.taskPlacement (die : Fin 4) : Laws.Encoding.Statement (.taskPlacement die) := Laws.Encoding.slotless rfl (Nat.zero_le 1)
theorem Laws.Encoding.teamStart (die : Fin 4) (serial : Nat) : Laws.Encoding.Statement (.teamStart die serial) := Laws.Encoding.slotless rfl (Nat.zero_le 1)
theorem Laws.Encoding.agingIntervalExpiry (die : Fin 4) (graph : Fin 64) : Laws.Encoding.Statement (.agingIntervalExpiry die graph) := Laws.Encoding.slotless rfl (Nat.zero_le 1)
theorem Laws.Encoding.softPreemption (die : Fin 4) (graph : Fin 64) : Laws.Encoding.Statement (.softPreemption die graph) := Laws.Encoding.slotless rfl (Nat.zero_le 1)
theorem Laws.Encoding.hardPreemptionSave (die : Fin 4) (serial : Nat) : Laws.Encoding.Statement (.hardPreemptionSave die serial) := Laws.Encoding.slotless rfl (Nat.zero_le 1)
theorem Laws.Encoding.taskResume (die : Fin 4) (serial : Nat) : Laws.Encoding.Statement (.taskResume die serial) := Laws.Encoding.slotless rfl (Nat.zero_le 1)
theorem Laws.Encoding.parkedBinEviction (die : Fin 4) (serial : Nat) (handle : Word) : Laws.Encoding.Statement (.parkedBinEviction die serial handle) := Laws.Encoding.slotless rfl (Nat.zero_le 1)
theorem Laws.Encoding.completionRecordWrite (die : Fin 4) (serial : Nat) : Laws.Encoding.Statement (.completionRecordWrite die serial) := Laws.Encoding.slotless rfl (Nat.zero_le 1)
theorem Laws.Encoding.dieCopyCard (die : Fin 4) (serial : Nat) : Laws.Encoding.Statement (.dieCopyCard die serial) := Laws.Encoding.slotless rfl (Nat.zero_le 1)
theorem Laws.Encoding.collectiveSumFp32 (die : Fin 4) (serial : Nat) : Laws.Encoding.Statement (.collectiveSumFp32 die serial) := Laws.Encoding.slotless rfl (Nat.zero_le 1)
theorem Laws.Encoding.collectiveSumBf16 (die : Fin 4) (serial : Nat) : Laws.Encoding.Statement (.collectiveSumBf16 die serial) := Laws.Encoding.slotless rfl (Nat.zero_le 1)
theorem Laws.Encoding.collectiveMax (die : Fin 4) (serial : Nat) : Laws.Encoding.Statement (.collectiveMax die serial) := Laws.Encoding.slotless rfl (Nat.zero_le 1)
theorem Laws.Encoding.collectiveMin (die : Fin 4) (serial : Nat) : Laws.Encoding.Statement (.collectiveMin die serial) := Laws.Encoding.slotless rfl (Nat.zero_le 1)
theorem Laws.Encoding.collectiveSumInt32 (die : Fin 4) (serial : Nat) : Laws.Encoding.Statement (.collectiveSumInt32 die serial) := Laws.Encoding.slotless rfl (Nat.zero_le 1)
theorem Laws.Encoding.collectiveBroadcast (die : Fin 4) (serial : Nat) : Laws.Encoding.Statement (.collectiveBroadcast die serial) := Laws.Encoding.slotless rfl (Nat.zero_le 1)
theorem Laws.Encoding.collectiveWaitLimit (die : Fin 4) (serial : Nat) : Laws.Encoding.Statement (.collectiveWaitLimit die serial) := Laws.Encoding.slotless rfl (Nat.zero_le 1)
theorem Laws.Encoding.bankmac (die : Fin 4) (serial : Nat) (parity : Bool) : Laws.Encoding.Statement (.bankmac die serial parity) := Laws.Encoding.slotless rfl (Nat.zero_le 1)
theorem Laws.Encoding.attn (die : Fin 4) (serial : Nat) (parity : Bool) : Laws.Encoding.Statement (.attn die serial parity) := Laws.Encoding.slotless rfl (Nat.zero_le 1)
theorem Laws.Encoding.rowzero (die : Fin 4) (serial : Nat) (parity : Bool) : Laws.Encoding.Statement (.rowzero die serial parity) := Laws.Encoding.slotless rfl (Nat.zero_le 1)
theorem Laws.Encoding.rowcopy (die : Fin 4) (serial : Nat) (parity : Bool) : Laws.Encoding.Statement (.rowcopy die serial parity) := Laws.Encoding.slotless rfl (Nat.zero_le 1)
theorem Laws.Encoding.migrationMove (die : Fin 4) (serial : Nat) : Laws.Encoding.Statement (.migrationMove die serial) := Laws.Encoding.slotless rfl (Nat.zero_le 1)
theorem Laws.Encoding.migrationEvict (die : Fin 4) (serial : Nat) : Laws.Encoding.Statement (.migrationEvict die serial) := Laws.Encoding.slotless rfl (Nat.zero_le 1)
theorem Laws.Encoding.migrationFetch (die : Fin 4) (serial : Nat) : Laws.Encoding.Statement (.migrationFetch die serial) := Laws.Encoding.slotless rfl (Nat.zero_le 1)
theorem Laws.Encoding.migrationCompress (die : Fin 4) (serial : Nat) : Laws.Encoding.Statement (.migrationCompress die serial) := Laws.Encoding.slotless rfl (Nat.zero_le 1)
theorem Laws.Encoding.migrationExpand (die : Fin 4) (serial : Nat) : Laws.Encoding.Statement (.migrationExpand die serial) := Laws.Encoding.slotless rfl (Nat.zero_le 1)
theorem Laws.Encoding.residencyRequestService (die : Fin 4) (host : Word) : Laws.Encoding.Statement (.residencyRequestService die host) := Laws.Encoding.slotless rfl (Nat.zero_le 1)
theorem Laws.Encoding.computePhaseStart (pc : PcId) : Laws.Encoding.Statement (.computePhaseStart pc) := Laws.Encoding.slotless rfl (Nat.zero_le 1)
theorem Laws.Encoding.computePhaseYield (pc : PcId) : Laws.Encoding.Statement (.computePhaseYield pc) := Laws.Encoding.slotless rfl (Nat.zero_le 1)
theorem Laws.Encoding.normalPhaseEnd (pc : PcId) : Laws.Encoding.Statement (.normalPhaseEnd pc) := Laws.Encoding.slotless rfl (Nat.zero_le 1)
theorem Laws.Encoding.powerStateRequest (pc : PcId) (deep : Bool) : Laws.Encoding.Statement (.powerStateRequest pc deep) := Laws.Encoding.slotless rfl (Nat.zero_le 1)
theorem Laws.Encoding.powerStateExit (pc : PcId) (spillLost : Bool) : Laws.Encoding.Statement (.powerStateExit pc spillLost) := Laws.Encoding.slotless rfl (Nat.zero_le 1)
theorem Laws.Encoding.coreWritePathDrain (core : Fin 512) : Laws.Encoding.Statement (.coreWritePathDrain core) := Laws.Encoding.slotless rfl (Nat.zero_le 1)
theorem Laws.Encoding.clusterCacheWriteDrain (cluster : Fin 128) : Laws.Encoding.Statement (.clusterCacheWriteDrain cluster) := Laws.Encoding.slotless rfl (Nat.zero_le 1)
theorem Laws.Encoding.clusterCacheCopyDrop (cluster : Fin 128) : Laws.Encoding.Statement (.clusterCacheCopyDrop cluster) := Laws.Encoding.slotless rfl (Nat.zero_le 1)
theorem Laws.Encoding.networkRequestTimeout (who : SeqId) : Laws.Encoding.Statement (.networkRequestTimeout who) := Laws.Encoding.slotless rfl (Nat.zero_le 1)
theorem Laws.Encoding.fabricRequestTimeout (who : SeqId) : Laws.Encoding.Statement (.fabricRequestTimeout who) := Laws.Encoding.slotless rfl (Nat.zero_le 1)
theorem Laws.Encoding.patrolRead (die : Fin 4) (line : Fin 1073741824) (found : LineCheck) : Laws.Encoding.Statement (.patrolRead die line found) := Laws.Encoding.slotless rfl (Nat.zero_le 1)
theorem Laws.Encoding.rowSparing (row : RowId) : Laws.Encoding.Statement (.rowSparing row) := Laws.Encoding.slotless rfl (Nat.zero_le 1)
theorem Laws.Encoding.macroRecalibration (core : Fin 512) (mac : Fin 8) : Laws.Encoding.Statement (.macroRecalibration core mac) := Laws.Encoding.slotless rfl (Nat.zero_le 1)
theorem Laws.Encoding.macroRetirement (core : Fin 512) (mac : Fin 8) : Laws.Encoding.Statement (.macroRetirement core mac) := Laws.Encoding.slotless rfl (Nat.zero_le 1)
theorem Laws.Encoding.coreRetirement (core : Fin 512) : Laws.Encoding.Statement (.coreRetirement core) := Laws.Encoding.slotless rfl (Nat.zero_le 1)
theorem Laws.Encoding.binRetirement (cluster : Fin 128) (bin : Fin 64) : Laws.Encoding.Statement (.binRetirement cluster bin) := Laws.Encoding.slotless rfl (Nat.zero_le 1)
theorem Laws.Encoding.routerFailure (router : Fin 128) (routes : List (Nat × Nat × RouteEntry)) : Laws.Encoding.Statement (.routerFailure router routes) := Laws.Encoding.slotless rfl (Nat.zero_le 1)
theorem Laws.Encoding.laneFailure (link : Fin 18) (lane : Fin 9) : Laws.Encoding.Statement (.laneFailure link lane) := Laws.Encoding.slotless rfl (Nat.zero_le 1)
theorem Laws.Encoding.linkRetrainComplete (link : Fin 18) : Laws.Encoding.Statement (.linkRetrainComplete link) := Laws.Encoding.slotless rfl (Nat.zero_le 1)
theorem Laws.Encoding.routingTableRewrite (routes : List (Nat × BitVec 16 × Nat)) : Laws.Encoding.Statement (.routingTableRewrite routes) := Laws.Encoding.slotless rfl (Nat.zero_le 1)
theorem Laws.Encoding.healthRingWrite : Laws.Encoding.Statement (.healthRingWrite) := Laws.Encoding.slotless rfl (Nat.zero_le 1)
theorem Laws.Encoding.stampRateCorrection (ppm : Int) (inSync : Bool) : Laws.Encoding.Statement (.stampRateCorrection ppm inSync) := Laws.Encoding.slotless rfl (Nat.zero_le 1)
theorem Laws.Encoding.thermalThrottle : Laws.Encoding.Statement (.thermalThrottle) := Laws.Encoding.slotless rfl (Nat.zero_le 1)
theorem Laws.Encoding.thermalStop : Laws.Encoding.Statement (.thermalStop) := Laws.Encoding.slotless rfl (Nat.zero_le 1)
theorem Laws.Encoding.dvfsChange (millivolts : Nat) (cap : Nat) : Laws.Encoding.Statement (.dvfsChange millivolts cap) := Laws.Encoding.slotless rfl (Nat.zero_le 1)
theorem Laws.Encoding.powerUp : Laws.Encoding.Statement (.powerUp) := Laws.Encoding.slotless rfl (Nat.zero_le 1)
theorem Laws.Encoding.bootctlWrite (length : Word) : Laws.Encoding.Statement (.bootctlWrite length) := Laws.Encoding.slotless rfl (Nat.zero_le 1)
theorem Laws.Encoding.imageVerification : Laws.Encoding.Statement (.imageVerification) := Laws.Encoding.slotless rfl (Nat.zero_le 1)
theorem Laws.Encoding.sirxonBringUp (plan : BringUp) : Laws.Encoding.Statement (.sirxonBringUp plan) := Laws.Encoding.slotless rfl (Nat.zero_le 1)
theorem Laws.Encoding.qnotifyWrite (queue : Fin 64) (tail : BitVec 32) : Laws.Encoding.Statement (.qnotifyWrite queue tail) := Laws.Encoding.slotless rfl (Nat.zero_le 1)
theorem Laws.Encoding.hrctlWrite (value : Word) : Laws.Encoding.Statement (.hrctlWrite value) := Laws.Encoding.slotless rfl (Nat.zero_le 1)
theorem Laws.Encoding.hrheadWrite (value : Word) : Laws.Encoding.Statement (.hrheadWrite value) := Laws.Encoding.slotless rfl (Nat.zero_le 1)
theorem Laws.Encoding.bar0RegisterWrite (offset : BitVec 16) (value : Word) : Laws.Encoding.Statement (.bar0RegisterWrite offset value) := Laws.Encoding.slotless rfl (Nat.zero_le 1)
theorem Laws.Encoding.hostBar2Read (offset : BitVec 34) (length : Nat) : Laws.Encoding.Statement (.hostBar2Read offset length) := Laws.Encoding.slotless rfl (Nat.zero_le 1)
theorem Laws.Encoding.hostBar2Write (offset : BitVec 34) (data : List Byte) : Laws.Encoding.Statement (.hostBar2Write offset data) := Laws.Encoding.slotless rfl (Nat.zero_le 1)
theorem Laws.Encoding.hostJobCardEntry (queue : Fin 64) : Laws.Encoding.Statement (.hostJobCardEntry queue) := Laws.Encoding.slotless rfl (Nat.zero_le 1)
theorem Laws.Encoding.hostTaskEntry (queue : Fin 64) : Laws.Encoding.Statement (.hostTaskEntry queue) := Laws.Encoding.slotless rfl (Nat.zero_le 1)
theorem Laws.Encoding.load (queue : Fin 64) : Laws.Encoding.Statement (.load queue) := Laws.Encoding.slotless rfl (Nat.zero_le 1)
theorem Laws.Encoding.unload (queue : Fin 64) : Laws.Encoding.Statement (.unload queue) := Laws.Encoding.slotless rfl (Nat.zero_le 1)
theorem Laws.Encoding.unloadComplete (die : Fin 4) (slot : Fin 4096) : Laws.Encoding.Statement (.unloadComplete die slot) := Laws.Encoding.slotless rfl (Nat.zero_le 1)
theorem Laws.Encoding.map (queue : Fin 64) : Laws.Encoding.Statement (.map queue) := Laws.Encoding.slotless rfl (Nat.zero_le 1)
theorem Laws.Encoding.cribInvalidate (queue : Fin 64) : Laws.Encoding.Statement (.cribInvalidate queue) := Laws.Encoding.slotless rfl (Nat.zero_le 1)
theorem Laws.Encoding.attest (queue : Fin 64) : Laws.Encoding.Statement (.attest queue) := Laws.Encoding.slotless rfl (Nat.zero_le 1)
theorem Laws.Encoding.checkpoint (queue : Fin 64) : Laws.Encoding.Statement (.checkpoint queue) := Laws.Encoding.slotless rfl (Nat.zero_le 1)
theorem Laws.Encoding.restore (queue : Fin 64) : Laws.Encoding.Statement (.restore queue) := Laws.Encoding.slotless rfl (Nat.zero_le 1)
theorem Laws.Encoding.entryInvalid (queue : Fin 64) : Laws.Encoding.Statement (.entryInvalid queue) := Laws.Encoding.slotless rfl (Nat.zero_le 1)
theorem Laws.Encoding.placementCoreReservation (die : Fin 4) : Laws.Encoding.Statement (.placementCoreReservation die) := Laws.Encoding.slotless rfl (Nat.zero_le 1)
theorem Laws.Encoding.flitReplay (link : Fin 18) : Laws.Encoding.Statement (.flitReplay link) := Laws.Encoding.slotless rfl (Nat.zero_le 1)

end Sys2Proof
end

