-- ==== Sys2Proof/Laws/Quiet.lean ====
section
/-! SUPPORT. Computations that leave the state as it is, whether they answer or stop: the checks of an A-space access, and
its reads. -/

namespace Sys2Proof.Machine

/-- It leaves every state as it was. -/
def Quiet {α : Type} (m : M α) : Prop := ∀ s, (m.on s).2 = s

theorem Quiet.pure {α : Type} (a : α) : Quiet (Pure.pure a : M α) := fun _ => rfl
theorem Quiet.get : Quiet (MonadState.get : M State) := fun _ => rfl
theorem Quiet.raise {α : Type} (code : Nat) (addr : Word) (d : BitVec 16) : Quiet (Machine.raise code addr d : M α) := fun _ => rfl
theorem Quiet.hazard {α : Type} : Quiet (Machine.hazard : M α) := fun _ => rfl
theorem Quiet.stall {α : Type} : Quiet (Machine.stall : M α) := fun _ => rfl
theorem Quiet.waitFor {α : Type} (k : WaitKind) (addr : Word) : Quiet (Machine.waitFor k addr : M α) := fun _ => rfl
theorem Quiet.getCore (c : Nat) : Quiet (Machine.getCore c) := fun _ => rfl
theorem Quiet.getCluster (c : Nat) : Quiet (Machine.getCluster c) := fun _ => rfl

theorem Quiet.bind {α β : Type} {m : M α} {f : α → M β} (h : Quiet m) (hf : ∀ a, Quiet (f a)) : Quiet (m >>= f) := by
  intro s
  have h1 := h s
  rw [M.on_bind]
  rcases hm : m.on s with ⟨_ | a, t⟩ <;> rw [hm] at h1
  · exact h1
  · exact (hf a t).trans h1

theorem Quiet.ite {α : Type} {c : Prop} [Decidable c] {m n : M α} (h : Quiet m) (h' : Quiet n) : Quiet (if c then m else n) := by
  split <;> assumption

theorem Quiet.raiseIf (c : Bool) (code : Nat) (addr : Word) (d : BitVec 16) : Quiet (Machine.raiseIf c code addr d) := by
  cases c <;> exact fun _ => rfl

theorem aCheck_quiet (core addr len : Nat) : Quiet (aCheck core addr len) :=
  .bind (.raiseIf _ _ _ _) fun _ => .bind (.raiseIf _ _ _ _) fun _ => .bind (.getCore _) fun k => by
    have h (x : PUnit) : Quiet (do
        Machine.raiseIf (!(k.windows[addr / binSize % 16]'(Nat.mod_lt _ (by decide))).att ||
          (k.windows[addr / binSize % 16]'(Nat.mod_lt _ (by decide))).drn) 0x081 (BitVec.ofNat 64 addr)
        return (k.windows[addr / binSize % 16]'(Nat.mod_lt _ (by decide))).bin.val * binSize + addr % binSize) :=
      .bind (.raiseIf _ _ _ _) fun _ => .pure _
    exact .ite (.bind .stall h) (h ⟨⟩)

theorem aPoison_quiet (core addr p len : Nat) : Quiet (aPoison core addr p len) := .bind (.getCluster _) fun _ => .raiseIf _ _ _ _

theorem awaitBin_quiet (core : Nat) (write : Bool) (p n : Nat) : Quiet (awaitBin core write p n) :=
  .bind .get fun s => by
    cases (s.core core).issuing with
    | none => exact .pure _
    | some g => exact .ite .hazard (.pure _)

theorem binRead_quiet (core p len : Nat) : Quiet (binRead core p len) := .bind (.getCluster _) fun _ => .pure _

theorem aRead_quiet (core addr len : Nat) : Quiet (aRead core addr len) :=
  .bind (aCheck_quiet _ _ _) fun _ => .bind (aPoison_quiet _ _ _ _) fun _ => .bind (awaitBin_quiet _ _ _ _) fun _ => binRead_quiet _ _ _

end Sys2Proof.Machine
end

