-- ==== Sys2Proof/Laws/State.lean ====
section
/-! SUPPORT. What each update of the state leaves in each field, so that no later proof unfolds a record update. -/

namespace Sys2Proof.Machine

/-! ### Parts by number -/

theorem State.core_setCore (s : State) (c d : Nat) (k : Core) : (s.setCore c k).core d = if d = c then k else s.core d :=
  tabGet_tabPut _ _ _ _ _
@[simp] theorem State.core_setCore_same (s : State) (c : Nat) (k : Core) : (s.setCore c k).core c = k := by
  simp [State.core_setCore]
theorem State.cluster_setCluster (s : State) (c d : Nat) (k : Cluster) :
    (s.setCluster c k).cluster d = if d = c then k else s.cluster d := tabGet_tabPut _ _ _ _ _
@[simp] theorem State.cluster_setCluster_same (s : State) (c : Nat) (k : Cluster) : (s.setCluster c k).cluster c = k := by
  simp [State.cluster_setCluster]
theorem State.die_setDie (s : State) (c d : Nat) (k : Die) : (s.setDie c k).die d = if d = c then k else s.die d :=
  tabGet_tabPut _ _ _ _ _
@[simp] theorem State.die_setDie_same (s : State) (c : Nat) (k : Die) : (s.setDie c k).die c = k := by simp [State.die_setDie]
theorem State.pcAt_setPcAt (s : State) (c d : Nat) (k : Pc) : (s.setPcAt c k).pcAt d = if d = c then k else s.pcAt d :=
  tabGet_tabPut _ _ _ _ _

@[simp] theorem State.setCore_setCore (s : State) (c : Nat) (k l : Core) : (s.setCore c k).setCore c l = s.setCore c l := by
  simp [State.setCore]
@[simp] theorem State.setCluster_setCluster (s : State) (c : Nat) (k l : Cluster) :
    (s.setCluster c k).setCluster c l = s.setCluster c l := by simp [State.setCluster]
@[simp] theorem State.setDie_setDie (s : State) (c : Nat) (k l : Die) : (s.setDie c k).setDie c l = s.setDie c l := by
  simp [State.setDie]

@[simp] theorem Core.setSeq_setSeq (k : Core) (g : Fin 2) (q r : Seq) : (k.setSeq g q).setSeq g r = k.setSeq g r := by
  unfold Core.setSeq; split <;> rfl
@[simp] theorem Core.seq_setSeq_same (k : Core) (g : Fin 2) (q : Seq) : (k.setSeq g q).seq g = q := by
  unfold Core.setSeq Core.seq; split <;> simp_all
theorem Core.seq_setSeq (k : Core) (g h : Fin 2) (q : Seq) : (k.setSeq g q).seq h = if h = g then q else k.seq h := by
  unfold Core.setSeq Core.seq
  match g, h with
  | 0, 0 => rfl
  | 0, 1 => rfl
  | 1, 0 => rfl
  | 1, 1 => rfl
@[simp] theorem State.seq_setSeq_same (s : State) (w : SeqId) (q : Seq) : (s.setSeq w q).seq w = q := by
  simp [State.seq, State.setSeq]
@[simp] theorem State.setSeq_setSeq (s : State) (w : SeqId) (q r : Seq) : (s.setSeq w q).setSeq w r = s.setSeq w r := by
  simp [State.setSeq]
theorem State.seq_setSeq (s : State) (w u : SeqId) (q : Seq) : (s.setSeq w q).seq u = if u = w then q else s.seq u := by
  obtain ⟨c, g⟩ := w
  obtain ⟨d, h⟩ := u
  by_cases hc : d = c
  · subst hc
    simp only [State.seq, State.setSeq, State.core_setCore_same, Core.seq_setSeq, SeqId.mk.injEq, true_and]
  · have hn : (d : Nat) ≠ c := fun e => hc (Fin.ext e)
    simp [State.seq, State.setSeq, State.core_setCore, hn, SeqId.mk.injEq, hc]


@[simp] theorem State.setCore_focus (s : State) (c : Nat) (k : Core) : (s.setCore c k).focus = s.focus := rfl
@[simp] theorem State.setCore_clusters (s : State) (c : Nat) (k : Core) : (s.setCore c k).clusters = s.clusters := rfl
@[simp] theorem State.setCore_dies (s : State) (c : Nat) (k : Core) : (s.setCore c k).dies = s.dies := rfl
@[simp] theorem State.setCore_pcs (s : State) (c : Nat) (k : Core) : (s.setCore c k).pcs = s.pcs := rfl
@[simp] theorem State.setCore_dram (s : State) (c : Nat) (k : Core) : (s.setCore c k).dram = s.dram := rfl
@[simp] theorem State.setCore_hostMem (s : State) (c : Nat) (k : Core) : (s.setCore c k).hostMem = s.hostMem := rfl
@[simp] theorem State.setCore_remote (s : State) (c : Nat) (k : Core) : (s.setCore c k).remote = s.remote := rfl
@[simp] theorem State.setCore_remoteLines (s : State) (c : Nat) (k : Core) : (s.setCore c k).remoteLines = s.remoteLines := rfl
@[simp] theorem State.setCore_remoteFaults (s : State) (c : Nat) (k : Core) : (s.setCore c k).remoteFaults = s.remoteFaults := rfl
@[simp] theorem State.setCore_contributions (s : State) (c : Nat) (k : Core) : (s.setCore c k).contributions = s.contributions := rfl
@[simp] theorem State.setCore_stores (s : State) (c : Nat) (k : Core) : (s.setCore c k).stores = s.stores := rfl
@[simp] theorem State.setCore_host (s : State) (c : Nat) (k : Core) : (s.setCore c k).host = s.host := rfl
@[simp] theorem State.setCore_sirxon (s : State) (c : Nat) (k : Core) : (s.setCore c k).sirxon = s.sirxon := rfl
@[simp] theorem State.setCore_nets (s : State) (c : Nat) (k : Core) : (s.setCore c k).nets = s.nets := rfl
@[simp] theorem State.setCore_cycle (s : State) (c : Nat) (k : Core) : (s.setCore c k).cycle = s.cycle := rfl
@[simp] theorem State.setCore_stamp (s : State) (c : Nat) (k : Core) : (s.setCore c k).stamp = s.stamp := rfl
@[simp] theorem State.setCore_agenda (s : State) (c : Nat) (k : Core) : (s.setCore c k).agenda = s.agenda := rfl
@[simp] theorem State.setCore_free (s : State) (c : Nat) (k : Core) : (s.setCore c k).free = s.free := rfl
@[simp] theorem State.setCore_cluster (s : State) (c : Nat) (k : Core) (n : Nat) : (s.setCore c k).cluster n = s.cluster n := rfl
@[simp] theorem State.setCore_die (s : State) (c : Nat) (k : Core) (n : Nat) : (s.setCore c k).die n = s.die n := rfl
@[simp] theorem State.setCore_pcAt (s : State) (c : Nat) (k : Core) (n : Nat) : (s.setCore c k).pcAt n = s.pcAt n := rfl

@[simp] theorem State.setCluster_focus (s : State) (c : Nat) (k : Cluster) : (s.setCluster c k).focus = s.focus := rfl
@[simp] theorem State.setCluster_cores (s : State) (c : Nat) (k : Cluster) : (s.setCluster c k).cores = s.cores := rfl
@[simp] theorem State.setCluster_dies (s : State) (c : Nat) (k : Cluster) : (s.setCluster c k).dies = s.dies := rfl
@[simp] theorem State.setCluster_pcs (s : State) (c : Nat) (k : Cluster) : (s.setCluster c k).pcs = s.pcs := rfl
@[simp] theorem State.setCluster_dram (s : State) (c : Nat) (k : Cluster) : (s.setCluster c k).dram = s.dram := rfl
@[simp] theorem State.setCluster_hostMem (s : State) (c : Nat) (k : Cluster) : (s.setCluster c k).hostMem = s.hostMem := rfl
@[simp] theorem State.setCluster_remote (s : State) (c : Nat) (k : Cluster) : (s.setCluster c k).remote = s.remote := rfl
@[simp] theorem State.setCluster_remoteLines (s : State) (c : Nat) (k : Cluster) : (s.setCluster c k).remoteLines = s.remoteLines := rfl
@[simp] theorem State.setCluster_remoteFaults (s : State) (c : Nat) (k : Cluster) : (s.setCluster c k).remoteFaults = s.remoteFaults := rfl
@[simp] theorem State.setCluster_contributions (s : State) (c : Nat) (k : Cluster) : (s.setCluster c k).contributions = s.contributions := rfl
@[simp] theorem State.setCluster_stores (s : State) (c : Nat) (k : Cluster) : (s.setCluster c k).stores = s.stores := rfl
@[simp] theorem State.setCluster_host (s : State) (c : Nat) (k : Cluster) : (s.setCluster c k).host = s.host := rfl
@[simp] theorem State.setCluster_sirxon (s : State) (c : Nat) (k : Cluster) : (s.setCluster c k).sirxon = s.sirxon := rfl
@[simp] theorem State.setCluster_nets (s : State) (c : Nat) (k : Cluster) : (s.setCluster c k).nets = s.nets := rfl
@[simp] theorem State.setCluster_cycle (s : State) (c : Nat) (k : Cluster) : (s.setCluster c k).cycle = s.cycle := rfl
@[simp] theorem State.setCluster_stamp (s : State) (c : Nat) (k : Cluster) : (s.setCluster c k).stamp = s.stamp := rfl
@[simp] theorem State.setCluster_agenda (s : State) (c : Nat) (k : Cluster) : (s.setCluster c k).agenda = s.agenda := rfl
@[simp] theorem State.setCluster_free (s : State) (c : Nat) (k : Cluster) : (s.setCluster c k).free = s.free := rfl
@[simp] theorem State.setCluster_core (s : State) (c : Nat) (k : Cluster) (n : Nat) : (s.setCluster c k).core n = s.core n := rfl
@[simp] theorem State.setCluster_die (s : State) (c : Nat) (k : Cluster) (n : Nat) : (s.setCluster c k).die n = s.die n := rfl
@[simp] theorem State.setCluster_pcAt (s : State) (c : Nat) (k : Cluster) (n : Nat) : (s.setCluster c k).pcAt n = s.pcAt n := rfl
@[simp] theorem State.setCluster_seq (s : State) (c : Nat) (k : Cluster) (w : SeqId) : (s.setCluster c k).seq w = s.seq w := rfl

@[simp] theorem State.setDie_focus (s : State) (c : Nat) (k : Die) : (s.setDie c k).focus = s.focus := rfl
@[simp] theorem State.setDie_cores (s : State) (c : Nat) (k : Die) : (s.setDie c k).cores = s.cores := rfl
@[simp] theorem State.setDie_clusters (s : State) (c : Nat) (k : Die) : (s.setDie c k).clusters = s.clusters := rfl
@[simp] theorem State.setDie_pcs (s : State) (c : Nat) (k : Die) : (s.setDie c k).pcs = s.pcs := rfl
@[simp] theorem State.setDie_dram (s : State) (c : Nat) (k : Die) : (s.setDie c k).dram = s.dram := rfl
@[simp] theorem State.setDie_hostMem (s : State) (c : Nat) (k : Die) : (s.setDie c k).hostMem = s.hostMem := rfl
@[simp] theorem State.setDie_remote (s : State) (c : Nat) (k : Die) : (s.setDie c k).remote = s.remote := rfl
@[simp] theorem State.setDie_remoteLines (s : State) (c : Nat) (k : Die) : (s.setDie c k).remoteLines = s.remoteLines := rfl
@[simp] theorem State.setDie_remoteFaults (s : State) (c : Nat) (k : Die) : (s.setDie c k).remoteFaults = s.remoteFaults := rfl
@[simp] theorem State.setDie_contributions (s : State) (c : Nat) (k : Die) : (s.setDie c k).contributions = s.contributions := rfl
@[simp] theorem State.setDie_stores (s : State) (c : Nat) (k : Die) : (s.setDie c k).stores = s.stores := rfl
@[simp] theorem State.setDie_host (s : State) (c : Nat) (k : Die) : (s.setDie c k).host = s.host := rfl
@[simp] theorem State.setDie_sirxon (s : State) (c : Nat) (k : Die) : (s.setDie c k).sirxon = s.sirxon := rfl
@[simp] theorem State.setDie_nets (s : State) (c : Nat) (k : Die) : (s.setDie c k).nets = s.nets := rfl
@[simp] theorem State.setDie_cycle (s : State) (c : Nat) (k : Die) : (s.setDie c k).cycle = s.cycle := rfl
@[simp] theorem State.setDie_stamp (s : State) (c : Nat) (k : Die) : (s.setDie c k).stamp = s.stamp := rfl
@[simp] theorem State.setDie_agenda (s : State) (c : Nat) (k : Die) : (s.setDie c k).agenda = s.agenda := rfl
@[simp] theorem State.setDie_free (s : State) (c : Nat) (k : Die) : (s.setDie c k).free = s.free := rfl
@[simp] theorem State.setDie_core (s : State) (c : Nat) (k : Die) (n : Nat) : (s.setDie c k).core n = s.core n := rfl
@[simp] theorem State.setDie_cluster (s : State) (c : Nat) (k : Die) (n : Nat) : (s.setDie c k).cluster n = s.cluster n := rfl
@[simp] theorem State.setDie_pcAt (s : State) (c : Nat) (k : Die) (n : Nat) : (s.setDie c k).pcAt n = s.pcAt n := rfl
@[simp] theorem State.setDie_seq (s : State) (c : Nat) (k : Die) (w : SeqId) : (s.setDie c k).seq w = s.seq w := rfl

@[simp] theorem State.setPcAt_focus (s : State) (c : Nat) (k : Pc) : (s.setPcAt c k).focus = s.focus := rfl
@[simp] theorem State.setPcAt_cores (s : State) (c : Nat) (k : Pc) : (s.setPcAt c k).cores = s.cores := rfl
@[simp] theorem State.setPcAt_clusters (s : State) (c : Nat) (k : Pc) : (s.setPcAt c k).clusters = s.clusters := rfl
@[simp] theorem State.setPcAt_dies (s : State) (c : Nat) (k : Pc) : (s.setPcAt c k).dies = s.dies := rfl
@[simp] theorem State.setPcAt_dram (s : State) (c : Nat) (k : Pc) : (s.setPcAt c k).dram = s.dram := rfl
@[simp] theorem State.setPcAt_hostMem (s : State) (c : Nat) (k : Pc) : (s.setPcAt c k).hostMem = s.hostMem := rfl
@[simp] theorem State.setPcAt_remote (s : State) (c : Nat) (k : Pc) : (s.setPcAt c k).remote = s.remote := rfl
@[simp] theorem State.setPcAt_remoteLines (s : State) (c : Nat) (k : Pc) : (s.setPcAt c k).remoteLines = s.remoteLines := rfl
@[simp] theorem State.setPcAt_remoteFaults (s : State) (c : Nat) (k : Pc) : (s.setPcAt c k).remoteFaults = s.remoteFaults := rfl
@[simp] theorem State.setPcAt_contributions (s : State) (c : Nat) (k : Pc) : (s.setPcAt c k).contributions = s.contributions := rfl
@[simp] theorem State.setPcAt_stores (s : State) (c : Nat) (k : Pc) : (s.setPcAt c k).stores = s.stores := rfl
@[simp] theorem State.setPcAt_host (s : State) (c : Nat) (k : Pc) : (s.setPcAt c k).host = s.host := rfl
@[simp] theorem State.setPcAt_sirxon (s : State) (c : Nat) (k : Pc) : (s.setPcAt c k).sirxon = s.sirxon := rfl
@[simp] theorem State.setPcAt_nets (s : State) (c : Nat) (k : Pc) : (s.setPcAt c k).nets = s.nets := rfl
@[simp] theorem State.setPcAt_cycle (s : State) (c : Nat) (k : Pc) : (s.setPcAt c k).cycle = s.cycle := rfl
@[simp] theorem State.setPcAt_stamp (s : State) (c : Nat) (k : Pc) : (s.setPcAt c k).stamp = s.stamp := rfl
@[simp] theorem State.setPcAt_agenda (s : State) (c : Nat) (k : Pc) : (s.setPcAt c k).agenda = s.agenda := rfl
@[simp] theorem State.setPcAt_free (s : State) (c : Nat) (k : Pc) : (s.setPcAt c k).free = s.free := rfl
@[simp] theorem State.setPcAt_core (s : State) (c : Nat) (k : Pc) (n : Nat) : (s.setPcAt c k).core n = s.core n := rfl
@[simp] theorem State.setPcAt_cluster (s : State) (c : Nat) (k : Pc) (n : Nat) : (s.setPcAt c k).cluster n = s.cluster n := rfl
@[simp] theorem State.setPcAt_die (s : State) (c : Nat) (k : Pc) (n : Nat) : (s.setPcAt c k).die n = s.die n := rfl
@[simp] theorem State.setPcAt_seq (s : State) (c : Nat) (k : Pc) (w : SeqId) : (s.setPcAt c k).seq w = s.seq w := rfl

@[simp] theorem State.setSeq_focus (s : State) (c : SeqId) (k : Seq) : (s.setSeq c k).focus = s.focus := rfl
@[simp] theorem State.setSeq_clusters (s : State) (c : SeqId) (k : Seq) : (s.setSeq c k).clusters = s.clusters := rfl
@[simp] theorem State.setSeq_dies (s : State) (c : SeqId) (k : Seq) : (s.setSeq c k).dies = s.dies := rfl
@[simp] theorem State.setSeq_pcs (s : State) (c : SeqId) (k : Seq) : (s.setSeq c k).pcs = s.pcs := rfl
@[simp] theorem State.setSeq_dram (s : State) (c : SeqId) (k : Seq) : (s.setSeq c k).dram = s.dram := rfl
@[simp] theorem State.setSeq_hostMem (s : State) (c : SeqId) (k : Seq) : (s.setSeq c k).hostMem = s.hostMem := rfl
@[simp] theorem State.setSeq_remote (s : State) (c : SeqId) (k : Seq) : (s.setSeq c k).remote = s.remote := rfl
@[simp] theorem State.setSeq_remoteLines (s : State) (c : SeqId) (k : Seq) : (s.setSeq c k).remoteLines = s.remoteLines := rfl
@[simp] theorem State.setSeq_remoteFaults (s : State) (c : SeqId) (k : Seq) : (s.setSeq c k).remoteFaults = s.remoteFaults := rfl
@[simp] theorem State.setSeq_contributions (s : State) (c : SeqId) (k : Seq) : (s.setSeq c k).contributions = s.contributions := rfl
@[simp] theorem State.setSeq_stores (s : State) (c : SeqId) (k : Seq) : (s.setSeq c k).stores = s.stores := rfl
@[simp] theorem State.setSeq_host (s : State) (c : SeqId) (k : Seq) : (s.setSeq c k).host = s.host := rfl
@[simp] theorem State.setSeq_sirxon (s : State) (c : SeqId) (k : Seq) : (s.setSeq c k).sirxon = s.sirxon := rfl
@[simp] theorem State.setSeq_nets (s : State) (c : SeqId) (k : Seq) : (s.setSeq c k).nets = s.nets := rfl
@[simp] theorem State.setSeq_cycle (s : State) (c : SeqId) (k : Seq) : (s.setSeq c k).cycle = s.cycle := rfl
@[simp] theorem State.setSeq_stamp (s : State) (c : SeqId) (k : Seq) : (s.setSeq c k).stamp = s.stamp := rfl
@[simp] theorem State.setSeq_agenda (s : State) (c : SeqId) (k : Seq) : (s.setSeq c k).agenda = s.agenda := rfl
@[simp] theorem State.setSeq_free (s : State) (c : SeqId) (k : Seq) : (s.setSeq c k).free = s.free := rfl
@[simp] theorem State.setSeq_cluster (s : State) (c : SeqId) (k : Seq) (n : Nat) : (s.setSeq c k).cluster n = s.cluster n := rfl
@[simp] theorem State.setSeq_die (s : State) (c : SeqId) (k : Seq) (n : Nat) : (s.setSeq c k).die n = s.die n := rfl
@[simp] theorem State.setSeq_pcAt (s : State) (c : SeqId) (k : Seq) (n : Nat) : (s.setSeq c k).pcAt n = s.pcAt n := rfl

/-! ### A sequencer put into its core -/

@[simp] theorem Core.setSeq_issuing (k : Core) (g : Fin 2) (q : Seq) : (k.setSeq g q).issuing = k.issuing := by
  unfold Core.setSeq; split <;> rfl
@[simp] theorem Core.setSeq_macros (k : Core) (g : Fin 2) (q : Seq) : (k.setSeq g q).macros = k.macros := by
  unfold Core.setSeq; split <;> rfl
@[simp] theorem Core.setSeq_sets (k : Core) (g : Fin 2) (q : Seq) : (k.setSeq g q).sets = k.sets := by
  unfold Core.setSeq; split <;> rfl
@[simp] theorem Core.setSeq_wspace (k : Core) (g : Fin 2) (q : Seq) : (k.setSeq g q).wspace = k.wspace := by
  unfold Core.setSeq; split <;> rfl
@[simp] theorem Core.setSeq_lanes (k : Core) (g : Fin 2) (q : Seq) : (k.setSeq g q).lanes = k.lanes := by
  unfold Core.setSeq; split <;> rfl
@[simp] theorem Core.setSeq_live (k : Core) (g : Fin 2) (q : Seq) : (k.setSeq g q).live = k.live := by
  unfold Core.setSeq; split <;> rfl
@[simp] theorem Core.setSeq_windows (k : Core) (g : Fin 2) (q : Seq) : (k.setSeq g q).windows = k.windows := by
  unfold Core.setSeq; split <;> rfl
@[simp] theorem Core.setSeq_sendReg (k : Core) (g : Fin 2) (q : Seq) : (k.setSeq g q).sendReg = k.sendReg := by
  unfold Core.setSeq; split <;> rfl
@[simp] theorem Core.setSeq_writePath (k : Core) (g : Fin 2) (q : Seq) : (k.setSeq g q).writePath = k.writePath := by
  unfold Core.setSeq; split <;> rfl
@[simp] theorem Core.setSeq_loads (k : Core) (g : Fin 2) (q : Seq) : (k.setSeq g q).loads = k.loads := by
  unfold Core.setSeq; split <;> rfl
@[simp] theorem Core.setSeq_frame (k : Core) (g : Fin 2) (q : Seq) : (k.setSeq g q).frame = k.frame := by
  unfold Core.setSeq; split <;> rfl
@[simp] theorem Core.setSeq_liveMacros (k : Core) (g : Fin 2) (q : Seq) : (k.setSeq g q).liveMacros = k.liveMacros := by
  unfold Core.setSeq; split <;> rfl
@[simp] theorem Core.setSeq_retired (k : Core) (g : Fin 2) (q : Seq) : (k.setSeq g q).retired = k.retired := by
  unfold Core.setSeq; split <;> rfl
@[simp] theorem Core.setSeq_told (k : Core) (g : Fin 2) (q : Seq) : (k.setSeq g q).told = k.told := by
  unfold Core.setSeq; split <;> rfl
@[simp] theorem Core.setSeq_reserved (k : Core) (g : Fin 2) (q : Seq) : (k.setSeq g q).reserved = k.reserved := by
  unfold Core.setSeq; split <;> rfl

/-! ### Registers -/


@[simp] theorem Regs.setX_vpc (r : Regs) (n : BitVec 5) (u : Word) : (r.setX n u).vpc = r.vpc := by
  unfold Regs.setX; split <;> rfl
@[simp] theorem Regs.setX_lpc (r : Regs) (n : BitVec 5) (u : Word) : (r.setX n u).lpc = r.lpc := by
  unfold Regs.setX; split <;> rfl
@[simp] theorem Regs.setX_loops (r : Regs) (n : BitVec 5) (u : Word) : (r.setX n u).loops = r.loops := by
  unfold Regs.setX; split <;> rfl
@[simp] theorem Regs.setX_v (r : Regs) (n : BitVec 5) (u : Word) : (r.setX n u).v = r.v := by
  unfold Regs.setX; split <;> rfl
@[simp] theorem Regs.setX_p (r : Regs) (n : BitVec 5) (u : Word) : (r.setX n u).p = r.p := by
  unfold Regs.setX; split <;> rfl
@[simp] theorem Regs.setX_masks (r : Regs) (n : BitVec 5) (u : Word) : (r.setX n u).masks = r.masks := by
  unfold Regs.setX; split <;> rfl
@[simp] theorem Regs.setX_streams (r : Regs) (n : BitVec 5) (u : Word) : (r.setX n u).streams = r.streams := by
  unfold Regs.setX; split <;> rfl
@[simp] theorem Regs.setX_lx (r : Regs) (n : BitVec 5) (u : Word) : (r.setX n u).lx = r.lx := by
  unfold Regs.setX; split <;> rfl
@[simp] theorem Regs.setX_lg (r : Regs) (n : BitVec 5) (u : Word) : (r.setX n u).lg = r.lg := by
  unfold Regs.setX; split <;> rfl
@[simp] theorem Regs.setX_lv (r : Regs) (n : BitVec 5) (u : Word) : (r.setX n u).lv = r.lv := by
  unfold Regs.setX; split <;> rfl
@[simp] theorem Regs.setX_lm (r : Regs) (n : BitVec 5) (u : Word) : (r.setX n u).lm = r.lm := by
  unfold Regs.setX; split <;> rfl
@[simp] theorem Regs.setX_lk (r : Regs) (n : BitVec 5) (u : Word) : (r.setX n u).lk = r.lk := by
  unfold Regs.setX; split <;> rfl
@[simp] theorem Regs.setX_ly (r : Regs) (n : BitVec 5) (u : Word) : (r.setX n u).ly = r.ly := by
  unfold Regs.setX; split <;> rfl
@[simp] theorem Regs.setX_held (r : Regs) (n : BitVec 5) (u : Word) : (r.setX n u).held = r.held := by
  unfold Regs.setX; split <;> rfl
@[simp] theorem Regs.setX_sticky (r : Regs) (n : BitVec 5) (u : Word) : (r.setX n u).sticky = r.sticky := by
  unfold Regs.setX; split <;> rfl
@[simp] theorem Regs.setX_round (r : Regs) (n : BitVec 5) (u : Word) : (r.setX n u).round = r.round := by
  unfold Regs.setX; split <;> rfl
@[simp] theorem Regs.setX_mmode (r : Regs) (n : BitVec 5) (u : Word) : (r.setX n u).mmode = r.mmode := by
  unfold Regs.setX; split <;> rfl
@[simp] theorem Regs.setX_peerSel (r : Regs) (n : BitVec 5) (u : Word) : (r.setX n u).peerSel = r.peerSel := by
  unfold Regs.setX; split <;> rfl

@[simp] theorem Regs.setV_vpc (r : Regs) (n : BitVec 5) (u : Vec) : (r.setV n u).vpc = r.vpc := rfl
@[simp] theorem Regs.setV_lpc (r : Regs) (n : BitVec 5) (u : Vec) : (r.setV n u).lpc = r.lpc := rfl
@[simp] theorem Regs.setV_loops (r : Regs) (n : BitVec 5) (u : Vec) : (r.setV n u).loops = r.loops := rfl
@[simp] theorem Regs.setV_x (r : Regs) (n : BitVec 5) (u : Vec) : (r.setV n u).x = r.x := rfl
@[simp] theorem Regs.setV_p (r : Regs) (n : BitVec 5) (u : Vec) : (r.setV n u).p = r.p := rfl
@[simp] theorem Regs.setV_masks (r : Regs) (n : BitVec 5) (u : Vec) : (r.setV n u).masks = r.masks := rfl
@[simp] theorem Regs.setV_streams (r : Regs) (n : BitVec 5) (u : Vec) : (r.setV n u).streams = r.streams := rfl
@[simp] theorem Regs.setV_lx (r : Regs) (n : BitVec 5) (u : Vec) : (r.setV n u).lx = r.lx := rfl
@[simp] theorem Regs.setV_lg (r : Regs) (n : BitVec 5) (u : Vec) : (r.setV n u).lg = r.lg := rfl
@[simp] theorem Regs.setV_lv (r : Regs) (n : BitVec 5) (u : Vec) : (r.setV n u).lv = r.lv := rfl
@[simp] theorem Regs.setV_lm (r : Regs) (n : BitVec 5) (u : Vec) : (r.setV n u).lm = r.lm := rfl
@[simp] theorem Regs.setV_lk (r : Regs) (n : BitVec 5) (u : Vec) : (r.setV n u).lk = r.lk := rfl
@[simp] theorem Regs.setV_ly (r : Regs) (n : BitVec 5) (u : Vec) : (r.setV n u).ly = r.ly := rfl
@[simp] theorem Regs.setV_held (r : Regs) (n : BitVec 5) (u : Vec) : (r.setV n u).held = r.held := rfl
@[simp] theorem Regs.setV_sticky (r : Regs) (n : BitVec 5) (u : Vec) : (r.setV n u).sticky = r.sticky := rfl
@[simp] theorem Regs.setV_round (r : Regs) (n : BitVec 5) (u : Vec) : (r.setV n u).round = r.round := rfl
@[simp] theorem Regs.setV_mmode (r : Regs) (n : BitVec 5) (u : Vec) : (r.setV n u).mmode = r.mmode := rfl
@[simp] theorem Regs.setV_peerSel (r : Regs) (n : BitVec 5) (u : Vec) : (r.setV n u).peerSel = r.peerSel := rfl

@[simp] theorem Regs.setP_vpc (r : Regs) (n : BitVec 7) (u : Pred) : (r.setP n u).vpc = r.vpc := rfl
@[simp] theorem Regs.setP_lpc (r : Regs) (n : BitVec 7) (u : Pred) : (r.setP n u).lpc = r.lpc := rfl
@[simp] theorem Regs.setP_loops (r : Regs) (n : BitVec 7) (u : Pred) : (r.setP n u).loops = r.loops := rfl
@[simp] theorem Regs.setP_x (r : Regs) (n : BitVec 7) (u : Pred) : (r.setP n u).x = r.x := rfl
@[simp] theorem Regs.setP_v (r : Regs) (n : BitVec 7) (u : Pred) : (r.setP n u).v = r.v := rfl
@[simp] theorem Regs.setP_masks (r : Regs) (n : BitVec 7) (u : Pred) : (r.setP n u).masks = r.masks := rfl
@[simp] theorem Regs.setP_streams (r : Regs) (n : BitVec 7) (u : Pred) : (r.setP n u).streams = r.streams := rfl
@[simp] theorem Regs.setP_lx (r : Regs) (n : BitVec 7) (u : Pred) : (r.setP n u).lx = r.lx := rfl
@[simp] theorem Regs.setP_lg (r : Regs) (n : BitVec 7) (u : Pred) : (r.setP n u).lg = r.lg := rfl
@[simp] theorem Regs.setP_lv (r : Regs) (n : BitVec 7) (u : Pred) : (r.setP n u).lv = r.lv := rfl
@[simp] theorem Regs.setP_lm (r : Regs) (n : BitVec 7) (u : Pred) : (r.setP n u).lm = r.lm := rfl
@[simp] theorem Regs.setP_lk (r : Regs) (n : BitVec 7) (u : Pred) : (r.setP n u).lk = r.lk := rfl
@[simp] theorem Regs.setP_ly (r : Regs) (n : BitVec 7) (u : Pred) : (r.setP n u).ly = r.ly := rfl
@[simp] theorem Regs.setP_held (r : Regs) (n : BitVec 7) (u : Pred) : (r.setP n u).held = r.held := rfl
@[simp] theorem Regs.setP_sticky (r : Regs) (n : BitVec 7) (u : Pred) : (r.setP n u).sticky = r.sticky := rfl
@[simp] theorem Regs.setP_round (r : Regs) (n : BitVec 7) (u : Pred) : (r.setP n u).round = r.round := rfl
@[simp] theorem Regs.setP_mmode (r : Regs) (n : BitVec 7) (u : Pred) : (r.setP n u).mmode = r.mmode := rfl
@[simp] theorem Regs.setP_peerSel (r : Regs) (n : BitVec 7) (u : Pred) : (r.setP n u).peerSel = r.peerSel := rfl

@[simp] theorem Regs.setHeld_vpc (r : Regs) (e : Engine) (u : Vec) : (r.setHeld e u).vpc = r.vpc := rfl
@[simp] theorem Regs.setHeld_lpc (r : Regs) (e : Engine) (u : Vec) : (r.setHeld e u).lpc = r.lpc := rfl
@[simp] theorem Regs.setHeld_loops (r : Regs) (e : Engine) (u : Vec) : (r.setHeld e u).loops = r.loops := rfl
@[simp] theorem Regs.setHeld_x (r : Regs) (e : Engine) (u : Vec) : (r.setHeld e u).x = r.x := rfl
@[simp] theorem Regs.setHeld_v (r : Regs) (e : Engine) (u : Vec) : (r.setHeld e u).v = r.v := rfl
@[simp] theorem Regs.setHeld_p (r : Regs) (e : Engine) (u : Vec) : (r.setHeld e u).p = r.p := rfl
@[simp] theorem Regs.setHeld_masks (r : Regs) (e : Engine) (u : Vec) : (r.setHeld e u).masks = r.masks := rfl
@[simp] theorem Regs.setHeld_streams (r : Regs) (e : Engine) (u : Vec) : (r.setHeld e u).streams = r.streams := rfl
@[simp] theorem Regs.setHeld_lx (r : Regs) (e : Engine) (u : Vec) : (r.setHeld e u).lx = r.lx := rfl
@[simp] theorem Regs.setHeld_lg (r : Regs) (e : Engine) (u : Vec) : (r.setHeld e u).lg = r.lg := rfl
@[simp] theorem Regs.setHeld_lv (r : Regs) (e : Engine) (u : Vec) : (r.setHeld e u).lv = r.lv := rfl
@[simp] theorem Regs.setHeld_lm (r : Regs) (e : Engine) (u : Vec) : (r.setHeld e u).lm = r.lm := rfl
@[simp] theorem Regs.setHeld_lk (r : Regs) (e : Engine) (u : Vec) : (r.setHeld e u).lk = r.lk := rfl
@[simp] theorem Regs.setHeld_ly (r : Regs) (e : Engine) (u : Vec) : (r.setHeld e u).ly = r.ly := rfl
@[simp] theorem Regs.setHeld_sticky (r : Regs) (e : Engine) (u : Vec) : (r.setHeld e u).sticky = r.sticky := rfl
@[simp] theorem Regs.setHeld_round (r : Regs) (e : Engine) (u : Vec) : (r.setHeld e u).round = r.round := rfl
@[simp] theorem Regs.setHeld_mmode (r : Regs) (e : Engine) (u : Vec) : (r.setHeld e u).mmode = r.mmode := rfl
@[simp] theorem Regs.setHeld_peerSel (r : Regs) (e : Engine) (u : Vec) : (r.setHeld e u).peerSel = r.peerSel := rfl

@[simp] theorem Regs.shiftX_vpc (r : Regs) (u : Word) : (r.shiftX u).vpc = r.vpc := rfl
@[simp] theorem Regs.shiftX_lpc (r : Regs) (u : Word) : (r.shiftX u).lpc = r.lpc := rfl
@[simp] theorem Regs.shiftX_loops (r : Regs) (u : Word) : (r.shiftX u).loops = r.loops := rfl
@[simp] theorem Regs.shiftX_x (r : Regs) (u : Word) : (r.shiftX u).x = r.x := rfl
@[simp] theorem Regs.shiftX_v (r : Regs) (u : Word) : (r.shiftX u).v = r.v := rfl
@[simp] theorem Regs.shiftX_p (r : Regs) (u : Word) : (r.shiftX u).p = r.p := rfl
@[simp] theorem Regs.shiftX_masks (r : Regs) (u : Word) : (r.shiftX u).masks = r.masks := rfl
@[simp] theorem Regs.shiftX_streams (r : Regs) (u : Word) : (r.shiftX u).streams = r.streams := rfl
@[simp] theorem Regs.shiftX_lg (r : Regs) (u : Word) : (r.shiftX u).lg = r.lg := rfl
@[simp] theorem Regs.shiftX_lv (r : Regs) (u : Word) : (r.shiftX u).lv = r.lv := rfl
@[simp] theorem Regs.shiftX_lm (r : Regs) (u : Word) : (r.shiftX u).lm = r.lm := rfl
@[simp] theorem Regs.shiftX_lk (r : Regs) (u : Word) : (r.shiftX u).lk = r.lk := rfl
@[simp] theorem Regs.shiftX_ly (r : Regs) (u : Word) : (r.shiftX u).ly = r.ly := rfl
@[simp] theorem Regs.shiftX_held (r : Regs) (u : Word) : (r.shiftX u).held = r.held := rfl
@[simp] theorem Regs.shiftX_sticky (r : Regs) (u : Word) : (r.shiftX u).sticky = r.sticky := rfl
@[simp] theorem Regs.shiftX_round (r : Regs) (u : Word) : (r.shiftX u).round = r.round := rfl
@[simp] theorem Regs.shiftX_mmode (r : Regs) (u : Word) : (r.shiftX u).mmode = r.mmode := rfl
@[simp] theorem Regs.shiftX_peerSel (r : Regs) (u : Word) : (r.shiftX u).peerSel = r.peerSel := rfl

@[simp] theorem Regs.shiftG_vpc (r : Regs) (u : Word) : (r.shiftG u).vpc = r.vpc := rfl
@[simp] theorem Regs.shiftG_lpc (r : Regs) (u : Word) : (r.shiftG u).lpc = r.lpc := rfl
@[simp] theorem Regs.shiftG_loops (r : Regs) (u : Word) : (r.shiftG u).loops = r.loops := rfl
@[simp] theorem Regs.shiftG_x (r : Regs) (u : Word) : (r.shiftG u).x = r.x := rfl
@[simp] theorem Regs.shiftG_v (r : Regs) (u : Word) : (r.shiftG u).v = r.v := rfl
@[simp] theorem Regs.shiftG_p (r : Regs) (u : Word) : (r.shiftG u).p = r.p := rfl
@[simp] theorem Regs.shiftG_masks (r : Regs) (u : Word) : (r.shiftG u).masks = r.masks := rfl
@[simp] theorem Regs.shiftG_streams (r : Regs) (u : Word) : (r.shiftG u).streams = r.streams := rfl
@[simp] theorem Regs.shiftG_lx (r : Regs) (u : Word) : (r.shiftG u).lx = r.lx := rfl
@[simp] theorem Regs.shiftG_lv (r : Regs) (u : Word) : (r.shiftG u).lv = r.lv := rfl
@[simp] theorem Regs.shiftG_lm (r : Regs) (u : Word) : (r.shiftG u).lm = r.lm := rfl
@[simp] theorem Regs.shiftG_lk (r : Regs) (u : Word) : (r.shiftG u).lk = r.lk := rfl
@[simp] theorem Regs.shiftG_ly (r : Regs) (u : Word) : (r.shiftG u).ly = r.ly := rfl
@[simp] theorem Regs.shiftG_held (r : Regs) (u : Word) : (r.shiftG u).held = r.held := rfl
@[simp] theorem Regs.shiftG_sticky (r : Regs) (u : Word) : (r.shiftG u).sticky = r.sticky := rfl
@[simp] theorem Regs.shiftG_round (r : Regs) (u : Word) : (r.shiftG u).round = r.round := rfl
@[simp] theorem Regs.shiftG_mmode (r : Regs) (u : Word) : (r.shiftG u).mmode = r.mmode := rfl
@[simp] theorem Regs.shiftG_peerSel (r : Regs) (u : Word) : (r.shiftG u).peerSel = r.peerSel := rfl

@[simp] theorem Regs.shiftV_vpc (r : Regs) (u : Vec) : (r.shiftV u).vpc = r.vpc := rfl
@[simp] theorem Regs.shiftV_lpc (r : Regs) (u : Vec) : (r.shiftV u).lpc = r.lpc := rfl
@[simp] theorem Regs.shiftV_loops (r : Regs) (u : Vec) : (r.shiftV u).loops = r.loops := rfl
@[simp] theorem Regs.shiftV_x (r : Regs) (u : Vec) : (r.shiftV u).x = r.x := rfl
@[simp] theorem Regs.shiftV_v (r : Regs) (u : Vec) : (r.shiftV u).v = r.v := rfl
@[simp] theorem Regs.shiftV_p (r : Regs) (u : Vec) : (r.shiftV u).p = r.p := rfl
@[simp] theorem Regs.shiftV_masks (r : Regs) (u : Vec) : (r.shiftV u).masks = r.masks := rfl
@[simp] theorem Regs.shiftV_streams (r : Regs) (u : Vec) : (r.shiftV u).streams = r.streams := rfl
@[simp] theorem Regs.shiftV_lx (r : Regs) (u : Vec) : (r.shiftV u).lx = r.lx := rfl
@[simp] theorem Regs.shiftV_lg (r : Regs) (u : Vec) : (r.shiftV u).lg = r.lg := rfl
@[simp] theorem Regs.shiftV_lm (r : Regs) (u : Vec) : (r.shiftV u).lm = r.lm := rfl
@[simp] theorem Regs.shiftV_lk (r : Regs) (u : Vec) : (r.shiftV u).lk = r.lk := rfl
@[simp] theorem Regs.shiftV_ly (r : Regs) (u : Vec) : (r.shiftV u).ly = r.ly := rfl
@[simp] theorem Regs.shiftV_held (r : Regs) (u : Vec) : (r.shiftV u).held = r.held := rfl
@[simp] theorem Regs.shiftV_sticky (r : Regs) (u : Vec) : (r.shiftV u).sticky = r.sticky := rfl
@[simp] theorem Regs.shiftV_round (r : Regs) (u : Vec) : (r.shiftV u).round = r.round := rfl
@[simp] theorem Regs.shiftV_mmode (r : Regs) (u : Vec) : (r.shiftV u).mmode = r.mmode := rfl
@[simp] theorem Regs.shiftV_peerSel (r : Regs) (u : Vec) : (r.shiftV u).peerSel = r.peerSel := rfl

@[simp] theorem Regs.shiftM_vpc (r : Regs) (u : Vec) : (r.shiftM u).vpc = r.vpc := rfl
@[simp] theorem Regs.shiftM_lpc (r : Regs) (u : Vec) : (r.shiftM u).lpc = r.lpc := rfl
@[simp] theorem Regs.shiftM_loops (r : Regs) (u : Vec) : (r.shiftM u).loops = r.loops := rfl
@[simp] theorem Regs.shiftM_x (r : Regs) (u : Vec) : (r.shiftM u).x = r.x := rfl
@[simp] theorem Regs.shiftM_v (r : Regs) (u : Vec) : (r.shiftM u).v = r.v := rfl
@[simp] theorem Regs.shiftM_p (r : Regs) (u : Vec) : (r.shiftM u).p = r.p := rfl
@[simp] theorem Regs.shiftM_masks (r : Regs) (u : Vec) : (r.shiftM u).masks = r.masks := rfl
@[simp] theorem Regs.shiftM_streams (r : Regs) (u : Vec) : (r.shiftM u).streams = r.streams := rfl
@[simp] theorem Regs.shiftM_lx (r : Regs) (u : Vec) : (r.shiftM u).lx = r.lx := rfl
@[simp] theorem Regs.shiftM_lg (r : Regs) (u : Vec) : (r.shiftM u).lg = r.lg := rfl
@[simp] theorem Regs.shiftM_lv (r : Regs) (u : Vec) : (r.shiftM u).lv = r.lv := rfl
@[simp] theorem Regs.shiftM_lk (r : Regs) (u : Vec) : (r.shiftM u).lk = r.lk := rfl
@[simp] theorem Regs.shiftM_ly (r : Regs) (u : Vec) : (r.shiftM u).ly = r.ly := rfl
@[simp] theorem Regs.shiftM_held (r : Regs) (u : Vec) : (r.shiftM u).held = r.held := rfl
@[simp] theorem Regs.shiftM_sticky (r : Regs) (u : Vec) : (r.shiftM u).sticky = r.sticky := rfl
@[simp] theorem Regs.shiftM_round (r : Regs) (u : Vec) : (r.shiftM u).round = r.round := rfl
@[simp] theorem Regs.shiftM_mmode (r : Regs) (u : Vec) : (r.shiftM u).mmode = r.mmode := rfl
@[simp] theorem Regs.shiftM_peerSel (r : Regs) (u : Vec) : (r.shiftM u).peerSel = r.peerSel := rfl

@[simp] theorem Regs.raiseSticky_vpc (r : Regs) (e : Engine) (f : Flags) (a : BitVec 32) (b : BitVec 3) (c : Word) : (r.raiseSticky e f a b c).vpc = r.vpc := rfl
@[simp] theorem Regs.raiseSticky_lpc (r : Regs) (e : Engine) (f : Flags) (a : BitVec 32) (b : BitVec 3) (c : Word) : (r.raiseSticky e f a b c).lpc = r.lpc := rfl
@[simp] theorem Regs.raiseSticky_loops (r : Regs) (e : Engine) (f : Flags) (a : BitVec 32) (b : BitVec 3) (c : Word) : (r.raiseSticky e f a b c).loops = r.loops := rfl
@[simp] theorem Regs.raiseSticky_x (r : Regs) (e : Engine) (f : Flags) (a : BitVec 32) (b : BitVec 3) (c : Word) : (r.raiseSticky e f a b c).x = r.x := rfl
@[simp] theorem Regs.raiseSticky_v (r : Regs) (e : Engine) (f : Flags) (a : BitVec 32) (b : BitVec 3) (c : Word) : (r.raiseSticky e f a b c).v = r.v := rfl
@[simp] theorem Regs.raiseSticky_p (r : Regs) (e : Engine) (f : Flags) (a : BitVec 32) (b : BitVec 3) (c : Word) : (r.raiseSticky e f a b c).p = r.p := rfl
@[simp] theorem Regs.raiseSticky_masks (r : Regs) (e : Engine) (f : Flags) (a : BitVec 32) (b : BitVec 3) (c : Word) : (r.raiseSticky e f a b c).masks = r.masks := rfl
@[simp] theorem Regs.raiseSticky_streams (r : Regs) (e : Engine) (f : Flags) (a : BitVec 32) (b : BitVec 3) (c : Word) : (r.raiseSticky e f a b c).streams = r.streams := rfl
@[simp] theorem Regs.raiseSticky_lx (r : Regs) (e : Engine) (f : Flags) (a : BitVec 32) (b : BitVec 3) (c : Word) : (r.raiseSticky e f a b c).lx = r.lx := rfl
@[simp] theorem Regs.raiseSticky_lg (r : Regs) (e : Engine) (f : Flags) (a : BitVec 32) (b : BitVec 3) (c : Word) : (r.raiseSticky e f a b c).lg = r.lg := rfl
@[simp] theorem Regs.raiseSticky_lv (r : Regs) (e : Engine) (f : Flags) (a : BitVec 32) (b : BitVec 3) (c : Word) : (r.raiseSticky e f a b c).lv = r.lv := rfl
@[simp] theorem Regs.raiseSticky_lm (r : Regs) (e : Engine) (f : Flags) (a : BitVec 32) (b : BitVec 3) (c : Word) : (r.raiseSticky e f a b c).lm = r.lm := rfl
@[simp] theorem Regs.raiseSticky_lk (r : Regs) (e : Engine) (f : Flags) (a : BitVec 32) (b : BitVec 3) (c : Word) : (r.raiseSticky e f a b c).lk = r.lk := rfl
@[simp] theorem Regs.raiseSticky_ly (r : Regs) (e : Engine) (f : Flags) (a : BitVec 32) (b : BitVec 3) (c : Word) : (r.raiseSticky e f a b c).ly = r.ly := rfl
@[simp] theorem Regs.raiseSticky_held (r : Regs) (e : Engine) (f : Flags) (a : BitVec 32) (b : BitVec 3) (c : Word) : (r.raiseSticky e f a b c).held = r.held := rfl
@[simp] theorem Regs.raiseSticky_round (r : Regs) (e : Engine) (f : Flags) (a : BitVec 32) (b : BitVec 3) (c : Word) : (r.raiseSticky e f a b c).round = r.round := rfl
@[simp] theorem Regs.raiseSticky_mmode (r : Regs) (e : Engine) (f : Flags) (a : BitVec 32) (b : BitVec 3) (c : Word) : (r.raiseSticky e f a b c).mmode = r.mmode := rfl
@[simp] theorem Regs.raiseSticky_peerSel (r : Regs) (e : Engine) (f : Flags) (a : BitVec 32) (b : BitVec 3) (c : Word) : (r.raiseSticky e f a b c).peerSel = r.peerSel := rfl

@[simp] theorem Regs.latch_vpc (r : Regs) (e : Engine) (u : Vec) : (r.latch e u).vpc = r.vpc := by cases e <;> rfl
@[simp] theorem Regs.latch_lpc (r : Regs) (e : Engine) (u : Vec) : (r.latch e u).lpc = r.lpc := by cases e <;> rfl
@[simp] theorem Regs.latch_loops (r : Regs) (e : Engine) (u : Vec) : (r.latch e u).loops = r.loops := by cases e <;> rfl
@[simp] theorem Regs.latch_x (r : Regs) (e : Engine) (u : Vec) : (r.latch e u).x = r.x := by cases e <;> rfl
@[simp] theorem Regs.latch_v (r : Regs) (e : Engine) (u : Vec) : (r.latch e u).v = r.v := by cases e <;> rfl
@[simp] theorem Regs.latch_p (r : Regs) (e : Engine) (u : Vec) : (r.latch e u).p = r.p := by cases e <;> rfl
@[simp] theorem Regs.latch_masks (r : Regs) (e : Engine) (u : Vec) : (r.latch e u).masks = r.masks := by cases e <;> rfl
@[simp] theorem Regs.latch_streams (r : Regs) (e : Engine) (u : Vec) : (r.latch e u).streams = r.streams := by cases e <;> rfl
@[simp] theorem Regs.latch_held (r : Regs) (e : Engine) (u : Vec) : (r.latch e u).held = r.held := by cases e <;> rfl
@[simp] theorem Regs.latch_sticky (r : Regs) (e : Engine) (u : Vec) : (r.latch e u).sticky = r.sticky := by cases e <;> rfl
@[simp] theorem Regs.latch_round (r : Regs) (e : Engine) (u : Vec) : (r.latch e u).round = r.round := by cases e <;> rfl
@[simp] theorem Regs.latch_mmode (r : Regs) (e : Engine) (u : Vec) : (r.latch e u).mmode = r.mmode := by cases e <;> rfl
@[simp] theorem Regs.latch_peerSel (r : Regs) (e : Engine) (u : Vec) : (r.latch e u).peerSel = r.peerSel := by cases e <;> rfl

/-- Every x register after a write: x0 stays, as writes to it are discarded (R11). -/
theorem Regs.getX_setX (r : Regs) (n m : BitVec 5) (u : Word) :
    (r.setX n u).getX m = if m = n ∧ n ≠ 0 then u else r.getX m := by
  unfold Regs.setX Regs.getX
  by_cases hn : n = 0
  · simp [hn]
  · simp only [hn, if_false]
    by_cases hm : m = 0
    · subst hm
      have h0 : ¬ (0 : BitVec 5) = n := fun e => hn e.symm
      simp only [if_true, h0, false_and, if_false]
    · simp only [hm, if_false]
      by_cases he : m = n
      · subst he
        simp only [true_and, hm, not_false_eq_true, ne_eq, if_true]
        exact Vector.getElem_set_self _
      · have : m.toNat ≠ n.toNat := fun e => he (BitVec.eq_of_toNat_eq e)
        simp [he, Ne.symm this]

theorem Regs.getV_setV (r : Regs) (n m : BitVec 5) (u : Vec) : (r.setV n u).getV m = if m = n then u else r.getV m := by
  unfold Regs.setV Regs.getV
  by_cases he : m = n
  · subst he
    simp
  · have : m.toNat ≠ n.toNat := fun e => he (BitVec.eq_of_toNat_eq e)
    simp [he, Ne.symm this]

theorem Regs.getP_setP (r : Regs) (n m : BitVec 7) (u : Pred) : (r.setP n u).getP m = if m = n then u else r.getP m := by
  unfold Regs.setP Regs.getP
  by_cases he : m = n
  · subst he
    simp
  · have : m.toNat ≠ n.toNat := fun e => he (BitVec.eq_of_toNat_eq e)
    simp [he, Ne.symm this]

/-! ### A result's commit -/

@[simp] theorem Seq.raiseFlags_before (q : Seq) (e : Engine) (f : Flags) (a : BitVec 32) (b : Nat) : (q.raiseFlags e f a b).before = q.before := by
  unfold Seq.raiseFlags; split <;> rfl
@[simp] theorem Seq.commit_before (q : Seq) (o : Operands) (r : Result) : (q.commit o r).before = q.before := by
  unfold Seq.commit; simp
@[simp] theorem Seq.raiseFlags_phase (q : Seq) (e : Engine) (f : Flags) (a : BitVec 32) (b : Nat) : (q.raiseFlags e f a b).phase = q.phase := by
  unfold Seq.raiseFlags; split <;> rfl
@[simp] theorem Seq.commit_phase (q : Seq) (o : Operands) (r : Result) : (q.commit o r).phase = q.phase := by
  unfold Seq.commit; simp
@[simp] theorem Seq.raiseFlags_task (q : Seq) (e : Engine) (f : Flags) (a : BitVec 32) (b : Nat) : (q.raiseFlags e f a b).task = q.task := by
  unfold Seq.raiseFlags; split <;> rfl
@[simp] theorem Seq.commit_task (q : Seq) (o : Operands) (r : Result) : (q.commit o r).task = q.task := by
  unfold Seq.commit; simp
@[simp] theorem Seq.raiseFlags_code (q : Seq) (e : Engine) (f : Flags) (a : BitVec 32) (b : Nat) : (q.raiseFlags e f a b).code = q.code := by
  unfold Seq.raiseFlags; split <;> rfl
@[simp] theorem Seq.commit_code (q : Seq) (o : Operands) (r : Result) : (q.commit o r).code = q.code := by
  unfold Seq.commit; simp
@[simp] theorem Seq.raiseFlags_wait (q : Seq) (e : Engine) (f : Flags) (a : BitVec 32) (b : Nat) : (q.raiseFlags e f a b).wait = q.wait := by
  unfold Seq.raiseFlags; split <;> rfl
@[simp] theorem Seq.commit_wait (q : Seq) (o : Operands) (r : Result) : (q.commit o r).wait = q.wait := by
  unfold Seq.commit; simp
@[simp] theorem Seq.raiseFlags_monitor (q : Seq) (e : Engine) (f : Flags) (a : BitVec 32) (b : Nat) : (q.raiseFlags e f a b).monitor = q.monitor := by
  unfold Seq.raiseFlags; split <;> rfl
@[simp] theorem Seq.commit_monitor (q : Seq) (o : Operands) (r : Result) : (q.commit o r).monitor = q.monitor := by
  unfold Seq.commit; simp
@[simp] theorem Seq.raiseFlags_channels (q : Seq) (e : Engine) (f : Flags) (a : BitVec 32) (b : Nat) : (q.raiseFlags e f a b).channels = q.channels := by
  unfold Seq.raiseFlags; split <;> rfl
@[simp] theorem Seq.commit_channels (q : Seq) (o : Operands) (r : Result) : (q.commit o r).channels = q.channels := by
  unfold Seq.commit; simp
@[simp] theorem Seq.raiseFlags_time (q : Seq) (e : Engine) (f : Flags) (a : BitVec 32) (b : Nat) : (q.raiseFlags e f a b).time = q.time := by
  unfold Seq.raiseFlags; split <;> rfl
@[simp] theorem Seq.commit_time (q : Seq) (o : Operands) (r : Result) : (q.commit o r).time = q.time := by
  unfold Seq.commit; simp
@[simp] theorem Seq.raiseFlags_seen (q : Seq) (e : Engine) (f : Flags) (a : BitVec 32) (b : Nat) : (q.raiseFlags e f a b).seen = q.seen := by
  unfold Seq.raiseFlags; split <;> rfl
@[simp] theorem Seq.commit_seen (q : Seq) (o : Operands) (r : Result) : (q.commit o r).seen = q.seen := by
  unfold Seq.commit; simp

end Sys2Proof.Machine
end

