-- ==== Sys2Proof/Tests/Slice0.lean ====
section
/-! SUPPORT. Tests of the model: words of the spec decoded, terms that well-formedness and sealing refuse, and for every statement
with hypotheses a state and operands that meet them. Every expected value is the spec's own, or worked out by hand from its
rules. -/

namespace Sys2Proof.Tests

open Sys2Proof.Machine Sys2Proof.Statements

set_option maxRecDepth 20000
set_option Elab.async false

/-! ### How a witness is given -/

/-- The form of a slot word where it stands. -/
def formOf (op : BitVec 7) (w : Slot) (s : State) : Form :=
  (form op w s.curLit.isSome).getD { engine := .x, d := .unused, a := .unused, b := .unused }

/-- The state once the bundle of the sequencer in focus is open. -/
def opened (s : State) : State := s.openBundle s.focus

/-- The operands of a slot that reads no stream port. -/
def opsOf (op : BitVec 7) (w : Slot) (s : State) : Operands :=
  let fm := formOf op w s
  let q := (opened s).seq s.focus
  { who := s.focus, form := fm, slot := w, lit := s.curLit, scope := q.bundle.scope, regs := q.before,
    a := captureOperand fm.engine q.before fm.a w.a, b := captureOperand fm.engine q.before fm.b w.b,
    third := readThird q.before fm.third w.d, vpc := q.before.vpc, issued := q.bundle.issued, pos := q.bundle.pos, replay := false,
    ports := q.before }

/-- Does a slot stand to be performed, with no stream port among its operands? -/
def stands (mk : Slot → Instr) (op : BitVec 7) (w : Slot) (s : State) : Bool :=
  (mk w).rowOk s.curLit.isSome && s.cur.bundle.replay.isNone && s.cur.bundle.trap.isNone && !s.cur.bundle.guardedFalse &&
    (slotChecks op w s.curLit).isEmpty && (imageKindChecks (s.cur.phase = .service) op w).isEmpty &&
    (form op w s.curLit.isSome).isSome && !readsPort (formOf op w s) w

theorem readOperand_capture (who : SeqId) (sc : Scope) (e : Engine) (r : Regs) (k : Kind) (code : BitVec 6) (t : State)
    (h : ((k = .scalar || k = .vector) && isPort code) = false) :
    (readOperand who sc e r k code).on t = (.ok (captureOperand e r k code), t) := by
  cases k <;> cases hp : isPort code <;> simp_all [readOperand, captureOperand, readScalar, readVector, M.on_pure]

theorem reads_of {op : BitVec 7} {w : Slot} {s : State} (h8 : readsPort (formOf op w s) w = false) :
    Reads w (formOf op w s) s (opsOf op w s) (opened s) := by
  simp only [readsPort, Bool.or_eq_false_iff] at h8
  unfold Reads readOperands
  simp only [M.on_bind, M.on_getSeq]
  have ha := readOperand_capture s.focus ((opened s).seq s.focus).bundle.scope (formOf op w s).engine
    ((opened s).seq s.focus).before (formOf op w s).a w.a (opened s) h8.1
  have hb := readOperand_capture s.focus ((opened s).seq s.focus).bundle.scope (formOf op w s).engine
    ((opened s).seq s.focus).before (formOf op w s).b w.b (opened s) h8.2
  by_cases hl : ((formOf op w s).late && isPort w.a) = true
  · have h0 : captureOperand (formOf op w s).engine ((opened s).seq s.focus).before (formOf op w s).a w.a = 0 := by
      simp only [Bool.and_eq_true] at hl
      simp [captureOperand, hl.2]
    unfold opened at hb h0
    simp only [if_pos hl, M.on_bind, M.on_pure, hb, opsOf, opened, h0]
  · unfold opened at ha hb
    simp only [if_neg hl, M.on_bind, M.on_pure, ha, hb, opsOf, opened]

theorem stands_spec {mk : Slot → Instr} {op : BitVec 7} {w : Slot} {s : State} (h : stands mk op w s = true) :
    Fits mk w s ∧ Performs op w (formOf op w s) s ∧ Reads w (formOf op w s) s (opsOf op w s) (opened s) := by
  simp only [stands, Bool.and_eq_true, Option.isNone_iff_eq_none, Bool.not_eq_true', List.isEmpty_iff] at h
  obtain ⟨⟨⟨⟨⟨⟨⟨h1, h2⟩, h3⟩, h4⟩, h5⟩, h6⟩, h7⟩, h8⟩ := h
  obtain ⟨fm, hf⟩ := Option.isSome_iff_exists.1 h7
  exact ⟨h1, ⟨h2, h3, h4, h5, h6, by simp [formOf, hf]⟩, reads_of h8⟩

/-- A state and a word meet what Yields asks. -/
def Stood (mk : Slot → Instr) (op : BitVec 7) : Prop :=
  ∃ (s : State) (w : Slot) (fm : Form) (o : Operands) (s' : State), Fits mk w s ∧ Performs op w fm s ∧ Reads w fm s o s'
/-- A state and a word meet what CompletesWith asks. -/
def StoodWith (mk : Slot → Instr) (op : BitVec 7) (pre : Slot → Operands → State → Prop) : Prop :=
  ∃ (s : State) (w : Slot) (fm : Form) (o : Operands) (s' : State), Fits mk w s ∧ Performs op w fm s ∧ Reads w fm s o s' ∧ pre w o s'
/-- They meet what Completes asks. -/
def Met (mk : Slot → Instr) (op : BitVec 7) (effect : Slot → Operands → State → State → Result → Prop) : Prop :=
  ∃ (s : State) (w : Slot) (fm : Form) (o : Operands) (s' s2 : State) (r : Result), Fits mk w s ∧ Performs op w fm s ∧
    Reads w fm s o s' ∧ effect w o s' s2 r
/-- They meet what Traps asks. -/
def MetTrap (mk : Slot → Instr) (op : BitVec 7)
    (when_ : Slot → Operands → State → State → Nat → Word → BitVec 16 → Prop) : Prop :=
  ∃ (s : State) (w : Slot) (fm : Form) (o : Operands) (s' s2 : State) (code : Nat) (addr : Word) (detail : BitVec 16), Fits mk w s ∧
    Performs op w fm s ∧ Reads w fm s o s' ∧ when_ w o s' s2 code addr detail ∧ (s2.seq s.focus).bundle.replay = none
/-- They meet what Waits asks. -/
def MetWait (mk : Slot → Instr) (op : BitVec 7) (when_ : Slot → Operands → State → State → WaitKind → Word → Prop) : Prop :=
  ∃ (s : State) (w : Slot) (fm : Form) (o : Operands) (s' s2 : State) (k : WaitKind) (addr : Word), Fits mk w s ∧
    Performs op w fm s ∧ Reads w fm s o s' ∧ when_ w o s' s2 k addr

variable {mk : Slot → Instr} {op : BitVec 7}

theorem stood (s : State) (w : Slot) (h : stands mk op w s = true) : Stood mk op :=
  ⟨s, w, _, _, _, (stands_spec h).1, (stands_spec h).2.1, (stands_spec h).2.2⟩
theorem stoodWith {pre : Slot → Operands → State → Prop} (s : State) (w : Slot) (h : stands mk op w s = true)
    (hp : pre w (opsOf op w s) (opened s)) : StoodWith mk op pre :=
  ⟨s, w, _, _, _, (stands_spec h).1, (stands_spec h).2.1, (stands_spec h).2.2, hp⟩
theorem met {effect : Slot → Operands → State → State → Result → Prop} (s : State) (w : Slot) (h : stands mk op w s = true)
    (he : ∃ s2 r, effect w (opsOf op w s) (opened s) s2 r) : Met mk op effect :=
  he.elim fun _ he => he.elim fun _ he =>
    ⟨s, w, _, _, _, _, _, (stands_spec h).1, (stands_spec h).2.1, (stands_spec h).2.2, he⟩
theorem metTrap {when_ : Slot → Operands → State → State → Nat → Word → BitVec 16 → Prop} (s : State) (w : Slot)
    (h : stands mk op w s = true) (s2 : State) (code : Nat) (addr : Word) (detail : BitVec 16)
    (he : when_ w (opsOf op w s) (opened s) s2 code addr detail) (hr : (s2.seq s.focus).bundle.replay = none) :
    MetTrap mk op when_ :=
  ⟨s, w, _, _, _, _, _, _, _, (stands_spec h).1, (stands_spec h).2.1, (stands_spec h).2.2, he, hr⟩
theorem metWait {when_ : Slot → Operands → State → State → WaitKind → Word → Prop} (s : State) (w : Slot)
    (h : stands mk op w s = true) (he : ∃ s2 k addr, when_ w (opsOf op w s) (opened s) s2 k addr) : MetWait mk op when_ :=
  he.elim fun _ he => he.elim fun _ he => he.elim fun _ he =>
    ⟨s, w, _, _, _, _, _, _, (stands_spec h).1, (stands_spec h).2.1, (stands_spec h).2.2, he⟩

/-- A computation that ends, ends with a value and a state of which a test holds. -/
def ends {α : Type} (m : M α) (s : State) (p : α → State → Bool) : Bool :=
  match m.on s with
  | (.ok a, t) => p a t
  | (.error _, _) => false
theorem ended {α : Type} {m : M α} {s : State} (p : α → State → Bool) (h : ends m s p = true) :
    ∃ a t, m.on s = (.ok a, t) ∧ p a t = true := by
  unfold ends at h
  rcases hm : m.on s with ⟨_ | a, t⟩
  · rw [hm] at h; simp at h
  · rw [hm] at h; exact ⟨a, t, rfl, h⟩

/-- Does a word decode to an instruction? Does the decoder refuse it with a check code? -/
def reads (lit : Option (BitVec 24)) (w : BitVec 32) (i : Instr) : Bool :=
  match decode lit w with
  | .ok j => decide (j = i)
  | .error _ => false
def refuses (lit : Option (BitVec 24)) (w : BitVec 32) (n : Nat) : Bool :=
  match decode lit w with
  | .ok _ => false
  | .error (.checkCode m) => m == n

/-! ### The states of the witnesses -/

/-- The part after reset, with a running task on core 0 whose code body is one NOP. -/
def base : State := State.reset.withFetchWord 32 0x80000000
/-- The registers of the sequencer in focus changed, as the preceding bundles left them. -/
def regs (f : Regs → Regs) (s : State) : State :=
  s.setSeq s.focus { s.cur with now := f s.cur.now, before := f s.cur.before }
def xs (l : List (BitVec 5 × Word)) (s : State) : State := regs (fun r => l.foldl (fun r e => r.setX e.1 e.2) r) s
/-- A literal before the next slot. -/
def afterLit (l : BitVec 24) (s : State) : State := s.setSeq s.focus { s.cur with bundle := { s.cur.bundle with lit := some l } }
/-- A mask stack whose top is bits 0 to 15. -/
def masked (s : State) : State := regs (fun r => { r with masks := [0xFFFF] }) s
/-- A state of which the sequencer in focus runs a trap service image. -/
def serving (s : State) : State := s.setSeq s.focus { s.cur with phase := .service }

/-! ### Witnesses: the X engine -/

/-- x1 = 5, x2 = −7. -/
def two : State := xs [(1, 5), (2, -7)] base

/-- R61: the premises of the lone NOP hold of the state after reset with a word placed. -/
theorem witness_lone_nop : base.cur.bundle.pos = 0 ∧ base.cur.bundle.replay = none ∧ base.cur.bundle.trap = none ∧
    base.cur.bundle.ending = none ∧ base.cur.bundle.target = none ∧ base.cur.bundle.boundary = false ∧
    base.cur.now = base.cur.before := by decide +kernel

/-- add x3, x1, x2 and its fellows of the same fields; shf and mnx with the kinds that their row admits. -/
theorem witness_arithmetic : Stood .add 0x08 ∧ Stood .sub 0x09 ∧ Stood .and 0x0A ∧ Stood .or 0x0B ∧ Stood .xor 0x0C ∧ Stood .shf 0x0D ∧
    Stood .mul 0x0E ∧ Stood .div 0x0F ∧ Stood .mnx 0x10 := by
  refine ⟨?_, ?_, ?_, ?_, ?_, ?_, ?_, ?_, ?_⟩ <;>
    exact stood two ⟨false, false, false, 3, 1, 2, 0⟩ (by decide +kernel)

/-- cmp.lt p3, x1, x2 and sel x3, x1, x2, p31. -/
theorem witness_compare_select : Stood .cmp 0x11 ∧ Stood .sel 0x14 :=
  ⟨stood two ⟨false, false, false, 3, 1, 2, 2⟩ (by decide +kernel), stood two ⟨false, false, false, 3, 1, 2, 31⟩ (by decide +kernel)⟩

theorem witness_moves : Stood .movi 0x12 ∧ Stood .moviTop 0x12 ∧ Stood .moviUpper 0x12 ∧ Stood .movx 0x13 ∧ Stood .movxSignExtend 0x13 ∧
    Stood .movxZeroExtend 0x13 ∧ Stood .movxSif 0x13 ∧ Stood .movxUif 0x13 ∧ Stood .movxFsi 0x13 ∧ Stood .movxFui 0x13 ∧
    Stood .movxVlane 0x13 ∧ Stood .movxIdx 0x13 ∧ Stood .movxCnt 0x13 :=
  ⟨stood two ⟨false, false, false, 3, 0x1F, 0x3F, 31⟩ (by decide +kernel), stood two ⟨false, false, false, 3, 0x20, 0, 0⟩ (by decide +kernel),
   stood (afterLit 0xFFFFFF two) ⟨false, false, false, 3, 0x20, 0, 0⟩ (by decide +kernel),
   stood two ⟨false, false, false, 3, 1, 0, 0⟩ (by decide +kernel), stood two ⟨false, false, false, 3, 1, 0, 3⟩ (by decide +kernel),
   stood two ⟨false, false, false, 3, 1, 0, 6⟩ (by decide +kernel), stood two ⟨false, false, false, 3, 2, 0, 8⟩ (by decide +kernel),
   stood two ⟨false, false, false, 3, 2, 0, 9⟩ (by decide +kernel), stood two ⟨false, false, false, 3, 2, 0, 10⟩ (by decide +kernel),
   stood two ⟨false, false, false, 3, 2, 0, 11⟩ (by decide +kernel), stood two ⟨false, false, false, 3, 1, 1, 16⟩ (by decide +kernel),
   stood two ⟨false, false, false, 3, 0, 6, 17⟩ (by decide +kernel), stood two ⟨false, false, false, 3, 0, 6, 18⟩ (by decide +kernel)⟩

theorem witness_branches : Met .br 0x15 (Transfers testBit shortOffset) ∧ Met .brNot 0x15 (Transfers (fun o => !testBit o) shortOffset) ∧
    Met .jmp 0x16 (Transfers (fun _ => true) jumpOffset) ∧ Met .bru 0x17 (Transfers maskTest shortOffset) :=
  ⟨met two ⟨false, false, false, 0, 63, 2, 3⟩ (by decide +kernel) ⟨_, _, And.intro rfl rfl⟩,
   met two ⟨false, false, false, 0, 63, 2, 19⟩ (by decide +kernel) ⟨_, _, And.intro rfl rfl⟩,
   met two ⟨false, false, false, 0, 63, 63, 31⟩ (by decide +kernel) ⟨_, _, And.intro rfl rfl⟩,
   met two ⟨false, false, false, 0, 0, 63, 31⟩ (by decide +kernel) ⟨_, _, And.intro rfl rfl⟩⟩

/-- A loop of one NOP: the bundle of the LOOP, the bundle of its NEXT. -/
def looping (w : BitVec 32) : State :=
  let v : Variant := { code := [w, 0x80000000, 0x99000000], lits := [0xFFFFFFFF] }
  two.setDie 0 { two.die 0 with images := tabPut 0 { (tabGet ({} : ImageSlot) 0 (two.die 0).images) with
    image := some { kernels := [{ team := 1, long := false, variant := v }] } } (two.die 0).images }
/-- One loop entry of two iterations, at its first. -/
def inLoop : State := regs (fun r => { r with loops := [{ endV := 8, start := 4, count := 2, index := 0 }] }) two

theorem witness_loops : Met .loop 0x18 (LoopIssues fun _ o => o.xa.toInt) ∧
    Met .loopN 0x18 (LoopIssues fun w o => (((o.lit.getD 0) ++ w.b).toNat : Int)) ∧ Met .next 0x19 NextIssues :=
  ⟨met (looping 0x98020000) ⟨true, false, false, 0, 2, 0, 0⟩ (by decide +kernel)
     ⟨_, _, Exists.intro 2 (And.intro (by decide +kernel) (And.intro rfl rfl))⟩,
   met (looping 0x980000B0) ⟨true, false, false, 0, 0, 5, 16⟩ (by decide +kernel)
     ⟨_, _, Exists.intro 2 (And.intro (by decide +kernel) (And.intro rfl rfl))⟩,
   met inLoop ⟨true, false, false, 0, 0, 0, 0⟩ (by decide +kernel) ⟨_, _, And.intro rfl (Exists.intro _ (And.intro rfl rfl))⟩⟩

theorem witness_service_halt : Met .svcCall 0x1A (Stands 0x1A fun w _ => .call ((w.a ++ w.b).setWidth 16)) ∧
    Met .svcTrap 0x1A (Stands 0x1A fun w _ => .trap ((w.a ++ w.b).setWidth 16)) ∧
    Met .svcTret 0x1A (Stands 0x1A fun _ _ => .tret) ∧ Met .halt 0x1B (Stands 0x1B fun _ _ => .halt none) ∧
    Met .haltFail 0x1B (Stands 0x1B fun _ o => .halt (some (failureOf 0x042 (o.xa.setWidth 16) o.regs))) :=
  ⟨met two ⟨true, false, false, 0, 63, 63, 0⟩ (by decide +kernel) ⟨_, _, And.intro (by decide +kernel) (And.intro rfl rfl)⟩,
   met two ⟨true, false, false, 0, 0, 0, 1⟩ (by decide +kernel) ⟨_, _, And.intro (by decide +kernel) (And.intro rfl rfl)⟩,
   met (serving two) ⟨true, false, false, 0, 0, 0, 2⟩ (by decide +kernel) ⟨_, _, And.intro (by decide +kernel) (And.intro rfl rfl)⟩,
   met two ⟨true, false, false, 0, 0, 0, 0⟩ (by decide +kernel) ⟨_, _, And.intro (by decide +kernel) (And.intro rfl rfl)⟩,
   met two ⟨true, false, false, 0, 1, 0, 1⟩ (by decide +kernel) ⟨_, _, And.intro (by decide +kernel) (And.intro rfl rfl)⟩⟩

/-- csrr x3 of register 1, csrw of sr.round: the numbers are B × 32 + F. -/
theorem witness_system : Met .csrr 0x1C ReadsSystem ∧ Met .csrw 0x1D WritesSystem :=
  ⟨met two ⟨true, false, false, 3, 0, 0, 1⟩ (by decide +kernel)
     ⟨_, _, And.intro rfl (Exists.intro _ (And.intro (by decide +kernel : sysContent _ _ 1 = some 0) rfl))⟩,
   met two ⟨true, false, false, 0, 1, 0, 8⟩ (by decide +kernel) ⟨_, _, And.intro rfl rfl⟩⟩

/-! ### Witnesses: the G engine -/

theorem same {m : M Unit} {s : State} (hq : Quiet m) (h : ends m s (fun _ _ => true) = true) : m.on s = (.ok (), s) := by
  obtain ⟨a, t, h1, _⟩ := ended _ h
  have h2 := hq s
  rw [h1] at h2 ⊢
  rw [show t = s from h2]
theorem some_given {α : Type} {m : M α} {s : State} (hq : Quiet m) (p : α → Bool) (h : ends m s (fun x _ => p x) = true) :
    ∃ x, m.on s = (.ok x, s) ∧ p x = true := by
  obtain ⟨x, t, h1, h3⟩ := ended _ h
  have h2 := hq s
  rw [h1] at h2
  exact ⟨x, by rw [h1, show t = s from h2], h3⟩
theorem gives {α : Type} [DecidableEq α] {m : M α} {s : State} (hq : Quiet m) (a : α) (h : ends m s (fun x _ => decide (x = a)) = true) :
    m.on s = (.ok a, s) := by
  obtain ⟨x, h1, h2⟩ := some_given hq _ h
  rw [h1, of_decide_eq_true h2]

/-- Bytes by their place, one 8-byte word at a time. -/
def words (l : List (Nat × Word)) (m : Memory) : Memory := l.foldl (fun m e => writeBytes e.1 (wordBytes e.2) m) m

/-- Die 0's first GiB mapped to itself for reads and writes (R349, R350): a root table at PA 0x4000, a leaf in the table below. -/
def mapped : State :=
  let s := { base with dram := words [(0x4000, mkPointer 0x8000), (0x8000, mkLeaf true true true false false false 0)] [],
                       nets := { base.nets with written := true } }
  s.setDie 0 { s.die 0 with root := 0x4000 }

/-- The queue control word of the tests at A-space address 0x100 (R118): ring at 0x200, ESZ 3, LGN 1. -/
def queueWord (head tail : Nat) : List Byte := leBytes 4 head ++ leBytes 4 tail ++ wordBytes 0x898000200

/-- Window 0 of core 0 attached to bin 0, with a queue that holds `tail` elements. -/
def windowed (tail : Nat) : State :=
  let s := mapped.setCore 0 { mapped.core 0 with windows := (mapped.core 0).windows.set 0 { att := true, bin := 0 } }
  s.setCluster 0 { s.cluster 0 with
    bins := (s.cluster 0).bins.set 0 { state := .owned 0 0 }, mem := writeBytes 0x100 (queueWord 0 tail) [] }
/-- x1 = 0x100, x2 = 0x20000, x3 = −1. -/
def g (tail : Nat) : State := xs [(1, 0x100), (2, 0x20000), (3, -1)] (windowed tail)

theorem witness_streams : Met .strm 0x20 SetsWhole ∧ Met .strx 0x21 SetsDimension ∧ Met .strxOff 0x21 ClearsDimension ∧
    MetTrap .strx 0x21 (fun _ o s' s2 code addr detail => ¬strideFits o ∧ s2 = s' ∧ code = 0x089 ∧ addr = 0 ∧ detail = 0) :=
  ⟨met (g 0) ⟨true, false, false, 15, 2, 0, 0⟩ (by decide +kernel) ⟨_, _, And.intro rfl rfl⟩,
   met (xs [(1, 0x7FFFFFFF), (2, 0xFFFFFF)] base) ⟨true, false, false, 15, 1, 2, 8⟩ (by decide +kernel)
     ⟨_, _, And.intro (by unfold strideFits; decide +kernel) (And.intro rfl rfl)⟩,
   met (g 0) ⟨true, false, false, 15, 0, 0, 15⟩ (by decide +kernel) ⟨_, _, And.intro rfl rfl⟩,
   metTrap (xs [(1, 0), (2, 0x1000000)] base) ⟨true, false, false, 15, 1, 2, 8⟩ (by decide +kernel) _ _ _ _
     ⟨by unfold strideFits; decide +kernel, rfl, rfl, rfl, rfl⟩ (by decide +kernel)⟩

theorem loads_of {w : Slot} {o : Operands} {s' : State}
    (h : (let n := scalarBytes w
          let a := (effective o o.xa (loadDisp w o n)).toNat
          let p := fun (l : List Byte) (_ : State) => l.length == n
          if w.f.extractLsb' 3 2 = 0 then ends (readGlobal (.seq o.who) o.scope (cacheHint o) a n) s' p
          else ends (aRead o.who.core a n) s' p) = true) : ∃ s2 r, Loads w o s' s2 r := by
  by_cases hw : w.f.extractLsb' 3 2 = 0
  · simp only [if_pos hw] at h
    obtain ⟨l, t, h1, h2⟩ := ended _ h
    exact ⟨t, _, l, by simpa using h2, by unfold ReadsBytes; rw [if_pos hw]; exact h1, rfl⟩
  · simp only [if_neg hw] at h
    obtain ⟨l, t, h1, h2⟩ := ended _ h
    exact ⟨t, _, l, by simpa using h2, by unfold ReadsBytes; rw [if_neg hw]; exact h1, rfl⟩

theorem stores_of {w : Slot} {o : Operands} {s' : State}
    (h : (let a := (effective o o.xb (storeDisp o)).toNat
          let l := leBytes (scalarBytes w) o.xa.toNat
          if w.f.extractLsb' 3 2 = 0 then ends (writeGlobal (.seq o.who) o.scope (cacheHint o) a l) s' (fun _ _ => true)
          else ends (aWrite o.who.core a l) s' (fun _ _ => true)) = true) : ∃ s2 r, Stores w o s' s2 r := by
  by_cases hw : w.f.extractLsb' 3 2 = 0
  · simp only [if_pos hw] at h
    obtain ⟨l, t, h1, _⟩ := ended _ h
    exact ⟨t, _, by unfold WritesBytes; rw [if_pos hw]; exact h1, rfl⟩
  · simp only [if_neg hw] at h
    obtain ⟨l, t, h1, _⟩ := ended _ h
    exact ⟨t, _, by unfold WritesBytes; rw [if_neg hw]; exact h1, rfl⟩

/-- ld x4, [x1], 8 bytes at the last aligned place before an offset; from A space, the last 8 bytes of the window; st likewise;
vectors from both spaces. -/
theorem witness_scalar_accesses : Met .ld 0x22 Loads ∧ Met .ld 0x22 Loads ∧ Met .st 0x23 Stores ∧ Met .st 0x23 Stores :=
  ⟨met (g 0) ⟨true, false, false, 4, 2, 63, 6⟩ (by decide +kernel) (loads_of (by decide +kernel)),
   met (xs [(1, 0x1FFF8)] (g 0)) ⟨true, false, false, 4, 1, 0, 14⟩ (by decide +kernel) (loads_of (by decide +kernel)),
   met (g 0) ⟨true, false, false, 0, 3, 2, 6⟩ (by decide +kernel) (stores_of (by decide +kernel)),
   met (xs [(2, 0x1FFFF)] (g 0)) ⟨true, false, false, 0, 3, 2, 8⟩ (by decide +kernel) (stores_of (by decide +kernel))⟩

theorem all_resident (ps : List (Nat × Nat × Option Home)) (h : (ps.all fun p => p.2.2.isSome) = true) (i : Nat) :
    (ps.flatMap fun p => List.replicate p.2.1 p.2.2.isNone).getD i false = false := by
  rcases hx : (ps.flatMap fun p => List.replicate p.2.1 p.2.2.isNone)[i]? with _ | b
  · simp [List.getD, hx]
  · have hm := List.mem_of_getElem? hx
    simp only [List.mem_flatMap, List.mem_replicate] at hm
    obtain ⟨p, hp, _, rfl⟩ := hm
    have := List.all_eq_true.1 h p hp
    rw [List.getD, hx]
    cases hq : p.2.2 <;> simp_all

theorem loadsVector_of {w : Slot} {o : Operands} {s' : State} (hw : w.f.extractLsb' 3 2 = 0)
    (h : (let a := (effective o o.xa (loadDisp w o 256)).toNat
          ends (checkSpans (.seq o.who) .r true (lineSpans a 256)) s' fun ps t =>
            (ps.all fun p => p.2.2.isSome) && ends (readAll (.seq o.who) o.scope (cacheHint o) true ps) t (fun _ _ => true)) = true) :
    ∃ s2 r, LoadsVector w o s' s2 r := by
  obtain ⟨ps, s1, h1, h2⟩ := ended _ h
  rw [Bool.and_eq_true] at h2
  obtain ⟨l, t, h3, _⟩ := ended _ h2.2
  exact ⟨t, _, l, 0, rfl, by rw [if_pos hw]; exact ⟨ps, s1, h1, h3, fun i _ => by rw [all_resident ps h2.1]; simp⟩⟩

theorem loadsVectorA_of {w : Slot} {o : Operands} {s' : State} (hw : w.f.extractLsb' 3 2 ≠ 0)
    (h : ends (aRead o.who.core (effective o o.xa (loadDisp w o 256)).toNat 256) s' (fun _ _ => true) = true) :
    ∃ s2 r, LoadsVector w o s' s2 r := by
  obtain ⟨l, t, h1, _⟩ := ended _ h
  exact ⟨t, _, l, 0, rfl, by rw [if_neg hw]; exact ⟨h1, rfl⟩⟩

theorem storesVector_of {w : Slot} {o : Operands} {s' : State} (hm : (if w.f.getLsbD 0 then o.regs.maskTop else BitVec.allOnes 256) = BitVec.allOnes 256)
    (h : (let a := (effective o o.xb (storeDisp o)).toNat
          if w.f.extractLsb' 3 2 = 0 then ends (writeGlobal (.seq o.who) o.scope (cacheHint o) a (vecBytes o.a)) s' (fun _ _ => true)
          else ends (aWrite o.who.core a (vecBytes o.a)) s' (fun _ _ => true)) = true) : ∃ s2 r, StoresVector w o s' s2 r := by
  by_cases hw : w.f.extractLsb' 3 2 = 0
  · simp only [if_pos hw] at h
    obtain ⟨l, t, h1, _⟩ := ended _ h
    exact ⟨t, _, rfl, by rw [if_pos hm]; unfold WritesBytes; rw [if_pos hw]; exact h1⟩
  · simp only [if_neg hw] at h
    obtain ⟨l, t, h1, _⟩ := ended _ h
    exact ⟨t, _, rfl, by rw [if_pos hm]; unfold WritesBytes; rw [if_neg hw]; exact h1⟩

theorem storesMasked_of {w : Slot} {o : Operands} {s' : State} (hw : w.f.extractLsb' 3 2 ≠ 0) (hf : w.f.getLsbD 0 = true)
    (hm : o.regs.maskTop ≠ BitVec.allOnes 256)
    (h : ends (runsBin o.who.core (effective o o.xb (storeDisp o)).toNat (vecBytes o.a)
      (maskRuns (effective o o.xb (storeDisp o)).toNat o.regs.maskTop)) s' (fun _ _ => true) = true) :
    ∃ s2 r, StoresVector w o s' s2 r := by
  obtain ⟨l, t, h1, _⟩ := ended _ h
  refine ⟨t, _, rfl, ?_⟩
  simp only [hf, if_true, if_neg hm, if_neg hw]
  exact h1

theorem witness_vector_accesses : Met .vld 0x24 LoadsVector ∧ Met .vld 0x24 LoadsVector ∧ Met .vst 0x25 StoresVector ∧
    Met .vst 0x25 StoresVector ∧ Met .vst 0x25 StoresVector :=
  ⟨met (g 0) ⟨true, false, false, 4, 2, 1, 0⟩ (by decide +kernel) (loadsVector_of rfl (by decide +kernel)),
   met (xs [(1, 0x1FF00)] (g 0)) ⟨true, false, false, 4, 1, 0, 8⟩ (by decide +kernel) (loadsVectorA_of (by decide) (by decide +kernel)),
   met (g 0) ⟨true, false, false, 0, 3, 2, 0⟩ (by decide +kernel) (storesVector_of rfl (by decide +kernel)),
   met (xs [(1, 0x1FF00)] (g 0)) ⟨true, false, false, 0, 3, 1, 8⟩ (by decide +kernel) (storesVector_of rfl (by decide +kernel)),
   met (masked (g 0)) ⟨true, false, false, 0, 3, 1, 9⟩ (by decide +kernel)
     (storesMasked_of (by decide) (by decide) (by decide +kernel) (by decide +kernel))⟩

/-- Every condition of a queue control word. -/
def wordOk (o : Operands) (q : Word) (s : State) (p : Nat) (c : ControlWord) : Bool :=
  let m := (s.cluster o.cluster).mem
  let word1 := wordOf (readBytes m (p + 8) 8)
  let off := p % 131072
  let e := ((s.core o.who.core).windows[q.toNat / 131072 % 16]'(Nat.mod_lt _ (by decide)))
  q.toNat % 16 == 0 && (if (s.seq o.who).wait.isSome ∧ e.att = true then p == e.bin.val * 131072 + q.toNat % 131072
      else ends (aCheck o.who.core q.toNat 16) s (fun x _ => decide (x = p))) &&
    ends (aPoison o.who.core q.toNat p 16) s (fun _ _ => true) && ends (awaitBin o.who.core true p 16) s (fun _ _ => true) &&
    decide (c.head = fromLe (readBytes m p 4) ∧ c.tail = fromLe (readBytes m (p + 4) 4) ∧
    word1.getLsbD 35 = true ∧ word1.extractLsb' 36 28 = 0 ∧ word1.extractLsb' 17 10 = 0 ∧
    c.lgn = (word1.extractLsb' 31 4).toNat ∧ c.esz = (word1.extractLsb' 27 4).toNat ∧ c.ring = (word1.extractLsb' 0 17).toNat ∧
    c.esz ≤ 8 ∧ c.ring % 2 ^ c.esz = 0 ∧ c.ring + 2 ^ (c.esz + c.lgn) ≤ 131072 ∧
    (off + 16 ≤ c.ring ∨ c.ring + 2 ^ (c.esz + c.lgn) ≤ off))

theorem hasWord {o : Operands} {q : Word} {s : State} {p : Nat} {c : ControlWord} (h : wordOk o q s p c = true) :
    HasControlWord o q s p c := by
  simp only [wordOk, Bool.and_eq_true, beq_iff_eq, decide_eq_true_eq] at h
  obtain ⟨⟨⟨⟨h2, h3⟩, h4⟩, h5⟩, h6⟩ := h
  refine ⟨h2, ?_, same (aPoison_quiet _ _ _ _) h4, same (awaitBin_quiet _ _ _ _) h5, h6⟩
  unfold QueuePlace
  split at h3
  · next hc => rw [if_pos hc]; simpa using h3
  · next hc => rw [if_neg hc]; exact gives (aCheck_quiet _ _ _) p h3

/-- The queue of the tests with a number of elements. -/
def word (tail : Nat) : ControlWord := { head := 0, tail := tail, lgn := 1, esz := 3, ring := 0x200 }

theorem pushes_of {scalar : Bool} {w : Slot} {o : Operands} {s : State} (p : Nat) (c : ControlWord) (h : wordOk o o.xb s p c = true)
    (h2 : decide ((scalar = true → c.esz ≤ 3) ∧ occupancy c ≠ 2 ^ c.lgn) = true)
    (h3 : ends (awaitBin o.who.core true (slotPlace p c c.tail) (2 ^ c.esz)) s (fun _ _ => true) = true) :
    ∃ s2 r, Pushes scalar w o s s2 r :=
  ⟨_, _, p, c, hasWord h, (of_decide_eq_true h2).1, (of_decide_eq_true h2).2, same (awaitBin_quiet _ _ _ _) h3, rfl, rfl⟩
theorem pops_of {scalar : Bool} {w : Slot} {o : Operands} {s : State} (p : Nat) (c : ControlWord) (h : wordOk o o.xa s p c = true)
    (h2 : decide ((scalar = true → c.esz ≤ 3) ∧ occupancy c ≠ 0) = true)
    (h3 : (ends (aPoison o.who.core o.xa.toNat (slotPlace p c c.head) (2 ^ c.esz)) s (fun _ _ => true) &&
      ends (awaitBin o.who.core false (slotPlace p c c.head) (2 ^ c.esz)) s (fun _ _ => true)) = true) :
    ∃ s2 r, Pops scalar w o s s2 r :=
  ⟨_, _, p, c, hasWord h, (of_decide_eq_true h2).1, (of_decide_eq_true h2).2, same (aPoison_quiet _ _ _ _) (Bool.and_eq_true _ _ ▸ h3).1,
    same (awaitBin_quiet _ _ _ _) (Bool.and_eq_true _ _ ▸ h3).2, rfl, rfl⟩
theorem queueWaits_of {push scalar : Bool} {w : Slot} {o : Operands} {s : State} (p : Nat) (c : ControlWord)
    (h : wordOk o (if push then o.xb else o.xa) s p c = true)
    (h2 : decide ((scalar = true → c.esz ≤ 3) ∧ occupancy c = if push then 2 ^ c.lgn else 0) = true) :
    ∃ s2 k addr, QueueWaits push scalar w o s s2 k addr :=
  ⟨_, _, _, p, c, hasWord h, (of_decide_eq_true h2).1, (of_decide_eq_true h2).2, rfl, rfl, rfl⟩

/-- A pop to an empty and a push to a full queue of two elements are the waits; one element is neither. -/
theorem witness_queues : Met .qpsh 0x2C (Pushes true) ∧ Met .qpshV 0x2C (Pushes false) ∧ Met .qpop 0x2D (Pops true) ∧
    Met .qpopV 0x2D (Pops false) :=
  ⟨met (g 1) ⟨true, false, false, 0, 3, 1, 0⟩ (by decide +kernel)
     (pushes_of 0x100 (word 1) (by decide +kernel) (by decide +kernel) (by decide +kernel)),
   met (g 1) ⟨true, false, false, 0, 3, 1, 1⟩ (by decide +kernel)
     (pushes_of 0x100 (word 1) (by decide +kernel) (by decide +kernel) (by decide +kernel)),
   met (g 1) ⟨true, false, false, 4, 1, 0, 0⟩ (by decide +kernel)
     (pops_of 0x100 (word 1) (by decide +kernel) (by decide +kernel) (by decide +kernel)),
   met (g 1) ⟨true, false, false, 4, 1, 0, 1⟩ (by decide +kernel)
     (pops_of 0x100 (word 1) (by decide +kernel) (by decide +kernel) (by decide +kernel))⟩
theorem witness_queue_waits : MetWait .qpsh 0x2C (QueueWaits true true) ∧ MetWait .qpshV 0x2C (QueueWaits true false) ∧
    MetWait .qpop 0x2D (QueueWaits false true) ∧ MetWait .qpopV 0x2D (QueueWaits false false) :=
  ⟨metWait (g 2) ⟨true, false, false, 0, 3, 1, 0⟩ (by decide +kernel) (queueWaits_of 0x100 (word 2) (by decide +kernel) (by decide +kernel)),
   metWait (g 2) ⟨true, false, false, 0, 3, 1, 1⟩ (by decide +kernel) (queueWaits_of 0x100 (word 2) (by decide +kernel) (by decide +kernel)),
   metWait (g 0) ⟨true, false, false, 4, 1, 0, 0⟩ (by decide +kernel) (queueWaits_of 0x100 (word 0) (by decide +kernel) (by decide +kernel)),
   metWait (g 0) ⟨true, false, false, 4, 1, 0, 1⟩ (by decide +kernel) (queueWaits_of 0x100 (word 0) (by decide +kernel) (by decide +kernel))⟩

theorem queueWordAt_of {o : Operands} {addr : Word} {write : Bool} {s : State} (p : Nat)
    (h : (addr.toNat % 8 == 0 && (ends (aCheck o.who.core addr.toNat 8) s (fun x _ => decide (x = p)) &&
      ends (awaitBin o.who.core write p 8) s (fun _ _ => true))) = true) : QueueWordAt o addr write s p := by
  simp only [Bool.and_eq_true, beq_iff_eq] at h
  exact ⟨h.1, gives (aCheck_quiet _ _ _) p h.2.1, same (awaitBin_quiet _ _ _ _) h.2.2⟩

/-- ld.qe and st.qe of word 1 at 0x108, a gather of 32 pieces of 8 bytes with the last index 0xFFFF. -/
theorem witness_queue_words : Met .ldQe 0x22 LoadsQueueWord ∧ Met .stQe 0x23 StoresQueueWord :=
  ⟨met (g 1) ⟨true, false, false, 4, 1, 1, 30⟩ (by decide +kernel)
     ⟨_, _, 0x108, queueWordAt_of 0x108 (by decide +kernel), same (aPoison_quiet _ _ _ _) (by decide +kernel), rfl, rfl⟩,
   met (xs [(1, 0x108)] (g 1)) ⟨true, false, false, 0, 3, 1, 30⟩ (by decide +kernel)
     ⟨_, _, 0x108, queueWordAt_of 0x108 (by decide +kernel), rfl, rfl⟩⟩

/-- v1 holds the gather indices 0 to 30 and 0xFFFF in its 16-bit elements. -/
def indexed : State :=
  regs (fun r => r.setV 1 (BitVec.ofNat 2048 ((List.range 32).foldr (fun i x => x * 65536 + if i = 31 then 0xFFFF else i) 0))) (g 1)

theorem gathers_of {w : Slot} {o : Operands} {s : State} (ps : List (List Byte))
    (h : (let len := 2 ^ ((w.f.extractLsb' 0 3).toNat + 1)
          decide (o.xb.toNat % len = 0 ∧ ps.length = 256 / len) &&
          (List.range (256 / len)).all fun k =>
            let i := (o.a.extractLsb' (16 * k) 16).toNat
            if i = 0xFFFF then decide (ps[k]? = some (zeros len))
            else ends (aRead o.who.core (o.xb.toNat + i * len) len) s (fun l _ => decide (ps[k]? = some l))) = true) :
    ∃ s2 r, Gathers w o s s2 r := by
  rw [Bool.and_eq_true, decide_eq_true_eq, List.all_eq_true] at h
  refine ⟨_, _, ps, h.1.1, rfl, h.1.2, fun k l hk => ?_, rfl⟩
  have hk' : k < 256 / 2 ^ ((w.f.extractLsb' 0 3).toNat + 1) := by
    rw [← h.1.2]
    exact (List.getElem?_eq_some_iff.1 hk).1
  have := h.2 k (List.mem_range.2 hk')
  dsimp only at this
  split at this
  · next hi => rw [if_pos hi]; rw [hk, decide_eq_true_eq] at this; exact Option.some.inj this
  · next hi =>
    rw [if_neg hi]
    obtain ⟨x, h1, h2⟩ := some_given (aRead_quiet _ _ _) _ this
    rw [hk, decide_eq_true_eq] at h2
    rw [Option.some.inj h2]
    exact h1

theorem witness_gather : Met .gath 0x26 Gathers :=
  met indexed ⟨true, false, false, 0, 1, 1, 2⟩ (by decide +kernel)
    (gathers_of ((List.range 32).map fun k => if k = 0 then (queueWord 0 1).take 8 else if k = 1 then wordBytes 0x898000200 else zeros 8)
      (by decide +kernel))

theorem atomically_of {w : Slot} {o : Operands} {s : State}
    (h : ends (homeWord o .rw .atomic o.xa (amoBytes w)) s (fun _ _ => true) = true) : ∃ s2 r, Atomically w o s s2 r := by
  obtain ⟨b, t, h1, _⟩ := ended _ h
  exact ⟨_, _, b, t, h1, rfl, rfl⟩
theorem monitors_of {w : Slot} {o : Operands} {s : State}
    (h : ends (homeWord o .r .read o.xa 8) s (fun _ _ => true) = true) : ∃ s2 r, Monitors w o s s2 r := by
  obtain ⟨b, t, h1, _⟩ := ended _ h
  exact ⟨_, _, b, t, h1, rfl, rfl⟩

/-- A monitor of core 0's group 0, armed and fired as said. -/
def monitored (fired : Bool) : State := (g 0).setSeq ⟨0, 0⟩ { (g 0).seq ⟨0, 0⟩ with monitor := some { line := 8, fired := fired } }

/-- amo.add of 8 bytes at x2 = 0x20000, MON of it; MWT with no monitor (2), a fired one (0) and one past its limit of one cycle (1);
it waits with a monitor that has not fired and no limit. -/
theorem witness_atomics : Met .amo 0x27 Atomically ∧ Met .mon 0x28 Monitors ∧ Met .mwt 0x29 MonitorEnds ∧ Met .mwt 0x29 MonitorEnds ∧
    MetWait .mwt 0x29 MonitorWaits :=
  ⟨met (g 0) ⟨true, false, false, 4, 2, 3, 16⟩ (by decide +kernel) (atomically_of (by decide +kernel)),
   met (g 0) ⟨true, false, false, 4, 2, 0, 0⟩ (by decide +kernel) (monitors_of (by decide +kernel)),
   met (g 0) ⟨true, false, false, 4, 0, 0, 0⟩ (by decide +kernel) ⟨_, _, 2, by decide +kernel, rfl, rfl⟩,
   met (monitored true) ⟨true, false, false, 4, 0, 0, 0⟩ (by decide +kernel) ⟨_, _, 0, by decide +kernel, rfl, rfl⟩,
   metWait (monitored false) ⟨true, false, false, 4, 0, 0, 0⟩ (by decide +kernel) ⟨_, _, _, by decide +kernel, rfl, rfl, rfl⟩⟩

/-- A bundle's scope. -/
def inScope (c : Scope) (s : State) : State := s.setSeq s.focus { s.cur with bundle := { s.cur.bundle with scope := c } }
/-- A write in core 0's write path, of one byte at 0x20000. -/
def writing : State := (g 0).setCore 0 { (g 0).core 0 with writePath := [{ va := 0x20000, data := [1], time := 0, hint := 0, who := ⟨0, 0⟩ }] }

theorem fencesWide_of {w : Slot} {o : Operands} {s : State} (h2 : 2 ≤ o.scope.rank)
    (h : (let s1 := (s.setCore o.who.core { s.core o.who.core with writePath := [] }).setCluster o.cluster
            { s.cluster o.cluster with pending := (s.cluster o.cluster).pending ++ (s.core o.who.core).writePath }
          (drainPending o.cluster (fun _ => true) (s1.cluster o.cluster).pending s1 0).2.isSome) = true)
    (hp : (s.core o.who.core).writePath ≠ []) : ∃ s2 r, Fences w o s s2 r := by
  obtain ⟨t, h3⟩ := Option.isSome_iff_exists.1 h
  obtain ⟨s3, h3⟩ : ∃ s3, drainPending o.cluster (fun _ => true) _ _ 0 = (s3, some t) := ⟨_, Prod.ext rfl h3⟩
  refine ⟨s3.setSeq o.who { seqOf o s3 with time := max (max (seqOf o s3).time t) (seqOf o s3).seen }, {}, rfl, ?_⟩
  rw [if_neg (by omega)]
  dsimp only
  rw [if_neg (by omega), if_neg hp]
  exact ⟨s3, t, h3, rfl⟩

theorem asks_of {w : Slot} {o : Operands} {s : State} (h : ends (pageState o o.xa.toNat) s (fun _ _ => true) = true) :
    ∃ s2 r, AsksResidency w o s s2 r := by
  obtain ⟨x, t, h1, _⟩ := ended _ h
  cases x with
  | resident => exact ⟨_, _, .resident, t, h1, rfl, rfl⟩
  | farAway page => exact ⟨_, _, .farAway page, t, h1, rfl, rfl⟩
  | away die page => exact ⟨_, _, .away die page, t, h1, rfl, rfl⟩
theorem found_of {w : Slot} {o : Operands} {s : State} (h : ends (pageState o o.xa.toNat) s (fun x _ => decide (x = .resident)) = true) :
    ∃ s2 r, FindsResident w o s s2 r := by
  obtain ⟨x, t, h1, h2⟩ := ended _ h
  exact ⟨t, _, by rw [h1, of_decide_eq_true h2], rfl⟩
theorem waitsResidency_of {w : Slot} {o : Operands} {s : State} (hw : (s.seq o.who).wait = none)
    (h : ends (pageState o o.xa.toNat) s (fun x t => decide (x ≠ .resident ∧ t.preemptPending o.who = false)) = true) :
    ∃ s2 k addr, WaitsResidency w o s s2 k addr := by
  obtain ⟨x, t, h1, h2⟩ := ended _ h
  have h2 := of_decide_eq_true h2
  cases x with
  | resident => exact absurd rfl h2.1
  | farAway page => exact ⟨_, _, _, .farAway page, t, h1, hw, h2.2, rfl, rfl, rfl⟩
  | away die page => exact ⟨_, _, _, .away die page, t, h1, hw, h2.2, rfl, rfl, rfl⟩
theorem brings_one {o : Operands} {va : Nat} {s : State} (h : ends (prefLine o va) s (fun _ _ => true) = true) :
    ∃ t, Brings o [va] s t := by
  obtain ⟨_, t, h1, _⟩ := ended _ h
  exact ⟨t, by simp only [Brings, h1]⟩
theorem prefetches_one {w : Slot} {o : Operands} {s : State} (hb : w.b = 0) (hp : isPort w.a = false)
    (h : ends (prefLine o (o.xa.toNat / 128 * 128 % 2 ^ 64)) s (fun _ _ => true) = true) : ∃ s2 r, Prefetches w o s s2 r := by
  obtain ⟨t, ht⟩ := brings_one h
  refine ⟨t, _, rfl, ?_⟩
  rw [if_neg (by simp [hp]), hb]
  exact ht

/-- The page of the first 64 KiB is not resident: a root leaf's table with a leaf of level 0 (R350). -/
def evicted : State :=
  { g 0 with dram := words [(0x4000, mkPointer 0x8000), (0x8000, mkPointer 0x9000), (0x9000, mkPointer 0xA000),
                            (0xA000, mkLeaf false true true false false false 0)] [] }

/-- A page of package 1, which link 0 reaches and whose home die finds it not resident. -/
def farPage : State :=
  let s := xs [(1, 0x10000000000000)] (g 0)
  { s with nets := { s.nets with fabric := [(1, 0x80)] }, remoteFaults := [(0x1000000000, 0x0C3)] }

theorem witness_fences : Met .fence 0x2A Fences ∧ Met .fence 0x2A Fences ∧ Met .fence 0x2A Fences ∧ Met .preq 0x2B AsksResidency ∧
    Met .preq 0x2B AsksResidency ∧ Met .preq 0x2B AsksResidency ∧ Met .preqW 0x2B FindsResident ∧ MetWait .preqW 0x2B WaitsResidency ∧
    MetWait .preqW 0x2B WaitsResidency ∧ Met .pref 0x2E Prefetches :=
  ⟨met writing ⟨true, false, false, 0, 0, 0, 0⟩ (by decide +kernel) ⟨_, _, rfl, rfl⟩,
   met (inScope .cluster writing) ⟨true, false, false, 0, 0, 0, 0⟩ (by decide +kernel) ⟨_, _, rfl, rfl⟩,
   met (inScope .system writing) ⟨true, false, false, 0, 0, 0, 0⟩ (by decide +kernel) (fencesWide_of (by decide) (by decide +kernel) (by decide +kernel)),
   met (g 0) ⟨true, false, false, 4, 2, 0, 0⟩ (by decide +kernel) (asks_of (by decide +kernel)),
   met evicted ⟨true, false, false, 4, 1, 0, 0⟩ (by decide +kernel) (asks_of (by decide +kernel)),
   met farPage ⟨true, false, false, 4, 1, 0, 0⟩ (by decide +kernel) (asks_of (by decide +kernel)),
   met (g 0) ⟨true, false, false, 4, 2, 0, 1⟩ (by decide +kernel) (found_of (by decide +kernel)),
   metWait evicted ⟨true, false, false, 4, 1, 0, 1⟩ (by decide +kernel) (waitsResidency_of (by decide +kernel) (by decide +kernel)),
   metWait farPage ⟨true, false, false, 4, 1, 0, 1⟩ (by decide +kernel) (waitsResidency_of (by decide +kernel) (by decide +kernel)),
   met (g 0) ⟨true, false, false, 0, 2, 0, 0⟩ (by decide +kernel) (prefetches_one rfl (by decide) (by decide +kernel))⟩

/-! ### Witnesses: the V engine -/

/-- The word of each slot: v3, v1, v2 and the F that stands. -/
def vslot (f : BitVec 5) : Slot := ⟨true, false, false, 3, 1, 2, f⟩
def vslot1 (f : BitVec 5) : Slot := ⟨true, false, false, 3, 1, 0, f⟩

theorem witness_vector_arithmetic : Stood .vadd 0x30 ∧ Stood .vsub 0x31 ∧ Stood .vmul 0x32 ∧ Stood .vfma 0x33 ∧ Stood .vmnx 0x34 ∧
    Stood .vshf 0x36 :=
  ⟨stood base (vslot 0) (by decide +kernel), stood base (vslot 5) (by decide +kernel), stood base (vslot 6) (by decide +kernel),
   stood base (vslot 12) (by decide +kernel), stood base (vslot 13) (by decide +kernel), stood base (vslot 15) (by decide +kernel)⟩

theorem witness_vector_logic : Stood .vlog 0x35 ∧ Stood .vlogP 0x35 ∧ Stood .vcmp 0x3C ∧ Stood .vmov 0x45 ∧ Stood .vmovFp 0x45 ∧
    Stood .vmovTp 0x45 ∧ Stood .vmovExp 0x45 ∧ Stood .vmovIns 0x45 :=
  ⟨stood base (vslot 3) (by decide +kernel), stood base ⟨true, false, false, 3, 1, 2, 16⟩ (by decide +kernel),
   stood base (vslot 2) (by decide +kernel), stood base (vslot1 0) (by decide +kernel), stood base (vslot1 7) (by decide +kernel),
   stood base (vslot1 8) (by decide +kernel), stood base (vslot1 12) (by decide +kernel), stood base (vslot 16) (by decide +kernel)⟩

theorem witness_vector_select : Stood .vsel 0x3D := stood (masked base) (vslot 31) (by decide +kernel)

theorem witness_reductions : Stood .vred 0x38 ∧ Stood .vexp 0x39 ∧ Stood .vrcp 0x3A ∧ Stood .vrsq 0x3B ∧ Stood .vsqrt 0x3B ∧
    Stood .vrmx 0x47 :=
  ⟨stood base (vslot1 0) (by decide +kernel), stood base (vslot1 1) (by decide +kernel), stood base (vslot1 0) (by decide +kernel),
   stood base (vslot1 0) (by decide +kernel), stood base (vslot1 1) (by decide +kernel), stood base (vslot 0) (by decide +kernel)⟩

theorem witness_conversions : Stood .vcvt 0x37 ∧ Stood .vqnt 0x41 ∧ Stood .vsca 0x40 ∧ Stood .vprm 0x3E ∧ Stood .vbrd 0x3F ∧
    Stood .vbrdImm 0x3F ∧ Stood .viot 0x46 :=
  ⟨stood base (vslot1 0) (by decide +kernel), stood base (vslot1 0) (by decide +kernel), stood base (vslot 0) (by decide +kernel),
   stood base (vslot 0) (by decide +kernel), stood base (vslot1 3) (by decide +kernel), stood base (vslot1 6) (by decide +kernel),
   stood base (vslot1 3) (by decide +kernel)⟩

/-- A mask stack of a depth. -/
def depth (n : Nat) : State := regs (fun r => { r with masks := List.replicate n 0xFF }) base

/-- A push at depth 7 completes and one at depth 8 traps; an invert and a pop at depth 1 complete and at depth 0 trap. -/
theorem witness_mask_stack : Met .vmps 0x42 PushesMask ∧ Met .vmiv 0x43 InvertsMask ∧ Met .vmpp 0x44 PopsMask ∧
    MetTrap .vmps 0x42 MaskOverflows ∧ MetTrap .vmiv 0x43 MaskUnderflows ∧ MetTrap .vmpp 0x44 MaskUnderflows :=
  ⟨met (depth 7) ⟨true, false, false, 0, 1, 0, 0⟩ (by decide +kernel) ⟨_, _, by decide +kernel, rfl, rfl⟩,
   met (depth 1) ⟨true, false, false, 0, 0, 0, 0⟩ (by decide +kernel) ⟨_, _, 0xFF, [], by decide +kernel, rfl, rfl⟩,
   met (depth 1) ⟨true, false, false, 0, 0, 0, 0⟩ (by decide +kernel) ⟨_, _, 0xFF, [], by decide +kernel, rfl, rfl⟩,
   metTrap (depth 8) ⟨true, false, false, 0, 1, 0, 0⟩ (by decide +kernel) _ _ _ _ ⟨by decide +kernel, rfl, rfl, rfl, rfl⟩ (by decide +kernel),
   metTrap (depth 0) ⟨true, false, false, 0, 0, 0, 0⟩ (by decide +kernel) _ _ _ _ ⟨by decide +kernel, rfl, rfl, rfl, rfl⟩ (by decide +kernel),
   metTrap (depth 0) ⟨true, false, false, 0, 0, 0, 0⟩ (by decide +kernel) _ _ _ _ ⟨by decide +kernel, rfl, rfl, rfl, rfl⟩ (by decide +kernel)⟩

/-! ### Witnesses: the M engine -/

/-- The word that follows LPC, all ones, stands in every state built from the base. -/
theorem literal_of {o : Operands} {s : State} (x : BitVec 32) (h : decide ((literalBody o s)[o.regs.lpc.toNat / 4]? = some x) = true) :
    HasLiteral o s x :=
  (of_decide_eq_true h : (literalBody o s)[o.regs.lpc.toNat / 4]? = some x)

def modeOk (f : MmvForm) (o : Operands) (s : State) : Bool :=
  let m := o.regs.mmode
  let mgm := m.extractLsb' 0 8
  let kact := (m.extractLsb' 16 9).toNat
  decide (mgm ≠ 0 ∧ kact ≠ 0 ∧ kact ≤ (if f = .mb then 128 else 256)) &&
    ((List.range 8).all fun j => !mgm.getLsbD j || (liveAt o s j).isSome) && !m.getLsbD 25 &&
    decide (o.xb.toNat % 128 = 0 ∧ o.xb.toNat + (participants mgm.toNat).length * f.columns ≤ 65536)

theorem mode_of {f : MmvForm} {o : Operands} {s : State} (h : modeOk f o s = true) : ModeHolds f o s := by
  simp only [modeOk, Bool.and_eq_true, decide_eq_true_eq, List.all_eq_true, List.mem_range, Bool.or_eq_true, Bool.not_eq_true'] at h
  obtain ⟨⟨⟨h1, h2⟩, h3⟩, h4⟩ := h
  refine ⟨h1, fun j hj hb => ?_, fun hs => ?_, h4.1, ?_⟩
  · rcases h2 j hj with h | h
    · rw [h] at hb; simp at hb
    · exact h
  · rw [h3] at hs; simp at hs
  · rw [h3]; exact h4.2

theorem ready_of {f : MmvForm} {w : Slot} {o : Operands} {s : State} (x : BitVec 32) (h : modeOk f o s = true)
    (hx : decide ((literalBody o s)[o.regs.lpc.toNat / 4]? = some x) = true)
    (hl : ((physAt o s).all fun p =>
      let x := (s.core o.who.core).wset p (o.regs.mmode.extractLsb' 8 2).toNat
      !x.loading && !x.failed) = true)
    (hp : portStream o = none) : MatrixReady f w o s := by
  refine ⟨mode_of h, ⟨x, literal_of x hx⟩, fun p hp => by simpa using List.all_eq_true.1 hl p hp, s,
    List.replicate (physAt o s).length o.a, ?_⟩
  unfold Activates
  rw [hp]
  exact ⟨rfl, rfl⟩

def withMode (m : Word) (s : State) : State := regs (fun r => { r with mmode := m }) s

/-- One macro and 256 rows (128 for mmvb), lane 0; eight macros whose last lane is the last of C space. -/
theorem witness_matrix : StoodWith .mmv8 0x50 (MatrixReady .m8) ∧ StoodWith .mmv4 0x51 (MatrixReady .m4) ∧
    StoodWith .mmv2 0x52 (MatrixReady .m2) ∧ StoodWith .mmvb 0x53 (MatrixReady .mb) :=
  ⟨stoodWith base ⟨true, false, false, 0, 1, 0, 0⟩ (by decide +kernel)
     (ready_of 0xFFFFFFFF (by decide +kernel) (by decide +kernel) (by decide +kernel) (by decide +kernel)),
   stoodWith (withMode 0x01000080 base) ⟨true, false, false, 0, 1, 0, 0⟩ (by decide +kernel)
     (ready_of 0xFFFFFFFF (by decide +kernel) (by decide +kernel) (by decide +kernel) (by decide +kernel)),
   stoodWith (withMode 0x00010001 base) ⟨true, false, false, 0, 1, 0, 0⟩ (by decide +kernel)
     (ready_of 0xFFFFFFFF (by decide +kernel) (by decide +kernel) (by decide +kernel) (by decide +kernel)),
   stoodWith (withMode 0x00800001 base) ⟨true, false, false, 0, 1, 0, 7⟩ (by decide +kernel)
     (ready_of 0xFFFFFFFF (by decide +kernel) (by decide +kernel) (by decide +kernel) (by decide +kernel))⟩

/-- KACT = 257 for mmv8, MGM = 0, KACT = 0 and KACT = 129 for mmvb raise 0x101; macro 7 on a core with seven live macros 0x102. -/
def sevenLive : State := (withMode 0x01000080 base).setCore 0 { (withMode 0x01000080 base).core 0 with liveMacros := 0x7F }
theorem refused_of {f : MmvForm} {w : Slot} {o : Operands} {s : State}
    (h : (let mgm := o.regs.mmode.extractLsb' 0 8
          let kact := (o.regs.mmode.extractLsb' 16 9).toNat
          decide ¬(mgm ≠ 0 ∧ kact ≠ 0 ∧ kact ≤ (if f = .mb then 128 else 256))) = true) : ModeRefused f w o s s 0x101 0 0 :=
  ⟨rfl, rfl, fun _ => rfl, Or.inl ⟨by unfold rangeHolds; exact of_decide_eq_true h, rfl⟩⟩
theorem refusedLive_of {f : MmvForm} {w : Slot} {o : Operands} {s : State}
    (h : (let mgm := o.regs.mmode.extractLsb' 0 8
          let kact := (o.regs.mmode.extractLsb' 16 9).toNat
          decide ((mgm ≠ 0 ∧ kact ≠ 0 ∧ kact ≤ (if f = .mb then 128 else 256)) ∧ mgm.getLsbD 7 = true ∧ liveAt o s 7 = none)) = true) :
    ModeRefused f w o s s 0x102 0 0 :=
  ⟨rfl, rfl, fun _ => rfl, Or.inr (Or.inl ⟨(of_decide_eq_true h).1,
    fun hl => by simpa [(of_decide_eq_true h).2.2] using hl 7 (by decide) (of_decide_eq_true h).2.1, rfl⟩)⟩
/-- The lane address of B off its multiple raises 0x104, an LPC past the literal stream 0x105, a failed set 0x107. -/
theorem refusedLanes_of {f : MmvForm} {w : Slot} {o : Operands} {s : State} (hm : o.regs.mmode = 0x01000001)
    (hf : f ≠ .mb) (hl : liveAt o s 0 ≠ none) (hb : o.xb.toNat % 128 ≠ 0) : ModeRefused f w o s s 0x104 o.xb 0 := by
  refine ⟨rfl, rfl, fun h => absurd rfl h, .inr (.inr (.inr (.inl ⟨?_, ?_, ?_, fun h => hb h.1, rfl, rfl⟩)))⟩
  · unfold rangeHolds; rw [hm, if_neg hf]; decide
  · intro j hj hb
    rw [hm] at hb
    have h0 : ∀ j, j < 8 → ((0x01000001 : Word).extractLsb' 0 8).getLsbD j = true → j = 0 := by decide
    obtain rfl := h0 j hj hb
    exact Option.isSome_iff_ne_none.2 hl
  · intro h; rw [hm] at h; exact absurd h (by decide)
theorem refusedLiteral_of {f : MmvForm} {w : Slot} {o : Operands} {s : State} (h : modeOk f o s = true)
    (hx : (literalBody o s)[o.regs.lpc.toNat / 4]? = none) : ModeRefused f w o s s 0x105 0 0 :=
  ⟨rfl, rfl, fun _ => rfl, .inr (.inr (.inr (.inr (.inl ⟨mode_of h, fun ⟨x, hl⟩ => by simp [HasLiteral, hx] at hl, rfl⟩))))⟩
theorem refusedSet_of {f : MmvForm} {w : Slot} {o : Operands} {s : State} (x : BitVec 32) (h : modeOk f o s = true)
    (hx : decide ((literalBody o s)[o.regs.lpc.toNat / 4]? = some x) = true)
    (hl : ((physAt o s).all fun p => !((s.core o.who.core).wset p (o.regs.mmode.extractLsb' 8 2).toNat).loading) = true)
    (hf : ((physAt o s).any fun p => ((s.core o.who.core).wset p (o.regs.mmode.extractLsb' 8 2).toNat).failed) = true) :
    ModeRefused f w o s s 0x107 0 0 :=
  ⟨rfl, rfl, fun _ => rfl, .inr (.inr (.inr (.inr (.inr ⟨mode_of h, ⟨x, literal_of x hx⟩,
    fun p hp => by simpa using List.all_eq_true.1 hl p hp, by simpa using hf, rfl⟩))))⟩
theorem witness_matrix_refusals : MetTrap .mmv8 0x50 (ModeRefused .m8) ∧ MetTrap .mmv4 0x51 (ModeRefused .m4) ∧
    MetTrap .mmv2 0x52 (ModeRefused .m2) ∧ MetTrap .mmvb 0x53 (ModeRefused .mb) ∧ MetTrap .mmv8 0x50 (ModeRefused .m8) ∧
    MetTrap .mmv4 0x51 (ModeRefused .m4) ∧ MetTrap .mmv2 0x52 (ModeRefused .m2) ∧ MetTrap .mmv8 0x50 (ModeRefused .m8) :=
  ⟨metTrap (withMode 0x01010001 base) ⟨true, false, false, 0, 1, 0, 0⟩ (by decide +kernel) _ _ _ _ (refused_of (by decide +kernel)) (by decide +kernel),
   metTrap (withMode 0x01000000 base) ⟨true, false, false, 0, 1, 0, 0⟩ (by decide +kernel) _ _ _ _ (refused_of (by decide +kernel)) (by decide +kernel),
   metTrap (withMode 0x00000001 base) ⟨true, false, false, 0, 1, 0, 0⟩ (by decide +kernel) _ _ _ _ (refused_of (by decide +kernel)) (by decide +kernel),
   metTrap (withMode 0x00810001 base) ⟨true, false, false, 0, 1, 0, 7⟩ (by decide +kernel) _ _ _ _ (refused_of (by decide +kernel)) (by decide +kernel),
   metTrap sevenLive ⟨true, false, false, 0, 1, 0, 0⟩ (by decide +kernel) _ _ _ _ (refusedLive_of (by decide +kernel)) (by decide +kernel),
   metTrap (xs [(2, 64)] base) ⟨true, false, false, 0, 1, 2, 0⟩ (by decide +kernel) _ _ _ _
     (refusedLanes_of (by decide +kernel) (by decide) (by decide +kernel) (by decide +kernel)) (by decide +kernel),
   metTrap (regs (fun r => { r with lpc := 4 }) base) ⟨true, false, false, 0, 1, 0, 0⟩ (by decide +kernel) _ _ _ _
     (refusedLiteral_of (by decide +kernel) (by decide +kernel)) (by decide +kernel),
   metTrap (base.setCore 0 ((base.core 0).setWset 0 0 { failed := true })) ⟨true, false, false, 0, 1, 0, 0⟩ (by decide +kernel) _ _ _ _
     (refusedSet_of 0xFFFFFFFF (by decide +kernel) (by decide +kernel) (by decide +kernel) (by decide +kernel)) (by decide +kernel)⟩

/-- A literal word stands for the slot. -/
def anyLiteral (o : Operands) (s : State) : Bool := ((literalBody o s)[o.regs.lpc.toNat / 4]?).isSome
theorem some_literal {o : Operands} {s : State} (h : anyLiteral o s = true) : ∃ x, HasLiteral o s x := Option.isSome_iff_exists.1 h

/-- The parts of a W address. -/
def placeOk (o : Operands) (s : State) (p set off : Nat) : Bool :=
  decide (o.xb.toNat < 2 ^ 20 ∧ liveAt o s (o.xb.toNat / 2 ^ 17) = some p ∧ set = o.xb.toNat / 2 ^ 15 % 4 ∧ off = o.xb.toNat % 2 ^ 15)
theorem place_of {o : Operands} {s : State} {p set off : Nat} (h : placeOk o s p set off = true) : PlacesWeights o s p set off :=
  (of_decide_eq_true h : o.xb.toNat < 2 ^ 20 ∧ _ ∧ _ ∧ _)

theorem startsLoad_of {w : Slot} {o : Operands} {s : State} (p set : Nat) (x : BitVec 32) (h : placeOk o s p set 0 = true)
    (ha : o.xa.toNat % 256 = 0)
    (h1 : (let next := fun (_ : Unit) t => decide ((literalBody o t)[o.regs.lpc.toNat / 4]? = some x) &&
             ends (raiseEarlier o.who o.scope) t fun _ u => !((u.core o.who.core).wset p set).loading
           if w.f.extractLsb' 3 2 = 1 then
             ends (aCheck o.who.core o.xa.toNat 32768) s fun q _ => ends (awaitBin o.who.core false q 32768) s (fun _ _ => true) && next () s
           else ends (checkPages o.who .r o.xa.toNat 32768) s fun _ t => !t.globalHazard o.who false o.xa.toNat 32768 && next () t)
      = true) : ∃ s2 r, StartsLoad w o s s2 r := by
  by_cases hf : w.f.extractLsb' 3 2 = 1
  · simp only [if_pos hf] at h1
    obtain ⟨q, h2, h3⟩ := some_given (aCheck_quiet _ _ _) _ h1
    simp only [Bool.and_eq_true] at h3
    obtain ⟨_, s3, h4, h5⟩ := ended _ h3.2.2
    exact ⟨_, _, p, set, q, x, s, s3, place_of h, ha, by rw [if_pos hf]; exact ⟨rfl, h2, same (awaitBin_quiet _ _ _ _) h3.1⟩,
      literal_of x h3.2.1, h4, by simpa using h5, rfl, rfl⟩
  · simp only [if_neg hf] at h1
    obtain ⟨_, s1, h2, h3⟩ := ended _ h1
    simp only [Bool.and_eq_true] at h3
    obtain ⟨_, s3, h4, h5⟩ := ended _ h3.2.2
    exact ⟨_, _, p, set, 0, x, s1, s3, place_of h, ha, by rw [if_neg hf]; exact ⟨rfl, h2, by simpa using h3.1⟩, literal_of x h3.2.1, h4,
      by simpa using h5, rfl, rfl⟩

theorem updatesRows_of {w : Slot} {o : Operands} {s : State} (p set off : Nat) (x : BitVec 32) (bytes : List Byte) (y : WeightSet)
    (fl : Flags) (h : placeOk o s p set off = true)
    (h1 : (if (w.f.extractLsb' 0 2).toNat = 3 then off % 128 = 0 ∧ off < 0x4000 else off % 256 = 0))
    (h2 : decide ((literalBody o s)[o.regs.lpc.toNat / 4]? = some x) = true) (h3 : ((s.core o.who.core).wset p set).loading = false)
    (h4 : RowsUpdated (w.f.extractLsb' 0 2).toNat off o.a ((s.core o.who.core).wset p set) bytes y fl) :
    ∃ s2 r, UpdatesRows w o s s2 r := ⟨_, _, p, set, off, x, bytes, y, fl, place_of h, h1, literal_of x h2, h3, h4, rfl, rfl⟩

/-- A vector of I4X pairs, the first an outlier of sign 1 and exponent 7, the second a double marker (R38). -/
def outliers : State := regs (fun r => { r with v := r.v.set 1 0x88F8 }) (xs [(2, 0xFFF00)] base)
/-- BF16 infinity, a signalling NaN and 1.0 (R172, R190). -/
def brains : State := regs (fun r => { r with v := r.v.set 1 0x3F807F817F80 }) (xs [(2, 0xFBF80)] base)

/-- x1 = 0x20000 a source, x2 a W address of macro 7, set 3: its last row of 256 bytes, and its last row of BF16 values. -/
theorem witness_weights : Met .mwld 0x54 StartsLoad ∧ Met .mwld 0x54 StartsLoad ∧ Met .mwsl 0x55 SelectsSet ∧ Met .mwup 0x56 UpdatesRows ∧
    Met .mwup 0x56 UpdatesRows ∧ Met .mwup 0x56 UpdatesRows :=
  ⟨met (xs [(1, 0x20000), (2, 0xF8000)] mapped) ⟨true, false, false, 0, 1, 2, 0⟩ (by decide +kernel)
     (startsLoad_of 7 3 0xFFFFFFFF (by decide +kernel) (by decide +kernel) (by decide +kernel)),
   met (xs [(1, 0x18000), (2, 0)] (windowed 0)) ⟨true, false, false, 0, 1, 2, 8⟩ (by decide +kernel)
     (startsLoad_of 0 0 0xFFFFFFFF (by decide +kernel) (by decide +kernel) (by decide +kernel)),
   met base ⟨true, false, false, 0, 0, 0, 3⟩ (by decide +kernel) ⟨_, _, some_literal (by decide +kernel), rfl, rfl⟩,
   met (xs [(2, 0xFFF00)] base) ⟨true, false, false, 0, 1, 2, 0⟩ (by decide +kernel)
     (updatesRows_of 7 3 0x7F00 0xFFFFFFFF _ _ _ (by decide +kernel) (by decide) (by decide +kernel) (by decide +kernel) ⟨rfl, rfl, rfl⟩),
   met outliers ⟨true, false, false, 0, 1, 2, 1⟩ (by decide +kernel)
     (updatesRows_of 7 3 0x7F00 0xFFFFFFFF ((List.range 256).map fun _ => 0) { side := [(254, 0, -1024)] } 0x0040 (by decide +kernel) (by decide)
       (by decide +kernel) (by decide +kernel) ⟨by decide +kernel, by decide +kernel, by decide +kernel, by decide +kernel⟩),
   met brains ⟨true, false, false, 0, 1, 2, 3⟩ (by decide +kernel)
     (updatesRows_of 7 3 0x3F80 0xFFFFFFFF ([127, 127, 127] ++ (List.range 125).map fun _ => 0) { nonfinite := 3 } 0x0021 (by decide +kernel)
       (by decide) (by decide +kernel) (by decide +kernel) ⟨by decide +kernel, by decide +kernel, by decide +kernel, by decide +kernel⟩)⟩

theorem names_of {o : Operands} {s : State} (p : Nat) (h : (anyLiteral o s && decide (liveAt o s o.xb.toNat = some p)) = true) :
    NamesMacro o s p := by
  rw [Bool.and_eq_true, decide_eq_true_eq] at h
  exact ⟨some_literal h.1, h.2⟩

/-- The value that mcal.r gives, of the offsets and valid bits of a macro. -/
def calibrationVec (o : Operands) (m : Macro) (p : Nat) : Vec :=
  (0 : BitVec 896) ++ m.valid ++
    BitVec.ofNat 1024 ((List.range 128).foldr (fun i x => x * 256 + (offsetOf o.who.core p m i).toNat) 0)

theorem samples_of {w : Slot} {o : Operands} {s : State}
    (h : decide ((o.xa.extractLsb' 0 5).toNat ≤ 24 ∧ o.xa.extractLsb' 9 7 = 0 ∧ o.xa.extractLsb' 5 3 = 0 ∧ o.xa.extractLsb' 32 32 = 0 ∧
      o.xb.toNat < 2 ^ (s.core o.who.core).macroCount) = true) (hl : anyLiteral o s = true) : ∃ s2 r, SetsSampling w o s s2 r :=
  ⟨_, _, (of_decide_eq_true h).1, (of_decide_eq_true h).2.1, (of_decide_eq_true h).2.2.1, (of_decide_eq_true h).2.2.2.1,
    (of_decide_eq_true h).2.2.2.2, some_literal hl, rfl, rfl⟩

/-- A core whose macro 7 has explicit offsets. -/
def calibrated : State :=
  let s := serving (xs [(1, 0xFFFF0118), (2, 7)] base)
  s.setCore 0 ((s.core 0).setMacro 7 { (s.core 0).macroAt 7 with offsets := (List.range 128).map fun i => (i, BitVec.ofNat 8 i) })

theorem readsCalibration_of {w : Slot} {o : Operands} {s : State} (p : Nat)
    (h : (anyLiteral o s && decide (liveAt o s o.xb.toNat = some p)) = true)
    (hv : (let m := (s.core o.who.core).macroAt p
           let v := calibrationVec o m p
           (List.range 128).all fun i => decide (v.extractLsb' (8 * i) 8 = offsetOf o.who.core p m i)) = true)
    (hw : (let m := (s.core o.who.core).macroAt p
           let v := calibrationVec o m p
           decide (v.extractLsb' 1024 128 = m.valid ∧ v.extractLsb' 1152 896 = 0)) = true) : ∃ s2 r, ReadsCalibration w o s s2 r :=
  ⟨_, _, p, calibrationVec o ((s.core o.who.core).macroAt p) p, names_of p h, rfl, rfl,
    fun i hi => of_decide_eq_true (List.all_eq_true.1 hv i (List.mem_range.2 hi)), (of_decide_eq_true hw).1, (of_decide_eq_true hw).2⟩

theorem witness_calibration : Met .mcalW 0x57 WritesCalibration ∧ Met .mcalInv 0x57 Invalidates ∧ Met .mcalR 0x57 ReadsCalibration ∧
    Met .msmpSet 0x58 SetsSampling ∧ Met .msmpRd 0x58 ReadsSampling :=
  ⟨met calibrated ⟨true, false, false, 0, 1, 2, 0⟩ (by decide +kernel) ⟨_, _, 7, names_of 7 (by decide +kernel), rfl, rfl⟩,
   met calibrated ⟨true, false, false, 0, 0, 2, 1⟩ (by decide +kernel) ⟨_, _, 7, names_of 7 (by decide +kernel), rfl, rfl⟩,
   met calibrated ⟨true, false, false, 3, 0, 2, 2⟩ (by decide +kernel)
     (readsCalibration_of 7 (by decide +kernel) (by decide +kernel) (by decide +kernel)),
   met (xs [(2, 0xFF)] calibrated) ⟨true, false, false, 0, 1, 2, 0⟩ (by decide +kernel) (samples_of (by decide +kernel) (by decide +kernel)),
   met calibrated ⟨true, false, false, 3, 0, 2, 1⟩ (by decide +kernel) ⟨_, _, 7, names_of 7 (by decide +kernel), rfl, rfl⟩⟩

/-- x2 the last lane address of a count, x4 the first beyond C space, x5 = 1. -/
def lanes (n : Nat) : State := xs [(2, BitVec.ofNat 64 (65536 - n)), (4, 65536), (5, 1)] base
theorem lanesAt_of {n : Nat} {o : Operands} {s : State} (h : (anyLiteral o s && decide (o.xb.toNat % n = 0 ∧ o.xb.toNat < 65536)) = true) :
    LanesAt n o s := by
  rw [Bool.and_eq_true, decide_eq_true_eq] at h
  exact ⟨h.2.1, h.2.2, some_literal h.1⟩
/-- The elements of n lanes, each m bits of a view. -/
def gathered (n m : Nat) (view : Lane → Nat) (o : Operands) (s : State) : Vec :=
  BitVec.ofNat 2048 ((List.range n).foldr (fun i x => x * 2 ^ m + view (laneAt (s.core o.who.core) (o.xb.toNat + i)) % 2 ^ m) 0)
theorem readsLanes_of {n m : Nat} {view : Lane → Nat} {w : Slot} {o : Operands} {s : State}
    (h : (anyLiteral o s && decide (o.xb.toNat % n = 0 ∧ o.xb.toNat < 65536)) = true)
    (hv : ((List.range n).all fun i => decide (lane m (gathered n m view o s) i = view (laneAt (s.core o.who.core) (o.xb.toNat + i)))) = true) :
    ∃ s2 r, ReadsLanes n m view w o s s2 r :=
  ⟨_, _, gathered n m view o s, lanesAt_of h, rfl, rfl, fun i hi => of_decide_eq_true (List.all_eq_true.1 hv i (List.mem_range.2 hi))⟩

theorem witness_lane_reads : Met .macrV 0x59 (ReadsLanes 64 32 fun l => l.value.toNat) ∧
    Met .macrB 0x59 (ReadsLanes 64 32 fun l => l.bound.toNat) ∧
    Met .macrP 0x59 (ReadsLanes 32 64 fun l => l.bound.toNat * 2 ^ 32 + l.value.toNat) :=
  ⟨met (lanes 64) ⟨true, false, false, 3, 0, 2, 0⟩ (by decide +kernel) (readsLanes_of (by decide +kernel) (by decide +kernel)),
   met (lanes 64) ⟨true, false, false, 3, 0, 2, 1⟩ (by decide +kernel) (readsLanes_of (by decide +kernel) (by decide +kernel)),
   met (lanes 32) ⟨true, false, false, 3, 0, 2, 2⟩ (by decide +kernel) (readsLanes_of (by decide +kernel) (by decide +kernel))⟩

theorem witness_lane_writes : StoodWith .macwV 0x5A (fun _ => LanesAt 64) ∧ StoodWith .macwP 0x5A (fun _ => LanesAt 32) ∧
    StoodWith .macsZ 0x5B (fun _ => LanesAt 128) ∧ StoodWith .macsS 0x5B (fun _ => LanesAt 128) ∧ StoodWith .macsV 0x5B (fun _ => LanesAt 64) :=
  ⟨stoodWith (lanes 64) ⟨true, false, false, 0, 1, 2, 16⟩ (by decide +kernel) (lanesAt_of (by decide +kernel)),
   stoodWith (lanes 32) ⟨true, false, false, 0, 1, 2, 2⟩ (by decide +kernel) (lanesAt_of (by decide +kernel)),
   stoodWith (lanes 128) ⟨true, false, false, 0, 0, 2, 0⟩ (by decide +kernel) (lanesAt_of (by decide +kernel)),
   stoodWith (lanes 128) ⟨true, false, false, 0, 5, 2, 1⟩ (by decide +kernel) (lanesAt_of (by decide +kernel)),
   stoodWith (lanes 64) ⟨true, false, false, 0, 1, 2, 2⟩ (by decide +kernel) (lanesAt_of (by decide +kernel))⟩

theorem lanesRefused_of {n : Nat} {w : Slot} {o : Operands} {s : State} (h : decide (¬(o.xb.toNat % n = 0 ∧ o.xb.toNat < 65536)) = true) :
    LanesRefused n w o s s 0x104 o.xb 0 := ⟨of_decide_eq_true h, rfl, rfl, rfl, rfl⟩
/-- Lane 1 is a multiple of no count; lane 65,536 lies beyond C space. -/
theorem witness_lane_refusals : MetTrap .macrV 0x59 (LanesRefused 64) ∧ MetTrap .macrB 0x59 (LanesRefused 64) ∧
    MetTrap .macrP 0x59 (LanesRefused 32) ∧ MetTrap .macwV 0x5A (LanesRefused 64) ∧ MetTrap .macwP 0x5A (LanesRefused 32) ∧
    MetTrap .macsZ 0x5B (LanesRefused 128) ∧ MetTrap .macsS 0x5B (LanesRefused 128) ∧ MetTrap .macsV 0x5B (LanesRefused 64) :=
  ⟨metTrap (lanes 64) ⟨true, false, false, 3, 0, 4, 0⟩ (by decide +kernel) _ _ _ _ (lanesRefused_of (by decide +kernel)) (by decide +kernel),
   metTrap (lanes 64) ⟨true, false, false, 3, 0, 5, 1⟩ (by decide +kernel) _ _ _ _ (lanesRefused_of (by decide +kernel)) (by decide +kernel),
   metTrap (lanes 32) ⟨true, false, false, 3, 0, 4, 2⟩ (by decide +kernel) _ _ _ _ (lanesRefused_of (by decide +kernel)) (by decide +kernel),
   metTrap (lanes 64) ⟨true, false, false, 0, 1, 4, 0⟩ (by decide +kernel) _ _ _ _ (lanesRefused_of (by decide +kernel)) (by decide +kernel),
   metTrap (lanes 32) ⟨true, false, false, 0, 1, 5, 2⟩ (by decide +kernel) _ _ _ _ (lanesRefused_of (by decide +kernel)) (by decide +kernel),
   metTrap (lanes 64) ⟨true, false, false, 0, 0, 2, 0⟩ (by decide +kernel) _ _ _ _ (lanesRefused_of (by decide +kernel)) (by decide +kernel),
   metTrap (lanes 128) ⟨true, false, false, 0, 5, 4, 1⟩ (by decide +kernel) _ _ _ _ (lanesRefused_of (by decide +kernel)) (by decide +kernel),
   metTrap (lanes 32) ⟨true, false, false, 0, 1, 2, 2⟩ (by decide +kernel) _ _ _ _ (lanesRefused_of (by decide +kernel)) (by decide +kernel)⟩

/-! ### Witnesses: the K engine -/

def controlOk (tc : Word) : Bool :=
  decide (tc.extractLsb' 41 23 = 0 ∧ tc.extractLsb' 37 3 = 0 ∧ tc.extractLsb' 28 4 = 0 ∧ (rvOf tc ≤ 23 ∨ rvOf tc = 31))
theorem control_of {tc : Word} (h : controlOk tc = true) : ControlLegal tc := (of_decide_eq_true h : _ ∧ _)
def claimOk (o : Operands) (s : State) (c : Fin 4) : Bool :=
  let ch := (seqOf o s).channels[c]
  decide ((ch.failed = true → ch.reported = true) ∧ ch.busy = false)
theorem claim_of {o : Operands} {s : State} {c : Fin 4} (h : claimOk o s c = true) : Claimable o s c := (of_decide_eq_true h : _ ∧ _)
def sideOk (core : Nat) (a : Word) (n : Nat) (s : State) : Bool := ends (aCheck core a.toNat n) s (fun _ _ => true)
theorem side_of {core : Nat} {a : Word} {n : Nat} {s : State} (h : sideOk core a n s = true) : SideChecked core a n s :=
  (some_given (aCheck_quiet _ _ _) (fun _ => true) h).elim fun p h => ⟨p, h.1⟩

theorem acceptsCopy_of {w : Slot} {o : Operands} {s : State} (h : controlOk o.xd = true)
    (h1 : decide (dmaskOf o.xd = 0 ∧ splitOf o.xd = false) = true) (h2 : (!w.f.getLsbD 2 || sideOk o.who.core o.xa (lenOf o.xd) s) = true)
    (h3 : (!w.f.getLsbD 3 || sideOk o.who.core o.xb (lenOf o.xd) s) = true)
    (h4 : claimOk o s (Fin.ofNat 4 (w.f.extractLsb' 0 2).toNat) = true) : ∃ s2 r, AcceptsCopy w o s s2 r :=
  ⟨_, _, control_of h, (of_decide_eq_true h1).1, (of_decide_eq_true h1).2, fun hf => side_of (by rw [hf] at h2; simpa using h2),
    fun hf => side_of (by rw [hf] at h3; simpa using h3), claim_of h4, rfl, rfl⟩
theorem acceptsMulticast_of {w : Slot} {o : Operands} {s : State} (h : controlOk o.xd = true)
    (h1 : decide ((lenOf o.xd ≠ 0 → dmaskOf o.xd ≠ 0) ∧ (splitOf o.xd = true → rvOf o.xd + teamOf o s ≤ 24) ∧
      (dmaskOf o.xd).toNat < 2 ^ teamOf o s) = true) (h2 : (!w.f.getLsbD 2 || sideOk o.who.core o.xa (lenOf o.xd) s) = true)
    (h3 : (((List.range 4).filter fun i => (dmaskOf o.xd).getLsbD i).all fun k => sideOk (s.rankCore o.who k) o.xb (lenOf o.xd) s) = true)
    (h4 : claimOk o s (Fin.ofNat 4 (w.f.extractLsb' 0 2).toNat) = true) : ∃ s2 r, AcceptsMulticast w o s s2 r :=
  ⟨_, _, control_of h, (of_decide_eq_true h1).1, (of_decide_eq_true h1).2.1, (of_decide_eq_true h1).2.2,
    fun hf => side_of (by rw [hf] at h2; simpa using h2), fun k hk => side_of (List.all_eq_true.1 h3 k hk), claim_of h4, rfl, rfl⟩

def moveOk (tc : Word) : Bool := controlOk tc && decide (dmaskOf tc = 0 ∧ splitOf tc = false ∧ lenOf tc ≤ 4096 ∧ rvOf tc = 31)
theorem move_of {tc : Word} (h : moveOk tc = true) : MoveLegal tc := by
  rw [moveOk, Bool.and_eq_true] at h
  exact ⟨control_of h.1, of_decide_eq_true h.2⟩

theorem gets_of {w : Slot} {o : Operands} {s : State} (p : Nat) (h : moveOk o.xd = true)
    (h1 : (let n := lenOf o.xd
           ends (aCheck o.who.core o.xb.toNat n) s (fun x _ => decide (x = p)) && ends (awaitBin o.who.core true p n) s (fun _ _ => true)) = true)
    (h2 : (let n := lenOf o.xd
           ends (checkPages o.who .r o.xa.toNat n) s fun _ t =>
             ends (readGlobal (.seq o.who) o.scope 0 o.xa.toNat n) t fun _ _ => true) = true) : ∃ s2 r, Gets w o s s2 r := by
  rw [Bool.and_eq_true] at h1
  obtain ⟨_, s1, h3, h4⟩ := ended _ h2
  obtain ⟨l, s3, h5, _⟩ := ended _ h4
  exact ⟨_, _, p, l, s1, s3, move_of h, gives (aCheck_quiet _ _ _) p h1.1, same (awaitBin_quiet _ _ _ _) h1.2, h3, h5, rfl, rfl⟩

theorem puts_of {w : Slot} {o : Operands} {s : State} (p : Nat) (h : moveOk o.xd = true)
    (h1 : (let n := lenOf o.xd
           ends (aCheck o.who.core o.xa.toNat n) s (fun x _ => decide (x = p)) && ends (awaitBin o.who.core false p n) s (fun _ _ => true)) = true)
    (hx : o.xd1 ≠ 0)
    (h2 : (let n := lenOf o.xd
           ends (checkPages o.who .w o.xb.toNat n) s fun _ s1 => ends (homeWord o .w .atomic o.xd1 8) s1 fun b t =>
             ends (checkPoison (.seq o.who) o.xd1.toNat b) t fun _ s3 =>
             ends (aPoison o.who.core o.xa.toNat p n) s3 (fun _ _ => true) &&
             ends (writeGlobal (.seq o.who) o.scope 0 o.xb.toNat (readBytes (s3.cluster o.cluster).mem p n)) s3 fun _ s4 =>
             ends (homeWord o .w .atomic o.xd1 8) s4 fun _ _ => true) = true) : ∃ s2 r, Puts w o s s2 r := by
  rw [Bool.and_eq_true] at h1
  obtain ⟨_, s1, a1, h2⟩ := ended _ h2
  obtain ⟨b, t, a2, h2⟩ := ended _ h2
  obtain ⟨_, s3, a3, h2⟩ := ended _ h2
  rw [Bool.and_eq_true] at h2
  obtain ⟨_, s4, a5, h6⟩ := ended _ h2.2
  obtain ⟨b4, x, a6, _⟩ := ended _ h6
  exact ⟨_, _, p, s3, s4, ⟨s1, move_of h, gives (aCheck_quiet _ _ _) p h1.1, same (awaitBin_quiet _ _ _ _) h1.2, a1,
    by rw [if_neg hx]; exact ⟨b, t, a2, a3⟩, same (aPoison_quiet _ _ _ _) h2.1⟩, a5, by rw [if_neg hx]; exact ⟨b4, x, a6, rfl⟩, rfl⟩

/-- x1 a place of A space, x2 a global address, and control words: x6 of 256 bytes without point, x8 with rank 0 in DMASK, x10 of
no bytes; x7 and x9 are 0, x3 a signal address above x2's control word. -/
def copying : State :=
  xs [(1, 0x100), (2, 0x20000), (6, 0x1F00000100), (8, 0x1F01000100), (10, 0x1700000000), (12, 0x1F00000008), (13, 0x30000)] (windowed 0)

/-- COPY from A space to global memory on channel 3, of no bytes the other way on channel 0; MCST to the own rank; GET of 256 bytes
and PUT of 8 bytes with a signal. -/
theorem witness_copies : Met .copy 0x60 AcceptsCopy ∧ Met .copy 0x60 AcceptsCopy ∧ Met .mcst 0x61 AcceptsMulticast ∧ Met .get 0x62 Gets ∧
    Met .put 0x63 Puts :=
  ⟨met copying ⟨true, false, false, 6, 1, 2, 7⟩ (by decide +kernel)
     (acceptsCopy_of (by decide +kernel) (by decide +kernel) (by decide +kernel) (by decide +kernel) (by decide +kernel)),
   met copying ⟨true, false, false, 10, 2, 1, 8⟩ (by decide +kernel)
     (acceptsCopy_of (by decide +kernel) (by decide +kernel) (by decide +kernel) (by decide +kernel) (by decide +kernel)),
   met copying ⟨true, false, false, 8, 2, 1, 1⟩ (by decide +kernel)
     (acceptsMulticast_of (by decide +kernel) (by decide +kernel) (by decide +kernel) (by decide +kernel) (by decide +kernel)),
   met copying ⟨true, false, false, 6, 2, 1, 0⟩ (by decide +kernel) (gets_of 0x100 (by decide +kernel) (by decide +kernel) (by decide +kernel)),
   met copying ⟨true, false, false, 12, 1, 2, 0⟩ (by decide +kernel)
     (puts_of 0x100 (by decide +kernel) (by decide +kernel) (by decide +kernel) (by decide +kernel))⟩

theorem witness_pointers : Met .wptrP 0x65 ReadsPointer ∧ Met .wptrS 0x65 ReadsStatus ∧ Met .wptrT 0x65 ReadsStamp :=
  ⟨met base ⟨true, false, false, 3, 0, 0, 3⟩ (by decide +kernel) ⟨_, _, rfl, rfl⟩,
   met base ⟨true, false, false, 3, 0, 0, 7⟩ (by decide +kernel) ⟨_, _, rfl, rfl⟩,
   met base ⟨true, false, false, 3, 0, 0, 11⟩ (by decide +kernel) ⟨_, _, rfl, rfl⟩⟩

/-- The premises of WPTR's delivery into D and lk0 hold of wptr.p x3, c3, and the refused forms stand in a word. -/
theorem witness_pointer_delivery : (opsOf 0x65 ⟨true, false, false, 3, 0, 0, 3⟩ base).form.engine = .k ∧
    (opsOf 0x65 ⟨true, false, false, 3, 0, 0, 3⟩ base).form.d = .x ∧ (opsOf 0x65 ⟨true, false, false, 3, 0, 0, 3⟩ base).form.result = true ∧
    refuses none 0xE50C000C 3 = true ∧ refuses none 0xE50C0010 3 = true := by decide +kernel

/-- A sequencer of core 0 with its channel 0 as said. -/
def channel (c : Channel) : State := base.setSeq ⟨0, 0⟩ { base.seq ⟨0, 0⟩ with channels := (base.seq ⟨0, 0⟩).channels.set 0 c }

theorem synchronises_of {w : Slot} {o : Operands} {s : State}
    (h : (let q := seqOf o s
          ((List.finRange 4).all fun c => !named w c || !(q.channels[c]).busy) && (!w.f.getLsbD 4 || (s.core o.who.core).loads.isEmpty) &&
          ends (raiseDeliveries o ((List.finRange 4).filter (named w))) s fun _ t =>
            (List.finRange 4).all fun c => !named w c || !((seqOf o t).channels[c]).failed || ((seqOf o t).channels[c]).reported) = true) :
    ∃ s2 r, Synchronises w o s s2 r := by
  dsimp only at h
  rw [Bool.and_eq_true, Bool.and_eq_true] at h
  obtain ⟨_, t, h1, h2⟩ := ended _ h.2
  refine ⟨t, _, ?_, h1, fun c hn hf => ?_, rfl⟩
  · rintro (⟨c, hn, hb⟩ | ⟨hf, l, hl, _⟩)
    · have := List.all_eq_true.1 h.1.1 c (List.mem_finRange c)
      rw [hn, hb] at this
      simp at this
    · have := h.1.2
      rw [hf] at this
      simp at this
      rw [this] at hl
      simp at hl
  · have := List.all_eq_true.1 h2 c (List.mem_finRange c)
    rw [hn, hf] at this
    simpa using this

/-- ksyn of channel 0 and the loads: idle; busy; failed and not reported. -/
theorem witness_ksyn : Met .ksyn 0x66 Synchronises ∧ MetWait .ksyn 0x66 SynchroniserWaits ∧ MetTrap .ksyn 0x66 SynchroniserTraps := by
  refine ⟨met base ⟨true, false, false, 0, 0, 0, 31⟩ (by decide +kernel) (synchronises_of (by decide +kernel)),
    metWait (channel { busy := true }) ⟨true, false, false, 0, 0, 0, 1⟩ (by decide +kernel)
      ⟨_, _, _, Or.inl ⟨0, by decide, by decide +kernel⟩, rfl, rfl, rfl⟩, ?_⟩
  have h : ends (raiseDeliveries (opsOf 0x66 ⟨true, false, false, 0, 0, 0, 1⟩ (channel { failed := true })) [0])
      (opened (channel { failed := true })) (fun _ t =>
        decide (((t.seq ⟨0, 0⟩).channels[0]).failed = true ∧ ((t.seq ⟨0, 0⟩).channels[0]).reported = false ∧
          (t.seq ⟨0, 0⟩).bundle.replay = none)) = true := by decide +kernel
  obtain ⟨_, t, h1, h2⟩ := ended _ h
  have h2 := of_decide_eq_true h2
  refine metTrap (channel { failed := true }) ⟨true, false, false, 0, 0, 0, 1⟩ (by decide +kernel) _ 0x141 0 0
    ⟨?_, rfl, rfl, 0, t, h1, by decide, h2.1, h2.2.1, fun d hd => absurd hd (by omega), rfl, rfl⟩ ?_
  · rintro (⟨c, hn, hb⟩ | ⟨hf, _⟩)
    · revert hb hn
      revert c
      decide +kernel
    · revert hf
      decide
  · show ((State.setSeq t ⟨0, 0⟩ _).seq ⟨0, 0⟩).bundle.replay = none
    rw [State.seq_setSeq_same]
    exact h2.2.2

/-- A die copy card of 8 bytes at 0x20080; a task record of zeros, the kernel of the base's image, at 0x20000. -/
def submitting : State :=
  xs [(1, 0x20080), (2, 0x20000)] { mapped with dram := words [(0x20080, 0x0100000000000000), (0x200D0, 8)] mapped.dram }
/-- The same with a sequencer in line for room. -/
def lineOfOne : State :=
  submitting.setDie 0 { submitting.die 0 with roomQueue := [(⟨4, 0⟩, freshEntry 0 none [] noTask 0 0 [])] }

theorem room_of {s : State} {die g : Nat} (h : ((s.die die).roomQueue.isEmpty && decide ((s.die die).table.length +
    ((List.range 64).filter fun h => h ≠ g && hostWaits s die h).length < Config.tableEntries)) = true) : roomLeft s die g := by
  rw [Bool.and_eq_true, List.isEmpty_iff, decide_eq_true_eq] at h
  exact h
theorem submits_of {bytes : Nat} {check : Operands → Nat → List Byte → State → M Entry} {w : Slot} {o : Operands} {s : State}
    (h : ends (submitBytes o bytes) s (fun l s1 => ends (check o (s1.graphOf o.who) l s1) s1 fun e s3 =>
      (s3.die o.die).roomQueue.isEmpty && decide ((s3.die o.die).table.length +
        ((List.range 64).filter fun h => h ≠ e.graph && hostWaits s3 o.die h).length < Config.tableEntries)) = true) :
    ∃ s2 r, Submits bytes check w o s s2 r := by
  obtain ⟨l, s1, h1, h2⟩ := ended _ h
  obtain ⟨e, s3, h3, h4⟩ := ended _ h2
  exact ⟨_, _, l, e, s1, s3, h1, h3, room_of h4, rfl, rfl⟩
theorem submitterWaits_of {bytes : Nat} {check : Operands → Nat → List Byte → State → M Entry} {w : Slot} {o : Operands} {s : State}
    (h : ends (submitBytes o bytes) s (fun l s1 => ends (check o (s1.graphOf o.who) l s1) s1 fun _ s3 =>
      !(s3.die o.die).roomQueue.isEmpty) = true) : ∃ s2 k addr, SubmitterWaits bytes check w o s s2 k addr := by
  obtain ⟨l, s1, h1, h2⟩ := ended _ h
  obtain ⟨e, s3, h3, h4⟩ := ended _ h2
  exact ⟨_, _, _, l, e, s1, s3, h1, h3, fun hr => by simp [hr.1] at h4, rfl, rfl, rfl⟩

theorem witness_submitters : Met .job 0x64 (Submits 128 jobCheck) ∧ MetWait .job 0x64 (SubmitterWaits 128 jobCheck) ∧
    Met .task 0x70 (Submits 64 taskCheck) ∧ MetWait .task 0x70 (SubmitterWaits 64 taskCheck) :=
  ⟨met submitting ⟨true, false, false, 3, 1, 0, 0⟩ (by decide +kernel) (submits_of (by decide +kernel)),
   metWait lineOfOne ⟨true, false, false, 3, 1, 0, 0⟩ (by decide +kernel) (submitterWaits_of (by decide +kernel)),
   met submitting ⟨true, false, false, 3, 2, 0, 0⟩ (by decide +kernel) (submits_of (by decide +kernel)),
   metWait lineOfOne ⟨true, false, false, 3, 2, 0, 0⟩ (by decide +kernel) (submitterWaits_of (by decide +kernel))⟩

/-! ### Witnesses: the Y engine -/

/-- Point 23 of the team of core 0's task. -/
def pointed (p : Point) : State :=
  base.setCluster 0 { base.cluster 0 with teams := (base.cluster 0).teams.set 0 (some
    { die := 0, serial := 0, cores := [0], points := Vector.replicate 24 p }) }
/-- x1 = 2^28 − 1, x2 = 2^28, x3 = 2^61. -/
def counts (s : State) : State := xs [(1, 0xFFFFFFF), (2, 0x10000000), (3, 0x2000000000000000), (4, 5)] s
def point5 : Point := { init := true, expected := 5 }

theorem witness_rendezvous : Met .rvin 0x68 (Initialises false) ∧ Met .rvinB 0x68 (Initialises true) ∧ Met .rvinRd 0x68 ReadsPoint ∧
    Met .rvin 0x68 (Initialises false) ∧ Met .arv 0x69 (Arrives fun o => o.xa.toNat) ∧ Met .arvOne 0x69 (Arrives fun _ => 1) :=
  ⟨met (counts (pointed {})) ⟨true, false, false, 5, 1, 23, 0⟩ (by decide +kernel)
     ⟨_, _, by decide +kernel, by decide +kernel, fun h => absurd h (by decide +kernel), rfl, rfl⟩,
   met (counts (pointed {})) ⟨true, false, false, 5, 4, 23, 1⟩ (by decide +kernel)
     ⟨_, _, by decide +kernel, by decide +kernel, fun h => absurd h (by decide +kernel), rfl, rfl⟩,
   met (counts (pointed {})) ⟨true, false, false, 5, 0, 23, 2⟩ (by decide +kernel) ⟨_, _, rfl, rfl⟩,
   met (counts (pointed point5)) ⟨true, false, false, 5, 4, 23, 0⟩ (by decide +kernel)
     ⟨_, _, by decide +kernel, by decide +kernel, fun _ => by decide +kernel, rfl, rfl⟩,
   met (counts (pointed point5)) ⟨true, false, false, 5, 1, 23, 0⟩ (by decide +kernel)
     ⟨_, _, by decide +kernel, by decide +kernel, rfl, rfl⟩,
   met (counts (pointed {})) ⟨true, false, false, 5, 0, 23, 1⟩ (by decide +kernel) ⟨_, _, by decide, by decide, rfl, rfl⟩⟩

/-- The phase that x3 shows is not, and that x4 shows is, the point's: rvwt ends and waits. A count of 2^28 raises 0x181, one that
differs 0x182, a point not initialised 0x183, an early one 0x184. -/
theorem witness_rendezvous_waits : Met .rvwt 0x6A PhasePassed ∧ MetWait .rvwt 0x6A PhaseAwaited ∧ MetTrap .rvin 0x68 (InitialiserTraps false) ∧
    MetTrap .rvin 0x68 (InitialiserTraps false) ∧ MetTrap .rvinB 0x68 (InitialiserTraps true) ∧ MetTrap .rvwt 0x6A PhaseTraps ∧
    MetTrap .rvwt 0x6A PhaseTraps :=
  ⟨met (counts (pointed point5)) ⟨true, false, false, 5, 3, 23, 0⟩ (by decide +kernel)
     ⟨_, _, by decide +kernel, by decide +kernel, by rw [if_pos (by decide +kernel)]; exact ⟨rfl, rfl⟩⟩,
   metWait (counts (pointed point5)) ⟨true, false, false, 5, 4, 23, 0⟩ (by decide +kernel)
     ⟨_, _, _, by decide +kernel, by decide +kernel, by decide +kernel, by decide +kernel, rfl, rfl, rfl⟩,
   metTrap (counts (pointed {})) ⟨true, false, false, 5, 2, 23, 0⟩ (by decide +kernel) _ 0x181 _ _
     ⟨rfl, rfl, rfl, Or.inl ⟨by decide +kernel, rfl⟩⟩ (by decide +kernel),
   metTrap (counts (pointed point5)) ⟨true, false, false, 5, 1, 23, 0⟩ (by decide +kernel) _ 0x182 _ _
     ⟨rfl, rfl, rfl, Or.inr ⟨by decide +kernel, by decide +kernel, by decide +kernel, rfl⟩⟩ (by decide +kernel),
   metTrap (counts (pointed point5)) ⟨true, false, false, 5, 4, 23, 1⟩ (by decide +kernel) _ 0x182 _ _
     ⟨rfl, rfl, rfl, Or.inr ⟨by decide +kernel, by decide +kernel, by decide +kernel, rfl⟩⟩ (by decide +kernel),
   metTrap (counts (pointed {})) ⟨true, false, false, 5, 3, 23, 0⟩ (by decide +kernel) _ 0x183 _ _
     ⟨rfl, rfl, Or.inl ⟨by decide +kernel, rfl, rfl⟩⟩ (by decide +kernel),
   metTrap (counts (pointed { point5 with early := true })) ⟨true, false, false, 5, 3, 23, 0⟩ (by decide +kernel) _ 0x184 _ _
     ⟨rfl, rfl, Or.inr ⟨by decide +kernel, by decide +kernel, rfl, rfl⟩⟩ (by decide +kernel)⟩

/-- Windows of the tests: 0 attached to bin 0, 1 to 15 free of any bin, bin 0 owned, bin 1 free; x1 gives window 0 to rank 0's window 15
with no arrival, x2 shares window 0 of rank 0, x3 = 0. -/
def windows : State :=
  let s := xs [(1, 0x1F0F0000), (2, 0), (4, 5)] (windowed 0)
  s.setCluster 0 { s.cluster 0 with bins := (s.cluster 0).bins.set 1 { state := .free } }
/-- The same with window 1 shared from bin 0. -/
def shared : State :=
  windows.setCore 0 { windows.core 0 with windows := (windows.core 0).windows.set 1 { att := true, shr := true, bin := 0 } }

/-- Every condition of a reservation. -/
def givable (o : Operands) (s : State) (p : State → Bool) : Bool :=
  let g := o.xa
  decide (g.extractLsb' 29 35 = 0 ∧ g.extractLsb' 20 4 = 0 ∧ g.extractLsb' 10 6 = 0 ∧ g.extractLsb' 4 4 = 0 ∧
    (givePoint g ≤ 23 ∨ givePoint g = 31)) && decide (giveRank g < teamOf o s) && (seqOf o s).wait.isNone &&
    ends (raiseEarlier o.who (Scope.cluster.max o.scope)) s fun _ s1 =>
      let e := windowAt s1 o.who.core (giveFrom g)
      let into := windowAt s1 (s1.rankCore o.who (giveRank g)) (giveTo g)
      decide (e.att = true ∧ e.shr = false ∧ e.drn = false ∧ s1.hasSharers o.cluster e.bin = false ∧ into.att = false ∧
        into.inc = false) && p s1
theorem reserves_of {o : Operands} {s : State} {p : State → Bool} (h : givable o s p = true) :
    ∃ s1, GiveReserves o s s1 ∧ p s1 = true := by
  simp only [givable, Bool.and_eq_true, Option.isNone_iff_eq_none] at h
  obtain ⟨_, s1, h1, h2⟩ := ended _ h.2
  rw [Bool.and_eq_true] at h2
  exact ⟨s1, ⟨(of_decide_eq_true h.1.1.1 : _ ∧ _ ∧ _ ∧ _ ∧ _), of_decide_eq_true h.1.1.2, h.1.2, h1,
    (of_decide_eq_true h2.1 : _ ∧ _ ∧ _ ∧ _ ∧ _ ∧ _)⟩, h2.2⟩

theorem canGive_of {w : Slot} {o : Operands} {s : State}
    (h : givable o s (fun s1 => !(reservedFor o s1).inFlight o.who.core (giveFrom o.xa).toNat) = true) : CanGive w o s :=
  (reserves_of h).imp fun _ h => ⟨h.1, by simpa using h.2⟩
theorem giveDrains_of {w : Slot} {o : Operands} {s : State}
    (h : givable o s (fun s1 => (reservedFor o s1).inFlight o.who.core (giveFrom o.xa).toNat) = true) :
    ∃ s2 k addr, GiveDrains w o s s2 k addr :=
  (reserves_of h).elim fun s1 h => ⟨_, _, _, s1, h.1, h.2, rfl, rfl, rfl⟩

/-- A transfer of core 0's group 1 into window 0 is in progress: 256 bytes to A-space address 0. -/
def inProgress : State :=
  let t : Transfer := { src := 0x20000, dst := 0, len := 256, srcA := false, dstA := true, rv := 31, split := false, dests := [],
                        mcst := false, scope := .core, cores := [0], team := none }
  let q := windows.seq ⟨0, 1⟩
  windows.setSeq ⟨0, 1⟩ { q with channels := q.channels.set 0 { busy := true, transfer := some t } }

theorem allocatable_of {k : Cluster} {b : Fin 64}
    (h : decide ((k.bins[b]).state = .free ∧ (k.bins[b]).marked = false ∧ (∀ h, h ∈ k.held → h.2 ≠ b) ∧ owedBins k = 0) = true) :
    Allocatable k b :=
  have h := of_decide_eq_true h
  ⟨⟨h.1, h.2.1, h.2.2.1⟩, [], List.nodup_nil, (fun _ hc => nomatch hc), Nat.le_of_eq h.2.2.2⟩
theorem owned_of {k : Cluster} {b : Fin 64} (h : (k.bins[b]).state ≠ .free) : ¬Allocatable k b := fun ha => h ha.1.1

theorem below_one (c : Fin 64) (hc : c < 1) : (((opened windows).cluster 0).bins[c]).state ≠ .free := by
  revert c
  decide +kernel

theorem witness_windows : StoodWith .give 0x6B CanGive ∧ Met .bmapAlloc 0x6C (Allocates false) ∧ Met .bmapAllocz 0x6C (Allocates true) ∧
    Met .bmapFree 0x6C Frees ∧ Met .bmapFree 0x6C Frees ∧ Met .bmapShare 0x6C Shares ∧ Met .bmapRd 0x6C ReadsWindow :=
  ⟨stoodWith windows ⟨true, false, false, 0, 1, 0, 0⟩ (by decide +kernel) (canGive_of (by decide +kernel)),
   met windows ⟨true, false, false, 5, 0, 15, 0⟩ (by decide +kernel)
     ⟨_, _, 1, by decide +kernel, by decide +kernel, allocatable_of (by decide +kernel), fun c hc => owned_of (below_one c hc), rfl, rfl⟩,
   met windows ⟨true, false, false, 5, 0, 1, 1⟩ (by decide +kernel)
     ⟨_, _, 1, by decide +kernel, by decide +kernel, allocatable_of (by decide +kernel), fun c hc => owned_of (below_one c hc), rfl, rfl⟩,
   met windows ⟨true, false, false, 5, 0, 0, 2⟩ (by decide +kernel)
     ⟨_, _, by decide +kernel, by decide +kernel, by decide +kernel, by decide +kernel, by decide +kernel, by decide +kernel, rfl, rfl⟩,
   met shared ⟨true, false, false, 5, 0, 1, 2⟩ (by decide +kernel)
     ⟨_, _, by decide +kernel, by decide +kernel, by decide +kernel, by decide +kernel, by decide +kernel, by decide +kernel, rfl, rfl⟩,
   met windows ⟨true, false, false, 5, 2, 1, 3⟩ (by decide +kernel)
     ⟨_, _, by decide +kernel, by decide +kernel, by decide +kernel, by decide +kernel, by decide +kernel, by decide +kernel,
       by decide +kernel, by decide +kernel, rfl, rfl⟩,
   met windows ⟨true, false, false, 5, 0, 15, 4⟩ (by decide +kernel) ⟨_, _, rfl, rfl⟩⟩

/-- GIVE and bmap.free drain while the transfer into their window goes on. -/
theorem witness_drains : MetWait .give 0x6B GiveDrains ∧ MetWait .bmapFree 0x6C FreeDrains :=
  ⟨metWait inProgress ⟨true, false, false, 0, 1, 0, 0⟩ (by decide +kernel) (giveDrains_of (by decide +kernel)),
   metWait inProgress ⟨true, false, false, 5, 0, 0, 2⟩ (by decide +kernel)
     ⟨_, _, _, by decide +kernel, by decide +kernel, by decide +kernel, by decide +kernel, by decide +kernel, rfl, by decide +kernel, rfl, rfl⟩⟩

/-- An attached window raises 0x0A0; no free bin 0x0A4. -/
theorem witness_no_bin : MetTrap .bmapAlloc 0x6C (AllocatorTraps) ∧ MetTrap .bmapAllocz 0x6C AllocatorTraps := by
  have h : ∀ b : Fin 64, (((opened (windowed 0)).cluster 0).bins[b]).state ≠ .free := by decide +kernel
  exact ⟨metTrap windows ⟨true, false, false, 5, 0, 0, 0⟩ (by decide +kernel) _ 0x0A0 _ _
     ⟨rfl, rfl, rfl, Or.inl ⟨by decide +kernel, rfl⟩⟩ (by decide +kernel),
   metTrap (windowed 0) ⟨true, false, false, 5, 0, 15, 1⟩ (by decide +kernel) _ 0x0A4 _ _
     ⟨rfl, rfl, rfl, Or.inr ⟨by decide +kernel, fun b => owned_of (h b), rfl⟩⟩ (by decide +kernel)⟩

/-- Window 0 of core 0 changed; x6 a give word with a reserved bit, x7 one that names rank 3, x8 the own window as the receiver's. -/
def spoiled (e : Window) : State :=
  let s := xs [(6, 0x9F0F0000), (7, 0x1F0F0300), (8, 0x1F000000)] windows
  s.setCore 0 { s.core 0 with windows := (s.core 0).windows.set 0 e }

theorem giveTraps_of {w : Slot} {o : Operands} {s : State} (code : Nat) (hg : decide ((o.xa).extractLsb' 29 35 = 0 ∧ o.xa.extractLsb' 20 4 = 0 ∧
      o.xa.extractLsb' 10 6 = 0 ∧ o.xa.extractLsb' 4 4 = 0 ∧ (givePoint o.xa ≤ 23 ∨ givePoint o.xa = 31)) = true)
    (hw : (seqOf o s).wait = none) (hr : giveRank o.xa < teamOf o s)
    (h : ends (raiseEarlier o.who (Scope.cluster.max o.scope)) s (fun _ t =>
      let e := windowAt t o.who.core (giveFrom o.xa)
      let into := windowAt t (t.rankCore o.who (giveRank o.xa)) (giveTo o.xa)
      let shared := e.shr = true ∨ e.drn = true ∨ t.hasSharers o.cluster e.bin = true
      decide ((t.seq o.who).bundle.replay = none ∧ ((e.att = false ∧ code = 0x081) ∨ (e.att = true ∧ shared ∧ code = 0x0A3) ∨
        (e.att = true ∧ ¬shared ∧ (into.att = true ∨ into.inc = true) ∧ code = 0x0A0)))) = true) :
    ∃ s2, GiveTraps w o s s2 code 0 0 ∧ (s2.seq o.who).bundle.replay = none := by
  obtain ⟨_, s2, h1, h2⟩ := ended _ h
  have h2 := of_decide_eq_true h2
  exact ⟨s2, ⟨hw, rfl, rfl, .inr (.inr ⟨(of_decide_eq_true hg : _ ∧ _ ∧ _ ∧ _ ∧ _), hr, h1, h2.2⟩)⟩, h2.1⟩
theorem metGive (a : BitVec 6) (e : Window) (code : Nat) (hs : stands .give 0x6B ⟨true, false, false, 0, a, 0, 0⟩ (spoiled e) = true)
    (h : ∃ s2, GiveTraps ⟨true, false, false, 0, a, 0, 0⟩ (opsOf 0x6B ⟨true, false, false, 0, a, 0, 0⟩ (spoiled e)) (opened (spoiled e)) s2
      code 0 0 ∧ (s2.seq (spoiled e).focus).bundle.replay = none) : MetTrap .give 0x6B GiveTraps :=
  h.elim fun s2 h => metTrap (spoiled e) ⟨true, false, false, 0, a, 0, 0⟩ hs s2 code 0 0 h.1 h.2

/-- GIVE: a reserved bit, a rank outside the team, a detached window, a shared one, the receiver's window in use. -/
theorem witness_give_traps : MetTrap .give 0x6B GiveTraps ∧ MetTrap .give 0x6B GiveTraps ∧ MetTrap .give 0x6B GiveTraps ∧
    MetTrap .give 0x6B GiveTraps ∧ MetTrap .give 0x6B GiveTraps :=
  ⟨metTrap (spoiled {}) ⟨true, false, false, 0, 6, 0, 0⟩ (by decide +kernel) _ 0x0A1 0 0
     ⟨by decide +kernel, rfl, rfl, .inl ⟨by unfold GiveWord; decide +kernel, rfl, rfl⟩⟩ (by decide +kernel),
   metTrap (spoiled {}) ⟨true, false, false, 0, 7, 0, 0⟩ (by decide +kernel) _ 0x0A2 0 0
     ⟨by decide +kernel, rfl, rfl, .inr (.inl ⟨by unfold GiveWord; decide +kernel, by decide +kernel, rfl, rfl⟩)⟩ (by decide +kernel),
   metGive 1 {} 0x081 (by decide +kernel) (giveTraps_of _ (by decide +kernel) (by decide +kernel) (by decide +kernel) (by decide +kernel)),
   metGive 1 { att := true, shr := true } 0x0A3 (by decide +kernel)
     (giveTraps_of _ (by decide +kernel) (by decide +kernel) (by decide +kernel) (by decide +kernel)),
   metGive 8 { att := true } 0x0A0 (by decide +kernel)
     (giveTraps_of _ (by decide +kernel) (by decide +kernel) (by decide +kernel) (by decide +kernel))⟩

/-- bmap.free of a detached window, of a draining one, of a bin that window 1 shares. -/
theorem witness_free_traps : MetTrap .bmapFree 0x6C FreeTraps ∧ MetTrap .bmapFree 0x6C FreeTraps ∧ MetTrap .bmapFree 0x6C FreeTraps :=
  ⟨metTrap windows ⟨true, false, false, 5, 0, 15, 2⟩ (by decide +kernel) _ 0x081 0 0
     ⟨by decide +kernel, rfl, rfl, rfl, .inl ⟨by decide +kernel, by decide +kernel, rfl⟩⟩ (by decide +kernel),
   metTrap (spoiled { att := true, drn := true }) ⟨true, false, false, 5, 0, 0, 2⟩ (by decide +kernel) _ 0x0A0 0 0
     ⟨by decide +kernel, rfl, rfl, rfl, .inr (.inl ⟨.inr ⟨by decide +kernel, by decide +kernel⟩, rfl⟩)⟩ (by decide +kernel),
   metTrap shared ⟨true, false, false, 5, 0, 0, 2⟩ (by decide +kernel) _ 0x0A3 0 0
     ⟨by decide +kernel, rfl, rfl, rfl, .inr (.inr ⟨by decide +kernel, by decide +kernel, by decide +kernel, by decide +kernel,
       by decide +kernel, rfl⟩)⟩ (by decide +kernel)⟩

/-- bmap.share into a window in use; of a word with a reserved bit, of rank 3, of a window that is not attached. -/
theorem witness_share_traps : MetTrap .bmapShare 0x6C ShareTraps ∧ MetTrap .bmapShare 0x6C ShareTraps ∧
    MetTrap .bmapShare 0x6C ShareTraps ∧ MetTrap .bmapShare 0x6C ShareTraps := by
  exact ⟨metTrap windows ⟨true, false, false, 5, 2, 0, 3⟩ (by decide +kernel) _ 0x0A0 0 0
     ⟨rfl, rfl, rfl, .inl ⟨.inl (by decide +kernel), rfl⟩⟩ (by decide +kernel),
   metTrap (xs [(6, 4)] windows) ⟨true, false, false, 5, 6, 1, 3⟩ (by decide +kernel) _ 0x0A1 0 0
     ⟨rfl, rfl, rfl, .inr (.inl ⟨by decide +kernel, by decide +kernel, rfl⟩)⟩ (by decide +kernel),
   metTrap (xs [(6, 3)] windows) ⟨true, false, false, 5, 6, 1, 3⟩ (by decide +kernel) _ 0x0A2 0 0
     ⟨rfl, rfl, rfl, .inr (.inr (.inl ⟨by decide +kernel, by decide +kernel, by decide +kernel, rfl⟩))⟩ (by decide +kernel),
   metTrap (xs [(6, 0xF00)] windows) ⟨true, false, false, 5, 6, 1, 3⟩ (by decide +kernel) _ 0x0A3 0 0
     ⟨rfl, rfl, rfl, .inr (.inr (.inr ⟨by decide +kernel, by decide +kernel, by decide +kernel, .inl (by decide +kernel), rfl⟩))⟩
     (by decide +kernel)⟩

/-- A flit in queue 7 of cluster 0; a flit in the send register of core 0. -/
def flit1 : Flit := { payload := 1, src := 2, stamp := 3, time := 4 }
def queued : State := mapped.setCluster 0 { mapped.cluster 0 with queues := (mapped.cluster 0).queues.set 7 [flit1] }
def sending : State :=
  mapped.setCore 0 { mapped.core 0 with sendReg := some { flit := flit1, pkg := 0, cluster := 0, queue := 7 } }

theorem sends_of {w : Slot} {o : Operands} {s : State}
    (h : decide (o.xb.extractLsb' 32 16 = 0 ∧ o.xb.extractLsb' 3 10 = 0 ∧ (o.xb.extractLsb' 20 12 ≠ s.sirxon.package →
      (fabricLink s.nets (o.xb.extractLsb' 20 12).toNat).isSome = true)) = true)
    (h1 : ends (raiseEarlier o.who ((routeScope s o o.xb).max o.scope)) s (fun _ t => decide ((t.core o.who.core).sendReg = none)) = true) :
    ∃ s2 r, Sends w o s s2 r := by
  obtain ⟨_, t, h2, h3⟩ := ended _ h1
  have h := of_decide_eq_true h
  exact ⟨_, _, t, h.1, h.2.1, h.2.2, h2, of_decide_eq_true h3, rfl, rfl⟩
theorem senderWaits_of {w : Slot} {o : Operands} {s : State}
    (h : decide (o.xb.extractLsb' 32 16 = 0 ∧ o.xb.extractLsb' 3 10 = 0 ∧ (o.xb.extractLsb' 20 12 ≠ s.sirxon.package →
      (fabricLink s.nets (o.xb.extractLsb' 20 12).toNat).isSome = true)) = true)
    (h1 : ends (raiseEarlier o.who ((routeScope s o o.xb).max o.scope)) s (fun _ t => (t.core o.who.core).sendReg.isSome) = true) :
    ∃ s2 k addr, SenderWaits w o s s2 k addr := by
  obtain ⟨_, t, h2, h3⟩ := ended _ h1
  have h := of_decide_eq_true h
  exact ⟨t, _, _, h.1, h.2.1, h.2.2, h2, h3, rfl, rfl⟩

theorem receives_of {w : Slot} {o : Operands} {s : State} (f : Flit) (rest : List Flit) (h : (s.cluster o.cluster).queues[queueAt w] = f :: rest)
    (h1 : (s.cluster o.cluster).receivers[queueAt w] = [])
    (h2 : (let v : Vec := (0 : BitVec 1664) ++ f.stamp ++ f.src ++ f.payload
           decide (v.extractLsb' 0 256 = f.payload ∧ v.extractLsb' 256 64 = f.src ∧ v.extractLsb' 320 64 = f.stamp ∧
             v.extractLsb' 384 1664 = 0)) = true) : ∃ s2 r, Receives w o s s2 r :=
  ⟨_, _, f, rest, _, h, Or.inr h1, rfl, (of_decide_eq_true h2).1, (of_decide_eq_true h2).2.1, (of_decide_eq_true h2).2.2.1,
    (of_decide_eq_true h2).2.2.2, rfl⟩

theorem witness_messages : Met .send 0x6D Sends ∧ MetWait .send 0x6D SenderWaits ∧ Met .recv 0x6E Receives ∧
    MetWait .recv 0x6E ReceiverWaits ∧ Met .mprb 0x6F ProbesQueue :=
  ⟨met (xs [(2, 7)] mapped) ⟨true, false, false, 0, 1, 2, 0⟩ (by decide +kernel) (sends_of (by decide +kernel) (by decide +kernel)),
   metWait (xs [(2, 7)] sending) ⟨true, false, false, 0, 1, 2, 0⟩ (by decide +kernel) (senderWaits_of (by decide +kernel) (by decide +kernel)),
   met queued ⟨true, false, false, 5, 0, 7, 0⟩ (by decide +kernel) (receives_of flit1 [] (by decide +kernel) (by decide +kernel) (by decide +kernel)),
   metWait queued ⟨true, false, false, 5, 0, 6, 0⟩ (by decide +kernel) ⟨_, _, _, Or.inl (by decide +kernel), rfl, rfl, rfl⟩,
   met queued ⟨true, false, false, 5, 0, 7, 0⟩ (by decide +kernel) ⟨_, _, rfl, rfl⟩⟩

/-- The stamp is 10; x1 = 10, x2 = 11. -/
def atTen : State := xs [(1, 10), (2, 11)] { base with stamp := 10 }
theorem witness_time : Met .timeNow 0x71 ReadsStampNow ∧ Met .timeUntil 0x71 StampReached ∧ MetWait .timeUntil 0x71 StampAwaited ∧
    Met .yld 0x72 YieldEnds ∧ MetWait .yld 0x72 YieldWaits ∧ Met .hlth 0x73 ReadsHealth ∧ Met .hlth 0x73 ReadsHealth :=
  ⟨met atTen ⟨true, false, false, 5, 0, 0, 0⟩ (by decide +kernel) ⟨_, _, rfl, rfl⟩,
   met atTen ⟨true, false, false, 5, 1, 0, 1⟩ (by decide +kernel) ⟨_, _, rfl, by rw [if_pos (by decide +kernel)]⟩,
   metWait atTen ⟨true, false, false, 5, 2, 0, 1⟩ (by decide +kernel) ⟨_, _, _, by decide +kernel, by decide +kernel, rfl, rfl, rfl⟩,
   met atTen ⟨true, false, false, 5, 0, 0, 0⟩ (by decide +kernel) ⟨_, _, 0, by decide +kernel, rfl, rfl⟩,
   metWait atTen ⟨true, false, false, 5, 1, 0, 0⟩ (by decide +kernel) ⟨_, _, _, by decide +kernel, rfl, rfl, rfl⟩,
   met atTen ⟨true, false, false, 5, 0, 0, 0⟩ (by decide +kernel) ⟨_, _, rfl, rfl⟩,
   met atTen ⟨true, false, false, 5, 0, 8, 0⟩ (by decide +kernel) ⟨_, _, rfl, rfl⟩⟩

/-! ### Witnesses: waits -/

/-- A wait of core 0's group 0 from cycle 0 on, with its operands as read at issue. -/
def wait1 (k : WaitKind) (op : BitVec 7) (w : Slot) (a b : Vec) : Wait := { kind := k, op := op, w := w, since := 0, opA := a, opB := b }
def waiting (p : Wait) (s : State) : State := s.setSeq ⟨0, 0⟩ { s.seq ⟨0, 0⟩ with wait := some p }
def waitForm (s : State) (p : Wait) : Form :=
  (form p.op p.w (s.seq ⟨0, 0⟩).waitLit.isSome).getD { engine := .x, d := .unused, a := .unused, b := .unused }
def waitOps (s : State) (p : Wait) : Operands := waitOperands s ⟨0, 0⟩ p (waitForm s p) (s.seq ⟨0, 0⟩).waitLit
def waitOk (s : State) (p : Wait) (kind : WaitKind) (op : BitVec 7) : Bool :=
  decide ((s.seq ⟨0, 0⟩).wait = some p ∧ p.kind = kind ∧ p.op = op) && (form p.op p.w (s.seq ⟨0, 0⟩).waitLit.isSome).isSome

/-- A state and a wait meet what Resumes, or ResumesWith, asks. -/
def MetResume (kind : WaitKind) (op : BitVec 7) (effect : Slot → Operands → State → State → Result → Prop) : Prop :=
  ∃ (s : State) (who : SeqId) (p : Wait) (fm : Form) (s2 : State) (r : Result), (s.seq who).wait = some p ∧ p.kind = kind ∧ p.op = op ∧
    form op p.w (s.seq who).waitLit.isSome = some fm ∧ effect p.w (waitOperands s who p fm (s.seq who).waitLit) s s2 r
def MetResumeWith (kind : WaitKind) (op : BitVec 7) (pre : Slot → Operands → State → Prop) : Prop :=
  ∃ (s : State) (who : SeqId) (p : Wait) (fm : Form), (s.seq who).wait = some p ∧ p.kind = kind ∧ p.op = op ∧
    form op p.w (s.seq who).waitLit.isSome = some fm ∧ pre p.w (waitOperands s who p fm (s.seq who).waitLit) s

theorem waitForm_of {s : State} {p : Wait} {kind : WaitKind} {op : BitVec 7} (h : waitOk s p kind op = true) :
    (s.seq ⟨0, 0⟩).wait = some p ∧ p.kind = kind ∧ p.op = op ∧ form op p.w (s.seq ⟨0, 0⟩).waitLit.isSome = some (waitForm s p) := by
  simp only [waitOk, Bool.and_eq_true, decide_eq_true_eq] at h
  obtain ⟨⟨h1, h2, h3⟩, h4⟩ := h
  obtain ⟨f, hf⟩ := Option.isSome_iff_exists.1 h4
  exact ⟨h1, h2, h3, by simp [waitForm, ← h3, hf]⟩
theorem resume {kind : WaitKind} {op : BitVec 7} {effect : Slot → Operands → State → State → Result → Prop} (s : State) (p : Wait)
    (h : waitOk s p kind op = true) (he : ∃ s2 r, effect p.w (waitOps s p) s s2 r) : MetResume kind op effect :=
  he.elim fun _ he => he.elim fun _ he => ⟨s, ⟨0, 0⟩, p, _, _, _, (waitForm_of h).1, (waitForm_of h).2.1, (waitForm_of h).2.2.1,
    (waitForm_of h).2.2.2, he⟩
theorem resumeWith {kind : WaitKind} {op : BitVec 7} {pre : Slot → Operands → State → Prop} (s : State) (p : Wait)
    (h : waitOk s p kind op = true) (he : pre p.w (waitOps s p) s) : MetResumeWith kind op pre :=
  ⟨s, ⟨0, 0⟩, p, _, (waitForm_of h).1, (waitForm_of h).2.1, (waitForm_of h).2.2.1, (waitForm_of h).2.2.2, he⟩

/-- The slots that wait: v5 or x5 from operand A, B. -/
def slotA (f : BitVec 5) : Slot := ⟨true, false, false, 5, 1, 0, f⟩
def later (s : State) : State := { s with cycle := 5 }
def mwtWait : Wait := wait1 .mwt 0x29 (slotA 0) 1 0
def armed : State := later (waiting mwtWait (monitored false))

theorem witness_monitor_events : MetResume .mwt 0x29 (EndsByEvent 1) ∧ MetResume .mwt 0x29 (EndsByLimit 1) :=
  ⟨resume (waiting mwtWait base) mwtWait (by decide +kernel) ⟨_, _, ⟨2, by decide +kernel, rfl, rfl⟩, by decide +kernel⟩,
   resume armed mwtWait (by decide +kernel) ⟨_, _, ⟨1, by decide +kernel, rfl, rfl⟩, by decide +kernel⟩⟩

theorem residencyEnds_of {w : Slot} {o : Operands} {s : State}
    (h : ends (pageState o o.xa.toNat) s (fun x _ => decide (x = .resident)) = true) : ∃ s2 r, ResidencyEnds w o s s2 r := by
  obtain ⟨x, t, h1, h2⟩ := ended _ h
  exact ⟨t, _, Or.inl ⟨by rw [h1, of_decide_eq_true h2], rfl⟩⟩
theorem residencyFails_of {w : Slot} {o : Operands} {s : State} (die page : Nat)
    (h : ends (pageState o o.xa.toNat) s (fun x t => decide (x = .away die page) && (t.die die).residencyFailed.contains page) = true) :
    ∃ s2 r, ResidencyEnds w o s s2 r := by
  obtain ⟨x, t, h1, h2⟩ := ended _ h
  rw [Bool.and_eq_true] at h2
  exact ⟨t, _, Or.inr (Or.inl ⟨die, page, by rw [h1, of_decide_eq_true h2.1], .inl ⟨by simpa using h2.2, rfl⟩⟩)⟩
theorem residencyFailsFar_of {w : Slot} {o : Operands} {s : State} (page : Nat)
    (h : ends (pageState o o.xa.toNat) s (fun x t => decide (x = .farAway page) && t.nets.refused.contains page) = true) :
    ∃ s2 r, ResidencyEnds w o s s2 r := by
  obtain ⟨x, t, h1, h2⟩ := ended _ h
  rw [Bool.and_eq_true] at h2
  exact ⟨t, _, Or.inr (Or.inr ⟨page, by rw [h1, of_decide_eq_true h2.1], .inl ⟨by simpa using h2.2, rfl⟩⟩)⟩
def preqWait : Wait := wait1 .preq 0x2B (slotA 1) 0x20000 0
def preqFar : Wait := wait1 .preq 0x2B (slotA 1) 0x100 0

def preqFarther : Wait := wait1 .preq 0x2B (slotA 1) 0x10000000000000 0
theorem witness_residency_events : MetResume .preq 0x2B ResidencyEnds ∧ MetResume .preq 0x2B ResidencyEnds ∧
    MetResume .preq 0x2B ResidencyEnds :=
  ⟨resume (waiting preqWait mapped) preqWait (by decide +kernel) (residencyEnds_of (by decide +kernel)),
   resume ((waiting preqFar evicted).setDie 0 { evicted.die 0 with residencyFailed := [0] }) preqFar (by decide +kernel)
     (residencyFails_of 0 0 (by decide +kernel)),
   resume { waiting preqFarther farPage with nets := { farPage.nets with refused := [0x1000000000] } } preqFarther (by decide +kernel)
     (residencyFailsFar_of 0x1000000000 (by decide +kernel))⟩

def pushWait : Wait := wait1 .queue 0x2C ⟨true, false, false, 0, 1, 2, 0⟩ 7 0x100
def popWait : Wait := wait1 .queue 0x2D (slotA 0) 0x100 0

theorem witness_queue_events : MetResume .queue 0x2C (fun w => Pushes (w.f = 0) w) ∧ MetResume .queue 0x2D (fun w => Pops (w.f = 0) w) :=
  ⟨resume (waiting pushWait (windowed 1)) pushWait (by decide +kernel)
     (pushes_of 0x100 (word 1) (by decide +kernel) (by decide +kernel) (by decide +kernel)),
   resume (waiting popWait (windowed 1)) popWait (by decide +kernel)
     (pops_of 0x100 (word 1) (by decide +kernel) (by decide +kernel) (by decide +kernel))⟩

def ksynWait : Wait := wait1 .ksyn 0x66 ⟨true, false, false, 0, 0, 0, 31⟩ 0 0
def rvwtWait : Wait := wait1 .rvwt 0x6A ⟨true, false, false, 5, 1, 23, 0⟩ 0x2000000000000000 0
def recvWait : Wait := wait1 .recv 0x6E ⟨true, false, false, 5, 0, 7, 0⟩ 0 0
def timeWait : Wait := wait1 .time 0x71 (slotA 1) 10 0
def yldWait (n : Vec) : Wait := wait1 .yld 0x72 (slotA 0) n 0

theorem witness_events : MetResume .ksyn 0x66 Synchronises ∧ MetResume .rvwt 0x6A PhasePassed ∧ MetResume .recv 0x6E Receives ∧
    MetResume .time 0x71 StampReached ∧ MetResume .yld 0x72 YieldsOnEvent ∧ MetResume .yld 0x72 YieldsOnTime :=
  ⟨resume (waiting ksynWait base) ksynWait (by decide +kernel) (synchronises_of (by decide +kernel)),
   resume (waiting rvwtWait (pointed point5)) rvwtWait (by decide +kernel)
     ⟨_, _, by decide +kernel, by decide +kernel, by rw [if_pos (by decide +kernel)]; exact ⟨rfl, rfl⟩⟩,
   resume (waiting recvWait queued) recvWait (by decide +kernel)
     (receives_of flit1 [] (by decide +kernel) (by decide +kernel) (by decide +kernel)),
   resume (waiting timeWait atTen) timeWait (by decide +kernel) ⟨_, _, rfl, by rw [if_pos (by decide +kernel)]⟩,
   resume (waiting (yldWait 100) (monitored true)) (yldWait 100) (by decide +kernel) ⟨_, _, ⟨4, by decide +kernel, rfl, rfl⟩, by decide +kernel⟩,
   resume (later (waiting (yldWait 5) base)) (yldWait 5) (by decide +kernel) ⟨_, _, ⟨0, by decide +kernel, rfl, rfl⟩, by decide +kernel⟩⟩

def giveWait : Wait := wait1 .drain 0x6B ⟨true, false, false, 0, 1, 0, 0⟩ 0x1F0F0000 0
def freeWait : Wait := wait1 .drain 0x6C ⟨true, false, false, 5, 0, 0, 2⟩ 0 0
/-- Window 0 draining, window 15 incoming. -/
def draining (s : State) : State :=
  s.setCore 0 { s.core 0 with windows := ((s.core 0).windows.set 0 { att := true, drn := true, bin := 0 }).set 15 { inc := true } }
theorem witness_drain_events : MetResumeWith .drain 0x6B GiveDrained ∧ MetResume .drain 0x6C FreeDrained :=
  ⟨resumeWith (waiting giveWait (draining windows)) giveWait (by decide +kernel)
     ⟨by unfold GiveWord; decide +kernel, by decide +kernel, by decide +kernel, by decide +kernel, by decide +kernel⟩,
   resume (waiting freeWait (draining windows)) freeWait (by decide +kernel) ⟨_, _, by decide +kernel, rfl, rfl⟩⟩

/-- A state and a wait meet what Expires, or Resends, asks; the limit itself is the boundary. -/
def MetExpiry (kind : WaitKind) (ops : BitVec 7 → Prop) (limit : Nat) (ready : State → SeqId → Wait → Prop) : Prop :=
  ∃ (s : State) (who : SeqId) (p : Wait) (fm : Form), (s.seq who).wait = some p ∧ p.kind = kind ∧ ops p.op ∧ limit ≤ s.cycle - p.since ∧
    ready s who p ∧ (s.seq who).bundle.replay = none ∧ form p.op p.w (s.seq who).bundle.lit.isSome = some fm
def MetResend (kind : WaitKind) (limit : Nat) : Prop :=
  ∃ (s : State) (who : SeqId) (p : Wait), (s.seq who).wait = some p ∧ p.kind = kind ∧ limit ≤ s.cycle - p.since ∧
    (s.seq who).bundle.resent = false
/-- A wait at its limit, its request sent twice. -/
def atLimit (n : Nat) (p : Wait) (s : State) : State :=
  { s.setSeq ⟨0, 0⟩ { s.seq ⟨0, 0⟩ with wait := some p, bundle := { (s.seq ⟨0, 0⟩).bundle with resent := true } } with cycle := n }
theorem expiry {kind : WaitKind} {ops : BitVec 7 → Prop} {limit : Nat} {ready : State → SeqId → Wait → Prop} (s : State) (p : Wait)
    (h : (decide ((s.seq ⟨0, 0⟩).wait = some p ∧ p.kind = kind ∧ limit ≤ s.cycle - p.since ∧ (s.seq ⟨0, 0⟩).bundle.replay = none) &&
      (form p.op p.w (s.seq ⟨0, 0⟩).bundle.lit.isSome).isSome) = true) (ho : ops p.op) (hr : ready s ⟨0, 0⟩ p) :
    MetExpiry kind ops limit ready := by
  rw [Bool.and_eq_true, decide_eq_true_eq] at h
  obtain ⟨fm, hf⟩ := Option.isSome_iff_exists.1 h.2
  exact ⟨s, ⟨0, 0⟩, p, fm, h.1.1, h.1.2.1, ho, h.1.2.2.1, hr, h.1.2.2.2, hf⟩

/-- The phase that B shows is the point's. -/
def rvwtWait' : Wait := wait1 .rvwt 0x6A ⟨true, false, false, 5, 1, 23, 0⟩ 0 0
theorem still_of {kind : WaitKind} {rel : Wait → Slot → Operands → State → State → WaitKind → Word → Prop} {s : State} {p : Wait}
    (hr : rel p p.w (waitOps s p) s s kind 0) :
    StillAwaits kind rel s ⟨0, 0⟩ p := by
  intro fm hf
  have : waitForm s p = fm := by simp [waitForm, hf]
  rw [← this]
  exact hr
theorem stillPops_of {w : Slot} {o : Operands} {s : State} (p : Nat) (c : ControlWord) (h : wordOk o o.xa s p c = true)
    (h2 : decide ((w.f = 0 → c.esz ≤ 3) ∧ occupancy c = 0) = true) :
    QueueWaits (decide (popWait.op = 0x2C)) (decide (w.f = 0)) w o s s .queue 0 :=
  ⟨p, c, hasWord h, fun hw => (of_decide_eq_true h2).1 (of_decide_eq_true hw), (of_decide_eq_true h2).2, rfl, rfl, rfl⟩
theorem stillPushes_of {w : Slot} {o : Operands} {s : State} (p : Nat) (c : ControlWord) (h : wordOk o o.xb s p c = true)
    (h2 : decide ((w.f = 0 → c.esz ≤ 3) ∧ occupancy c = 2 ^ c.lgn) = true) :
    QueueWaits (decide (pushWait.op = 0x2C)) (decide (w.f = 0)) w o s s .queue 0 :=
  ⟨p, c, hasWord h, fun hw => (of_decide_eq_true h2).1 (of_decide_eq_true hw), (of_decide_eq_true h2).2, rfl, rfl, rfl⟩

def jobWait : Wait := wait1 .room 0x64 (slotA 0) 0x20080 0
def taskWait : Wait := wait1 .room 0x70 (slotA 0) 0x20000 0
def sendWait : Wait := wait1 .send 0x6D ⟨true, false, false, 0, 1, 2, 0⟩ 0 7
def netWait (k : WaitKind) : Wait := wait1 k 0x22 (slotA 0) 0x20000 0

theorem witness_expiries :
    MetExpiry .queue (fun op => op = 0x2C ∨ op = 0x2D) 1048576
      (StillAwaits .queue fun p => QueueWaits (decide (p.op = 0x2C)) (decide (p.w.f = 0))) ∧
    MetExpiry .queue (fun op => op = 0x2C ∨ op = 0x2D) 1048576
      (StillAwaits .queue fun p => QueueWaits (decide (p.op = 0x2C)) (decide (p.w.f = 0))) ∧
    MetExpiry .room (· = 0x64) 1048576 (fun _ _ _ => True) ∧ MetExpiry .room (· = 0x70) 1048576 (fun _ _ _ => True) ∧
    MetExpiry .rvwt (· = 0x6A) 16777216 (StillAwaits .rvwt fun _ => PhaseAwaited) ∧
    MetExpiry .send (· = 0x6D) 1048576 (fun s w _ => (s.core w.core).sendReg.isSome = true) ∧
    MetExpiry .recv (· = 0x6E) 1048576 NoFlitFor ∧
    MetExpiry .network (fun _ => True) 65536 (fun s w _ => (s.seq w).bundle.resent = true) ∧
    MetExpiry .fabric (fun _ => True) 1048576 (fun s w _ => (s.seq w).bundle.resent = true) ∧
    MetResend .network 65536 ∧ MetResend .fabric 1048576 :=
  ⟨expiry (atLimit 1048576 popWait (windowed 0)) popWait (by decide +kernel) (Or.inr rfl)
     (still_of (stillPops_of 0x100 (word 0) (by decide +kernel) (by decide +kernel))),
   expiry (atLimit 1048576 pushWait (windowed 2)) pushWait (by decide +kernel) (Or.inl rfl)
     (still_of (stillPushes_of 0x100 (word 2) (by decide +kernel) (by decide +kernel))),
   expiry (atLimit 1048576 jobWait base) jobWait (by decide +kernel) rfl trivial,
   expiry (atLimit 1048576 taskWait base) taskWait (by decide +kernel) rfl trivial,
   expiry (atLimit 16777216 rvwtWait' (pointed point5)) rvwtWait' (by decide +kernel) rfl
     (still_of ⟨by decide +kernel, by decide +kernel, by decide +kernel, by decide +kernel, rfl, rfl, rfl⟩),
   expiry (atLimit 1048576 sendWait sending) sendWait (by decide +kernel) rfl (by decide +kernel),
   expiry (atLimit 1048576 recvWait base) recvWait (by decide +kernel) rfl (by unfold NoFlitFor; decide +kernel),
   expiry (atLimit 65536 (netWait .network) base) (netWait .network) (by decide +kernel) trivial (by decide +kernel),
   expiry (atLimit 1048576 (netWait .fabric) base) (netWait .fabric) (by decide +kernel) trivial (by decide +kernel),
   ⟨{ waiting (netWait .network) base with cycle := 65536 }, ⟨0, 0⟩, netWait .network, by decide +kernel⟩,
   ⟨{ waiting (netWait .fabric) base with cycle := 1048576 }, ⟨0, 0⟩, netWait .fabric, by decide +kernel⟩⟩

/-! ### Witnesses: what the part does of itself -/

/-- An entry of die 0 under serial number 1. -/
def entry1 : Entry := { freshEntry 0 none [] { noTask with args := 7 } 0 0 [] with serial := 1 }
def tabled (l : List Entry) (s : State) : State := s.setDie 0 { s.die 0 with table := l, nextSerial := 9 }
def level1 (g : Graph) (s : State) : State := s.setDie 0 ((s.die 0).setGraph 0 g)
/-- Only cluster 0 of die 0 has live cores. -/
def oneCluster : State :=
  (List.range 124).foldl (fun (s : State) i => s.setCore (4 + i) { s.core (4 + i) with retired := true }) base
def waitingTask : State := tabled [entry1] oneCluster

theorem witness_places : Places waitingTask → ∃ t, exec (.taskPlacement 0) waitingTask = .next t :=
  fun h => (h 0 entry1 ⟨by decide +kernel, by decide +kernel⟩ (by decide +kernel) (by decide +kernel) (by decide +kernel)).elim fun _ h =>
    h.imp fun _ h => h.2.1

def placed1 : State := tabled [{ entry1 with status := .placed [1] }] base
theorem witness_starts : Starts placed1 → ∃ t, exec (.teamStart 0 1) placed1 = .next t :=
  fun h => (h 0 1 { entry1 with status := .placed [1] } [1] ⟨by decide +kernel, by decide +kernel⟩ (by decide +kernel) rfl
    (by decide +kernel) (by decide)).imp fun _ h => h.1

/-- The graph has waited an interval exactly; a graph of level 1 waits beside it. -/
def aged : State := { level1 { clock := some 0 } (tabled [entry1] base) with stamp := 2000000 }
theorem witness_ages : Ages aged → ∃ t, exec (.agingIntervalExpiry 0 0) aged = .next t :=
  fun h => ⟨_, h 0 0 0 0 (by decide +kernel) (by decide) (by decide +kernel) (by decide +kernel)⟩
def outranked : State := level1 { clock := some 0 } (tabled [entry1, { entry1 with serial := 2, graph := 1, prio := 1 }] base)
theorem witness_stops_graph : StopsGraph outranked → ∃ t, exec (.softPreemption 0 0) outranked = .next t :=
  fun h => ⟨_, h 0 0 0 (by decide +kernel) (by decide +kernel) (by decide +kernel)⟩
def passedOver : State := { tabled [{ entry1 with passedAt := some 0 }] oneCluster with stamp := 2000000 }
theorem witness_reserves : passedOver.overdue 0 = [{ entry1 with passedAt := some 0 }] ∧
    passedOver.chosenCluster 0 { entry1 with passedAt := some 0 } = some 0 ∧ (3 : Fin 512) ∈ passedOver.freeCores 0 1 0 := by
  decide +kernel
def roomy : State := waiting taskWait (base.setDie 0 { base.die 0 with roomQueue := [(⟨0, 0⟩, entry1)] })
/-- The same without an image, and a host's queue of graph 3 that claims room. -/
def roomless : State := roomy.setDie 0 { roomy.die 0 with images := [] }
def hostClaim : State :=
  { base with host := { base.host with bootState := 4, queues := base.host.queues.set 3 { base.host.queues[3] with en := true, tail := 1 } } }
theorem witness_grants_room : (GrantsRoom roomy → ∃ t, exec (.tableRoomGrant 0) roomy = .next t) ∧
    (GrantsRoom roomless → ∃ t, exec (.tableRoomGrant 0) roomless = .next t) ∧
    (GrantsRoom hostClaim → ∃ t, exec (.tableRoomGrant 0) hostClaim = .next t) :=
  ⟨fun h => ⟨_, ((h 0 0 (by decide +kernel) (by decide +kernel)).1 ⟨0, 0⟩ entry1 taskWait (waitForm roomy taskWait) (by decide +kernel)
     (by decide +kernel) rfl (waitForm_of (op := 0x70) (kind := .room) (by decide +kernel)).2.2.2).1 (by decide +kernel)⟩,
   fun h => ⟨_, ((h 0 0 (by decide +kernel) (by decide +kernel)).1 ⟨0, 0⟩ entry1 taskWait (waitForm roomless taskWait) (by decide +kernel)
     (by decide +kernel) rfl (waitForm_of (op := 0x70) (kind := .room) (by decide +kernel)).2.2.2).2 (by decide +kernel) (by decide +kernel)
     (by decide +kernel)⟩,
   fun h => ⟨_, (h 0 3 (by decide +kernel) (by decide +kernel)).2 (by decide +kernel)⟩⟩

def ended1 : Entry :=
  { entry1 with compl := 0x20000,
                status := .ended { state := 1, cause := 0, unit := 0, wmark := 0, pstatus := 0, whereC := 0, stamp := 3 } }

theorem isSome_ex {α : Type} {o : Option α} (h : o.isSome = true) : ∃ a, o = some a := Option.isSome_iff_exists.1 h
def isOk {ε α : Type} : Except ε α → Bool
  | .ok _ => true
  | .error _ => false
theorem isOk_ex {ε α : Type} {r : Except ε α} (h : isOk r = true) : ∃ a, r = .ok a := by
  cases r with
  | ok a => exact ⟨a, rfl⟩
  | error _ => simp [isOk] at h

/-- The record of an entry that ended, at VA 0x20000; one whose cancelled predecessor ended it, and one whose cluster settles
first. -/
def recording : State := tabled [ended1] mapped
def cancelled1 : Entry := { entry1 with compl := 0x20000, cancelled := true }
def settling : State := tabled [{ ended1 with ranOn := some 0 }] mapped
def cancelEnd (s : State) : EndInfo := { state := 4, cause := 0x203, unit := 0, wmark := 0, pstatus := 0, whereC := 0, stamp := s.stamp }
def endOf1 : EndInfo := { state := 1, cause := 0, unit := 0, wmark := 0, pstatus := 0, whereC := 0, stamp := 3 }
theorem pair_ex {α : Type} {x : α × Bool} (h : x.2 = true) : ∃ a, x = (a, true) := ⟨x.1, Prod.ext rfl h⟩
theorem witness_records : (Records recording → ∃ t, exec (.completionRecordWrite 0 1) recording = .next t) ∧
    (Records (tabled [cancelled1] mapped) → ∃ t, exec (.completionRecordWrite 0 1) (tabled [cancelled1] mapped) = .next t) ∧
    (Records settling → ∃ t, exec (.completionRecordWrite 0 1) settling = .next t) := by
  refine ⟨fun h => ?_, fun h => ?_, fun h => ?_⟩
  · obtain ⟨s1, h1⟩ := pair_ex (x := recording.settle 0 ended1) (by decide +kernel)
    have e1 : s1 = (recording.settle 0 ended1).1 := by rw [h1]
    obtain ⟨s2, h2⟩ := pair_ex (x := s1.putRecord 0 0x20000 1 (recordHead 1 none 0 false endOf1)) (by rw [e1]; decide +kernel)
    exact (h 0 1 ended1 endOf1 s1 s2 (by decide +kernel) (Or.inl rfl) (by decide +kernel) (by decide +kernel) h1 h2).imp fun _ h => h.1
  · obtain ⟨s1, h1⟩ := pair_ex (x := (tabled [cancelled1] mapped).settle 0 cancelled1) (by decide +kernel)
    have e1 : s1 = ((tabled [cancelled1] mapped).settle 0 cancelled1).1 := by rw [h1]
    obtain ⟨s2, h2⟩ := pair_ex (x := s1.putRecord 0 0x20000 1 (recordHead 1 none 0 false (cancelEnd (tabled [cancelled1] mapped))))
      (by rw [e1]; decide +kernel)
    exact (h 0 1 cancelled1 _ s1 s2 (by decide +kernel) (Or.inr ⟨rfl, rfl, rfl⟩) (by decide +kernel) (by decide +kernel) h1 h2).imp
      fun _ h => h.1
  · obtain ⟨s1, h1⟩ := pair_ex (x := settling.settle 0 { ended1 with ranOn := some 0 }) (by decide +kernel)
    have e1 : s1 = (settling.settle 0 { ended1 with ranOn := some 0 }).1 := by rw [h1]
    obtain ⟨s2, h2⟩ := pair_ex (x := s1.putRecord 0 0x20000 1 (recordHead 1 none 0 false endOf1)) (by rw [e1]; decide +kernel)
    exact (h 0 1 { ended1 with ranOn := some 0 } endOf1 s1 s2 (by decide +kernel) (Or.inl rfl) (by decide +kernel) (by decide +kernel) h1
      h2).imp fun _ h => h.1

def halting : State :=
  let q := base.seq ⟨0, 0⟩
  base.setSeq ⟨0, 0⟩ { q with wait := some (wait1 .halt 0x1B (slotA 0) 0 0), bundle := { q.bundle with ending := some (.halt none) } }
theorem witness_halts : Halts halting → ∃ t, exec (.rankHaltComplete ⟨0, 0⟩) halting = .next t :=
  fun h => (isSome_ex (o := (halting.seq ⟨0, 0⟩).task) (by decide +kernel)).elim fun t ht =>
    (h ⟨0, 0⟩ (wait1 .halt 0x1B (slotA 0) 0 0) none t (by decide +kernel) rfl (by decide +kernel) ht (by decide +kernel)
      (by decide +kernel)).imp fun _ h => h.1

/-! A rank that stands at its boundary, with its context area in host memory; a saved task with one parked bin. -/
def ctx1 : TaskRec := { noTask with long := true, ctx := 0xFFFC000000040000 }
def stopped1 : Entry := { entry1 with task := ctx1, status := .running [1], preempt := true, stopped := [0] }
def saving : State := tabled [stopped1] base
def saved1 : SavedRank :=
  { vpc := 0, depth := 0, rank := 0, cluster := 0, loops := [], windows := [], bins := [(0, 0)], wmark := 0, flat := true, evict := 0 }
def entrySaved : Entry := { entry1 with task := ctx1, status := .saved 0 false, saved := [saved1] }
def parked1 : State :=
  let s := tabled [entrySaved] { base with hostMem := writeBytes 0x44008 (wordBytes 0x1000000000000000) [] }
  s.setCluster 0 { s.cluster 0 with bins := (s.cluster 0).bins.set 0 { state := .parked 1 0 0 } }

/-- The same with no live core outside cluster 0. -/
def resting : State := { parked1 with cores := oneCluster.cores }

/-! The 14 KiB of a context area are not evaluated byte by byte: how long they are, and that host memory takes them. -/
theorem leBytes_length (n v : Nat) : (leBytes n v).length = n := by
  induction n generalizing v with
  | zero => rfl
  | succ n ih => simp [leBytes, ih]
theorem wordBytes_length (v : Word) : (wordBytes v).length = 8 := leBytes_length 8 _
theorem flatMap_length {α : Type} (f : α → List Byte) (k : Nat) (h : ∀ a, (f a).length = k) (l : List α) :
    (l.flatMap f).length = l.length * k := by
  induction l with
  | nil => simp
  | cons a l ih => simp [ih, h, Nat.succ_mul, Nat.add_comm]

theorem contextBytes_length (s : State) (w : SeqId) (team rank : Nat) (points : List Point) (h : (s.core w.core).live = 0) :
    (contextBytes s w team rank points).length = 14336 := by
  have h8 := wordBytes_length
  have ht : tilesOf 0 = [] := by decide +kernel
  unfold contextBytes
  simp only [List.length_append, h, ht, h8, leBytes_length, zeros, List.length_replicate, List.flatMap_nil, List.length_nil, loopBytes]
  rw [flatMap_length _ 16 (fun a => by simp [h8]), flatMap_length _ 16 (fun a => by simp [h8]), flatMap_length _ 8 (fun a => h8 a),
    flatMap_length _ 256 (fun a => by simp [vecBytes]), flatMap_length _ 32 (fun a => leBytes_length _ _),
    flatMap_length _ 32 (fun a => leBytes_length _ _), flatMap_length _ 48 (fun a => by simp [Stream.words, h8]),
    flatMap_length _ 8 (fun a => h8 _), flatMap_length _ 8 (fun a => by split <;> simp [h8]), flatMap_length _ 24 (fun a => by simp [h8])]
  simp only [Vector.length_toList, List.length_range]

theorem checkSpan_host (ag : Agent) (u : Use) (va : Nat) (s : State) (ho : ag.outside = false) (h : va / 2 ^ 50 % 2 ^ 14 = 0x3FFF) :
    (checkSpan ag u false va).on s = (.ok (some (.host (va % 2 ^ 50))), s) := by
  have hp : placeOf s va = .host (va % 2 ^ 50) := if_pos h
  unfold checkSpan resolve raiseIf
  simp only [ho, Bool.false_and, Bool.false_eq_true, if_false, M.on_bind, M.on_pure, M.on_get, hp]
  obtain ⟨r, w⟩ := u
  cases r <;> rfl
theorem checkSpans_hosts (ag : Agent) (u : Use) (s : State) (ho : ag.outside = false)
    (ha : ∀ va n, (awaitGlobal ag u.write va n).on s = (.ok (), s))
    (l : List (Nat × Nat)) (h : ∀ p ∈ l, p.1 / 2 ^ 50 % 2 ^ 14 = 0x3FFF) :
    (checkSpans ag u false l).on s = (.ok (l.map fun p => (p.1, p.2, some (.host (p.1 % 2 ^ 50)))), s) := by
  induction l with
  | nil => rfl
  | cons p l ih =>
    have hc := checkSpan_host ag u p.1 s ho (h p (List.mem_cons_self ..))
    obtain ⟨va, n⟩ := p
    simp only [checkSpans, M.on_bind, hc, ha, M.on_pure, ih fun q hq => h q (List.mem_cons_of_mem _ hq), List.map_cons]
theorem checkBlocked_host (ag : Agent) (sc : Scope) (s : State) (l : List (Nat × Nat)) :
    (checkBlocked ag sc (l.map fun p => (p.1, p.2, some (.host (p.1 % 2 ^ 50))))).on s = (.ok (), s) := by
  induction l with
  | nil => rfl
  | cons p l ih =>
    have hn : ∀ k va, (needHome ag (.host (p.1 % 2 ^ 50)) va k).on s = (.ok (), s) := fun _ _ => rfl
    simp only [List.map_cons, checkBlocked]
    split <;> simp only [M.on_bind, hn, ih]
theorem writeAll_host (ag : Agent) (sc : Scope) (hint : BitVec 2) (ps : List (Nat × Nat)) (l : List Byte) (s : State) :
    ∃ m, (writeAll ag sc hint (ps.map fun p => (p.1, p.2, some (.host (p.1 % 2 ^ 50)))) l).on s = (.ok (), { s with hostMem := m }) := by
  induction ps generalizing l s with
  | nil => exact ⟨s.hostMem, rfl⟩
  | cons q ps ih =>
    obtain ⟨m, hm⟩ := ih (l.drop q.2) (s.putBytes (.host (q.1 % 2 ^ 50)) (l.take q.2))
    exact ⟨m, by simp only [List.map_cons, writeAll, writeSpan, M.on_bind, M.on_get, M.on_set, hm]; rfl⟩
theorem writeGlobal_hosts (ag : Agent) (sc : Scope) (va : Nat) (l : List Byte) (s : State) (ho : ag.outside = false)
    (ha : ∀ va n, (awaitGlobal ag true va n).on s = (.ok (), s)) (h : ∀ p ∈ lineSpans va l.length, p.1 / 2 ^ 50 % 2 ^ 14 = 0x3FFF) :
    ∃ m, (writeGlobal ag sc 0 va l).on s = (.ok (), { s with hostMem := m }) := by
  obtain ⟨m, h3⟩ := writeAll_host ag sc 0 (lineSpans va l.length) l s
  exact ⟨m, by simp only [writeGlobal, M.on_bind, checkSpans_hosts ag .w s ho ha _ h, checkBlocked_host, h3]⟩
theorem writeGlobal_host (d va : Nat) (l : List Byte) (s : State)
    (h : ∀ p ∈ lineSpans va l.length, p.1 / 2 ^ 50 % 2 ^ 14 = 0x3FFF) :
    ∃ m, (writeGlobal (.scheduler d) .system 0 va l).on s = (.ok (), { s with hostMem := m }) :=
  writeGlobal_hosts (.scheduler d) .system va l s rfl (fun _ _ => rfl) h
theorem readGlobal_hosts (ag : Agent) (va n : Nat) (s : State) (ho : ag.outside = false)
    (ha : ∀ va n, (awaitGlobal ag false va n).on s = (.ok (), s)) (h : ∀ p ∈ lineSpans va n, p.1 / 2 ^ 50 % 2 ^ 14 = 0x3FFF) :
    (readGlobal ag .system 0 va n).on s = (.ok ((lineSpans va n).flatMap fun p => readBytes s.hostMem (p.1 % 2 ^ 50) p.2), s) := by
  have run : ∀ l : List (Nat × Nat), (readAll ag .system 0 true (l.map fun p => (p.1, p.2, some (.host (p.1 % 2 ^ 50))))).on s =
      (.ok (l.flatMap fun p => readBytes s.hostMem (p.1 % 2 ^ 50) p.2), s) := by
    intro l
    induction l with
    | nil => rfl
    | cons p l ih => simp only [List.map_cons, readAll, readSpan, M.on_bind, M.on_get, M.on_pure, ih, List.flatMap_cons]
  simp only [readGlobal, M.on_bind, checkSpans_hosts ag .r s ho ha _ h, run]
theorem readGlobal_host (d va n : Nat) (s : State) (h : ∀ p ∈ lineSpans va n, p.1 / 2 ^ 50 % 2 ^ 14 = 0x3FFF) :
    (readGlobal (.scheduler d) .system 0 va n).on s =
      (.ok ((lineSpans va n).flatMap fun p => readBytes s.hostMem (p.1 % 2 ^ 50) p.2), s) :=
  readGlobal_hosts (.scheduler d) va n s rfl (fun _ _ => rfl) h

/-- The area of the saved task as read: all zero but for the state 1 of its header. -/
def areaBytes : List Byte := readBytes parked1.hostMem 0x44000 16 ++ zeros 14320
theorem readBytes_past (m : Memory) (a n : Nat) (h : ∀ c ∈ m, c.1 < a) : readBytes m a n = zeros n := by
  have : ∀ i, readByte (a + i) m = 0 := by
    intro i
    induction m with
    | nil => rfl
    | cons c m ih =>
      obtain ⟨b, v⟩ := c
      have hb : b < a := h (b, v) (List.mem_cons_self ..)
      simp only [readByte, if_neg (show ¬ b = a + i by omega), ih fun c hc => h c (List.mem_cons_of_mem _ hc)]
  simp [readBytes, this, zeros, List.map_const']
theorem flatMap_zeros {α : Type} (f : α → List Byte) (k : Nat) (l : List α) (h : ∀ a ∈ l, f a = zeros k) :
    l.flatMap f = zeros (l.length * k) := by
  induction l with
  | nil => simp [zeros]
  | cons a l ih =>
    rw [List.flatMap_cons, h a (List.mem_cons_self ..), ih fun b hb => h b (List.mem_cons_of_mem _ hb)]
    simp [zeros, Nat.succ_mul, Nat.add_comm]
theorem zeros_append (m n : Nat) : zeros m ++ zeros n = zeros (m + n) := List.replicate_append_replicate
theorem zeros_part (m k n : Nat) : ((zeros m).drop k).take n = zeros (min n (m - k)) := by
  simp only [zeros, List.drop_replicate, List.take_replicate]
theorem area_read : (lineSpans 0xFFFC000000044000 14336).flatMap (fun p => readBytes parked1.hostMem (p.1 % 2 ^ 50) p.2) = areaBytes := by
  have hs : lineSpans 0xFFFC000000044000 14336 = (0xFFFC000000044000, 128) :: (lineSpans 0xFFFC000000044000 14336).tail := by
    decide +kernel
  have ht : ∀ p ∈ (lineSpans 0xFFFC000000044000 14336).tail, p.2 = 128 ∧ ∀ c ∈ parked1.hostMem, c.1 < p.1 % 2 ^ 50 := by decide +kernel
  rw [hs, List.flatMap_cons, flatMap_zeros _ 128 _ fun p hp => by rw [(ht p hp).1]; exact readBytes_past _ _ _ (ht p hp).2]
  have hl : (lineSpans 0xFFFC000000044000 14336).tail.length = 111 := by decide +kernel
  have h1 : readBytes parked1.hostMem (0xFFFC000000044000 % 2 ^ 50) 128 = readBytes parked1.hostMem 0x44000 16 ++ zeros 112 := by
    decide +kernel
  rw [hl, h1, areaBytes, List.append_assoc, zeros_append]
/-- Past its first 16 bytes the area is zero. -/
def area1 : Area := { bytes := areaBytes, tiles := [] }
theorem fromLe_zeros (n : Nat) : fromLe (zeros n) = 0 := by
  induction n with
  | zero => rfl
  | succ n ih => rw [zeros, List.replicate_succ, fromLe, ← zeros, ih]; rfl
theorem area_zero (off n : Nat) (h : 0x4010 ≤ off) : fromLe ((areaBytes.drop (off - 0x4000)).take n) = 0 := by
  have : (readBytes parked1.hostMem 0x44000 16).length = 16 := by simp [readBytes]
  rw [areaBytes, List.drop_append, List.drop_eq_nil_of_le (by omega), List.nil_append, zeros_part, fromLe_zeros]
theorem area_word (off : Nat) (h : 0x4010 ≤ off) : area1.word off = 0 := by
  unfold Area.word wordAt wordOf area1
  rw [area_zero off 8 h]
  rfl
theorem area_number (off n : Nat) (h : 0x4010 ≤ off) : area1.number off n = 0 := area_zero off n h
theorem area_head : area1.word 0x4000 = 0 ∧ area1.word 0x4008 = 0x1000000000000000 := by decide +kernel
theorem area_live : area1.liveMap = 0 := by
  unfold Area.liveMap
  rw [area_number _ _ (by decide)]
  rfl
theorem area_matches : area1.matches saved1 1 1 = true := by
  unfold Area.matches
  rw [area_head.1, area_head.2, area_word 0x4018 (by decide)]
  have : ∀ i, (Window.ofWord (area1.word (0x7600 + 8 * i))).word == saved1.windows.getD i 0 := by
    intro i
    rw [area_word _ (by omega)]
    rfl
  simp only [this]
  decide +kernel
theorem area_sound : area1.sound = true := by
  unfold Area.sound
  have h1 : ∀ i, area1.word (0x7680 + 8 * i) = 0 := fun i => area_word _ (by omega)
  have h2 : ∀ i, area1.word (0x7740 + 24 * i + 8) = 0 := fun i => area_word _ (by omega)
  simp only [area_head.1, area_head.2, area_live, h1, h2]
  decide +kernel
theorem tryFor_ok {α : Type} {die serial : Nat} {m : M α} {s t : State} {a : α} (h : m.on s = (.ok a, t))
    (hs : ((t.entry die serial).bind Entry.sent) = none) : s.tryFor die serial m = .ok a t := by
  simp only [State.tryFor, State.tryAs, h, hs, Option.isSome_none, Bool.false_eq_true, if_false]
theorem readAreas_one (die : Fin 4) (e : Entry) (n : Nat) (r : SavedRank) (s : State) (a : Area)
    (hr : (readArea die (rankCtx e.task r.rank).toNat).on s = (.ok a, s)) (hm : (a.matches r n e.task.team && a.sound) = true)
    (hs : ((s.entry die e.serial).bind Entry.sent) = none) : readAreas die e n [r] s = .ok [a] s := by
  simp only [readAreas, tryFor_ok hr hs, hm, if_true]
theorem readArea_of (die ctx : Nat) (s : State) (b : List Byte)
    (h : (readGlobal (.scheduler die) .system 0 (ctx + 0x4000) 0x3800).on s = (.ok b, s))
    (hl : tilesOf ({ bytes := b, tiles := [] } : Area).liveMap = [])
    (h0 : (readGlobal (.scheduler die) .system 0 (ctx + 0x7800) 0).on s = (.ok [], s)) :
    (readArea die ctx).on s = (.ok { bytes := b, tiles := [] }, s) := by
  unfold readArea
  rw [M.on_bind, h]
  simp only [hl, List.length_nil, Nat.mul_zero, M.on_bind, h0, M.on_pure]
theorem areas_read (s : State) (h : s.hostMem = parked1.hostMem) (hs : ((s.entry 0 1).bind Entry.sent) = none) :
    readAreas 0 entrySaved 1 entrySaved.saved s = .ok [area1] s := by
  have h2 : (readGlobal (.scheduler 0) .system 0 ((rankCtx entrySaved.task saved1.rank).toNat + 0x4000) 0x3800).on s = (.ok areaBytes, s) := by
    rw [show (rankCtx entrySaved.task saved1.rank).toNat + 0x4000 = 0xFFFC000000044000 from by decide +kernel,
      readGlobal_host 0 0xFFFC000000044000 0x3800 s (by decide +kernel), h, ← area_read]
  have h3 : (readGlobal (.scheduler 0) .system 0 ((rankCtx entrySaved.task saved1.rank).toNat + 0x7800) 0).on s = (.ok [], s) := by
    rw [show (rankCtx entrySaved.task saved1.rank).toNat + 0x7800 = 0xFFFC000000047800 from by decide +kernel,
      readGlobal_host 0 0xFFFC000000047800 0 s (by decide +kernel)]
    rfl
  have hl : tilesOf area1.liveMap = [] := by rw [area_live]; decide +kernel
  have hm : (area1.matches saved1 1 entrySaved.task.team && area1.sound) = true := by
    rw [show entrySaved.task.team = 1 from rfl, area_matches, area_sound]; rfl
  exact readAreas_one 0 entrySaved 1 saved1 s area1 (readArea_of 0 _ s areaBytes h2 hl h3) hm hs

/-- The context area of the rank is written, and the entry stands. -/
theorem witness_saves : Saves saving → ∃ t, exec (.hardPreemptionSave 0 1) saving = .next t := by
  intro h
  obtain ⟨s1, h1⟩ := pair_ex (x := saving.settleCluster 0 0) (by decide +kernel)
  have e1 : s1 = (saving.settleCluster 0 0).1 := by rw [h1]
  have live : (s1.core 1).live = 0 := by rw [e1]; decide +kernel
  have run : ∀ (points : List Point) (s : State), (s.core 1).live = 0 → ((s.entry 0 1).map Entry.sent) = some none →
      ∃ s2, writeAreas 0 stopped1 points [((1 : Fin 512), 0)] s = .ok () s2 ∧ (s2.entry 0 1).isSome = true := by
    intro points s hl hs
    have hr : ((s.core (s.rankSeq 0 stopped1.serial 1).core)).live = 0 := by
      have : (s.rankSeq 0 stopped1.serial 1).core = 1 := by
        unfold State.rankSeq
        split
        · split <;> rfl
        · rfl
      rw [this]; exact hl
    obtain ⟨m, hm⟩ := writeGlobal_host 0 ((rankCtx stopped1.task 0).toNat + 0x4000)
      (contextBytes s (s.rankSeq 0 stopped1.serial 1) stopped1.task.team 0 points) s (by
        rw [contextBytes_length _ _ _ _ _ hr]
        decide +kernel)
    obtain ⟨e, he, hn⟩ := Option.map_eq_some_iff.1 hs
    have hs' : ((({ s with hostMem := m } : State).entry 0 1).bind Entry.sent) = none := by
      rw [show ({ s with hostMem := m } : State).entry 0 1 = s.entry 0 1 from rfl, he]
      exact hn
    refine ⟨{ s with hostMem := m }, ?_, ?_⟩
    · unfold writeAreas
      simp only [Fin.isValue, Fin.val_zero]
      rw [tryFor_ok hm (by rw [show stopped1.serial = 1 from rfl]; exact hs')]
      rfl
    · show (s.entry 0 1).isSome = true
      rw [he]; rfl
  obtain ⟨s2, h2, h3⟩ := run (match (s1.cluster 0).team 0 1 with | some t => t.points.toList | none => [])
    (let top := ([1] : List (Fin 512)).foldl (fun m k => let q := s1.seq (s1.rankSeq 0 1 k); max m (max q.savedTime q.seen)) 0
     s1.setDie 0 { s1.die 0 with schedTime := max (s1.die 0).schedTime top }) live
    (by rw [e1]; decide +kernel)
  exact ((h 0 1 stopped1 [1] s1 (by decide +kernel) rfl (by decide +kernel) h1).1 s2 h2 h3).imp fun _ h => h.1

/-- The scheduler's choice and the only cluster that can take it are those of the state. -/
theorem witness_resumes : ResumesTask resting → ∃ t, exec (.taskResume 0 1) resting = .next t := by
  intro h
  have hc : ((choosing resting 0).choose 0).2 = some entrySaved := by decide +kernel
  obtain ⟨⟨cl, s1⟩, h1⟩ := isSome_ex (o := (looked resting 0).pickCluster ((looked resting 0).candidates 0 entrySaved)) (by decide +kernel)
  have e1 : (cl, s1) = ((looked resting 0).pickCluster ((looked resting 0).candidates 0 entrySaved)).getD (0, base) := by rw [h1]; rfl
  have hm : (Prod.snd (cl, s1)).hostMem = parked1.hostMem := by rw [e1]; decide +kernel
  have hs : (((Prod.snd (cl, s1)).entry 0 1).map Entry.sent) = some none := by rw [e1]; decide +kernel
  obtain ⟨e, he, hn⟩ := Option.map_eq_some_iff.1 hs
  have hp : e1 = e1 ∧ (entrySaved.copies cl = false) := by
    have : (Prod.fst (cl, s1)) = 0 := by rw [e1]; decide +kernel
    exact ⟨rfl, by rw [show cl = 0 from this]; decide +kernel⟩
  exact (h 0 entrySaved 0 false cl [area1] s1 s1 ⟨by decide +kernel, by decide +kernel⟩ hc rfl h1
    (areas_read s1 hm (by rw [show s1.entry 0 1 = some e from he]; exact hn)) (fun _ _ h => absurd h (by rw [hp.2]; decide))
    (Option.isSome_iff_exists.2 ⟨e, he⟩)).imp fun _ h => h.1

theorem witness_evicts : Evicts parked1 → ∃ t, exec (.parkedBinEviction 0 1 5) parked1 = .next t := by
  intro h
  obtain ⟨_, s1, h1, h2⟩ := ended (m := writeEvicted entrySaved 5 entrySaved.saved) (s := parked1)
    (fun _ t => decide ((t.entry 0 1).map Entry.sent = some none)) (by decide +kernel)
  obtain ⟨e, he, hn⟩ := Option.map_eq_some_iff.1 (of_decide_eq_true h2)
  exact (h 0 1 5 entrySaved 0 s1 (by decide +kernel) rfl (by decide) (by decide) (tryFor_ok h1 (Option.bind_eq_none_iff.2 fun x hx =>
    by rw [show x = e from Option.some.inj (hx.symm.trans he)]; exact hn)) (Option.isSome_iff_exists.2 ⟨e, he⟩)).imp fun _ h => h.1

/-! A card in die 0's table, from the words of its body. -/
def card1 (kind : BitVec 8) (status : EntryStatus) (ws : List Word) : Entry :=
  { freshEntry 0 (some kind) (ws.flatMap wordBytes) noTask 0 0x20000 [] with serial := 1, status := status }
def atEngine (kind : BitVec 8) (e : Entry) (s : State) : Bool :=
  decide (s.entry 0 1 = some e ∧ e.card = some kind) &&
    (decide (e.status = .issued) ||
      (e.cardReady && (s.die 0).table.all (fun y => !decide (y.card = some kind ∧ y.status = .issued)) &&
        (s.nextCard 0 fun y => decide (y.card = some kind)).any fun x => decide (x.serial = 1)))
theorem atEngine_of {kind : BitVec 8} {e : Entry} {s : State} (h : atEngine kind e s = true) : AtEngine s 0 1 kind e := by
  simp only [atEngine, Bool.and_eq_true, Bool.or_eq_true, decide_eq_true_eq, Option.any_eq_true, List.all_eq_true] at h
  obtain ⟨⟨h1, h2⟩, h3⟩ := h
  refine ⟨h1, h2, h3.imp id fun h => ?_⟩
  obtain ⟨⟨h4, h5⟩, x, h6, h7⟩ := h
  exact ⟨h4, fun y hy hc hi => by simpa [hc, hi] using h5 y hy, x, h7, h6⟩
/-- The engine of a kind is retired. -/
def retiredEngine (kind : BitVec 8) (s : State) : State := s.setDie 0 { s.die 0 with retiredEngines := [kind] }

/-- A computation that raises a cause. -/
def raises {α : Type} (m : M α) (s : State) : Bool :=
  match m.on s with
  | (.error (.cause _ _ _), _) => true
  | _ => false
theorem raised {α : Type} {m : M α} {s : State} (h : raises m s = true) : ∃ c a d t, m.on s = (.error (.cause c a d), t) := by
  unfold raises at h
  split at h
  · next c a d t hm => exact ⟨c, a, d, t, hm⟩
  · exact absurd h (by decide)

theorem copyDone {r : CopyRun} (h : (match r with | .done _ => true | _ => false) = true) : ∃ t, r = .done t := by
  cases r with
  | done t => exact ⟨t, rfl⟩
  | fails _ _ _ => exact absurd h (by simp)
  | blocked _ => exact absurd h (by simp)
theorem copyFails {r : CopyRun} (h : (match r with | .fails _ _ _ => true | _ => false) = true) : ∃ t n c, r = .fails t n c := by
  cases r with
  | fails t n c => exact ⟨t, n, c, rfl⟩
  | done _ => exact absurd h (by simp)
  | blocked _ => exact absurd h (by simp)
/-- Eight bytes from VA 0x20000 to 0x20100; from an address that no table maps; the first of a line's end, so that the run stops
in its middle. -/
def copyCard (src : Word) : Entry := card1 0x01 .waiting [src, 0x20100, 8]
def carrying (src : Word) : State := tabled [copyCard src] mapped
theorem witness_copies_card :
    (CopiesCard (carrying 0x20000) → ∃ t, exec (.dieCopyCard 0 1) (carrying 0x20000) = .next t) ∧
    (CopiesCard (carrying 0x10000000000) → ∃ t, exec (.dieCopyCard 0 1) (carrying 0x10000000000) = .next t) ∧
    (CopiesCard (retiredEngine 1 (carrying 0x20000)) → ∃ t, exec (.dieCopyCard 0 1) (retiredEngine 1 (carrying 0x20000)) = .next t) := by
  refine ⟨fun h => ?_, fun h => ?_, fun h => ?_⟩
  · have h := h 0 1 (copyCard 0x20000) (atEngine_of (by decide +kernel))
    rw [if_neg (by decide +kernel)] at h
    obtain ⟨t, ht⟩ := copyDone (r := copyRun 0 1 0x20000 0x20100 8 8 0 ((carrying 0x20000).issueCard 0 (copyCard 0x20000))) (by decide +kernel)
    exact ⟨_, h.1 t ht⟩
  · have h := h 0 1 (copyCard 0x10000000000) (atEngine_of (by decide +kernel))
    rw [if_neg (by decide +kernel)] at h
    obtain ⟨t, n, c, ht⟩ := copyFails
      (r := copyRun 0 1 0x10000000000 0x20100 8 8 0 ((carrying 0x10000000000).issueCard 0 (copyCard 0x10000000000))) (by decide +kernel)
    exact ⟨_, h.2.1 t n c ht⟩
  · have h := h 0 1 (copyCard 0x20000) (atEngine_of (by decide +kernel))
    rw [if_pos (by decide +kernel)] at h
    exact ⟨_, h⟩

/-! A group of two: die 0 here, and die 0 of package 1, whose contribution has arrived. SRC 0x20000, DST 0x20100, the list at
0x20200. -/
def sumCard : Entry := { card1 0x02 .issued [0x20000, 0x20100, 0x20200, 0x10000070000, 0x0001000400010000] with since := 0 }
def group1 : State := tabled [sumCard] { mapped with dram := writeBytes 0x20200 [0, 0, 4, 0] mapped.dram, stamp := 1000000 }
def arrived : State :=
  { group1 with contributions := [{ pkg := 1, die := 0, tag := 7, list := [0, 4], op := 4, len := 256, failed := false, data := zeros 256 }] }
theorem allSome_spec {α : Type} {l : List (Option α)} {ps : List α} (h : allSome l = some ps) : l = ps.map some := by
  induction l generalizing ps with
  | nil => simp only [allSome, Option.some.injEq] at h; subst h; rfl
  | cons o l ih =>
    cases o with
    | none => simp [allSome] at h
    | some a =>
      simp only [allSome, Option.map_eq_some_iff] at h
      obtain ⟨qs, h1, rfl⟩ := h
      rw [ih h1]; rfl
def partsRead : Parts → Bool
  | .ok _ _ => true
  | _ => false
theorem partsRead_ex {r : Parts} (h : partsRead r = true) : ∃ l t, r = .ok l t := by
  cases r with
  | ok l t => exact ⟨l, t, rfl⟩
  | fails _ _ _ => exact Bool.noConfusion h
  | waits _ => exact Bool.noConfusion h
/-- The card that runs is a member of its group. -/
def ownMember (s : State) (k : Collective) (list : List Nat) : Bool :=
  (localMembers ((list.map (s.partOf k.tag list)).filterMap id)).any fun m => decide (m.die = 0 ∧ m.entry.serial = 1)
theorem own_member {s : State} {k : Collective} {list : List Nat} (h : ownMember s k list = true) :
    ∃ m, m ∈ localMembers ((list.map (s.partOf k.tag list)).filterMap id) ∧ m.die = 0 ∧ m.entry.serial = 1 :=
  (List.any_eq_true.1 h).imp fun _ h => ⟨h.1, of_decide_eq_true h.2⟩
/-- What a collective that runs finds. -/
def collects (s : State) (k : Collective) (list : List Nat) : Bool :=
  match allSome (list.map (s.partOf k.tag list)) with
  | none => false
  | some ps => (ps.all fun p => decide (p.op = k.op ∧ p.len = k.len)) && partsRead (readParts ps s)
theorem collects_of {s s0 : State} {e : Entry} {list : List Nat} {i : Fin 4 → Nat → Instr} {op : Nat} (hi : (i, op) ∈ collectives)
    (hg : Gathering s 0 1 op e list s0) (hl : list.any (s0.memberLost 0 (Collective.ofCard e.cardBytes).tag list) = false)
    (hn : e.gathered = none) (hc : collects s0 (Collective.ofCard e.cardBytes) list = true)
    (ho : ownMember s0 (Collective.ofCard e.cardBytes) list = true) (h : Collects s) :
    ∃ t, exec (i 0 1) s = .next t := by
  unfold collects at hc
  split at hc
  · exact absurd hc (by decide)
  · next ps hp =>
    rw [Bool.and_eq_true] at hc
    obtain ⟨srcs, s1, hs⟩ := partsRead_ex hc.2
    exact ⟨_, (((h i op hi 0 1 e list s0 hg).2.2 ps hn hl (allSome_spec hp) (own_member ho)).2
      (fun p hp => of_decide_eq_true (List.all_eq_true.1 hc.1 p hp))).1 srcs s1 hs⟩
/-- The state once the list has been read. -/
def listed (s : State) : State := ((readMembers 0 (Collective.ofCard sumCard.cardBytes)).on s).2
theorem gathering (s : State) (hm : ends (readMembers 0 (Collective.ofCard sumCard.cardBytes)) s (fun l _ => decide (l = [0, 4])) = true)
    (hs : decide (s.entry 0 1 = some sumCard) = true) (ht : decide (((listed s).entry 0 1).bind Entry.sent = none) = true) :
    Gathering s 0 1 4 sumCard [0, 4] (listed s) := by
  obtain ⟨l, s0, h1, h2⟩ := ended _ hm
  cases of_decide_eq_true h2
  have h0 : listed s = s0 := by simp only [listed, h1]
  rw [h0] at ht ⊢
  exact ⟨of_decide_eq_true hs, rfl, rfl, by decide +kernel, tryFor_ok h1 (of_decide_eq_true ht)⟩
/-- The other member's card failed. -/
def lostOne : State := { arrived with contributions := arrived.contributions.map fun r => { r with failed := true } }
/-- It is of another length. -/
def unlike : State := { arrived with contributions := arrived.contributions.map fun r => { r with len := 512 } }
/-- The card has its result and writes on, with package 1 in reach or silent. -/
def resultCard : Entry := { sumCard with gathered := some (zeros 256) }
def silent : State := tabled [resultCard] group1
def reached : State := { silent with nets := { silent.nets with fabric := tabPut 1 0x80 silent.nets.fabric } }
theorem gatheredBy (s : State) (hm : ends (readMembers 0 (Collective.ofCard sumCard.cardBytes)) s (fun l _ => decide (l = [0, 4])) = true)
    (hs : decide (s.entry 0 1 = some resultCard) = true) (ht : decide (((listed s).entry 0 1).bind Entry.sent = none) = true) :
    Gathering s 0 1 4 resultCard [0, 4] (listed s) := by
  obtain ⟨l, s0, h1, h2⟩ := ended _ hm
  cases of_decide_eq_true h2
  have h0 : listed s = s0 := by simp only [listed, h1]
  rw [h0] at ht ⊢
  exact ⟨of_decide_eq_true hs, rfl, rfl, by decide +kernel, tryFor_ok h1 (of_decide_eq_true ht)⟩
theorem witness_collects :
    (Collects arrived → ∃ t, exec (.collectiveSumInt32 0 1) arrived = .next t) ∧
    (Collects lostOne → ∃ t, exec (.collectiveSumInt32 0 1) lostOne = .next t) ∧
    (Collects unlike → ∃ t, exec (.collectiveSumInt32 0 1) unlike = .next t) ∧
    (Collects reached → ∃ t, exec (.collectiveSumInt32 0 1) reached = .next t) ∧
    (Collects silent → ∃ t, exec (.collectiveSumInt32 0 1) silent = .next t) := by
  refine ⟨collects_of (i := .collectiveSumInt32) (op := 4) (by simp [collectives]) (gathering arrived (by decide +kernel) (by decide +kernel) (by decide +kernel))
    (by decide +kernel) rfl (by decide +kernel) (by decide +kernel), fun h => ?_, fun h => ?_, fun h => ?_, fun h => ?_⟩
  · exact ⟨_, (h .collectiveSumInt32 4 (by simp [collectives]) 0 1 sumCard [0, 4] (listed lostOne)
      (gathering lostOne (by decide +kernel) (by decide +kernel) (by decide +kernel))).1 rfl (by decide +kernel)⟩
  · obtain ⟨ps, hp⟩ := isSome_ex (o := allSome ([0, 4].map ((listed unlike).partOf (Collective.ofCard sumCard.cardBytes).tag [0, 4])))
      (by decide +kernel)
    have hu : (ps.any fun p => decide (p.op ≠ 4 ∨ p.len ≠ 256)) = true := by
      have hd : ((allSome ([0, 4].map ((listed unlike).partOf (Collective.ofCard sumCard.cardBytes).tag [0, 4]))).any fun ps =>
          ps.any fun p => decide (p.op ≠ 4 ∨ p.len ≠ 256)) = true := by decide +kernel
      rwa [hp] at hd
    obtain ⟨p, hm, hd⟩ := List.any_eq_true.1 hu
    exact ⟨_, ((h .collectiveSumInt32 4 (by simp [collectives]) 0 1 sumCard [0, 4] (listed unlike)
      (gathering unlike (by decide +kernel) (by decide +kernel) (by decide +kernel))).2.2 ps rfl (by decide +kernel) (allSome_spec hp)
        (own_member (by decide +kernel))).1 ⟨p, hm, of_decide_eq_true hd⟩⟩
  · exact ⟨_, ((h .collectiveSumInt32 4 (by simp [collectives]) 0 1 resultCard [0, 4] _
      (gatheredBy reached (by decide +kernel) (by decide +kernel) (by decide +kernel))).2.1 (zeros 256) rfl).1 (by decide +kernel)⟩
  · exact ⟨_, ((h .collectiveSumInt32 4 (by simp [collectives]) 0 1 resultCard [0, 4] _
      (gatheredBy silent (by decide +kernel) (by decide +kernel) (by decide +kernel))).2.1 (zeros 256) rfl).2 (by decide +kernel)⟩
theorem witness_collective_expires : CollectiveExpires group1 → ∃ t, exec (.collectiveWaitLimit 0 1) group1 = .next t := by
  intro h
  obtain ⟨l, s0, h1, h2⟩ := ended (m := readMembers 0 (Collective.ofCard sumCard.cardBytes)) (s := group1)
    (fun l _ => decide (l = [0, 4])) (by decide +kernel)
  rw [of_decide_eq_true h2] at h1
  exact ⟨_, h 0 1 sumCard [0, 4] s0 (by decide +kernel) rfl rfl rfl (by decide +kernel) h1
    (List.mem_map.2 ⟨4, by decide, Option.isNone_iff_eq_none.1 (by decide +kernel)⟩)⟩

/-! A 64 KiB page at VA 0, resident at PA 0x30000 or not, two frames free. -/
def paged (res : Bool) : State :=
  let s := { mapped with dram := words [(0x4000, mkPointer 0x8000), (0x8000, mkPointer 0x9000), (0x9000, mkPointer 0xA000),
                                        (0xA000, mkLeaf res true true false false false 0x30000)] [] }
  s.setDie 0 { s.die 0 with frames := [(5, 2)] }
def moveCard (op host : Word) : Entry := card1 0x20 .waiting [0, op <<< 32 ||| 1, host]
def moving (res : Bool) (op host : Word) : State := tabled [moveCard op host] (paged res)
def pagesOver : PageRun → Bool
  | .ended _ _ _ => true
  | .waits _ _ => false
theorem pagesOver_ex {r : PageRun} (h : pagesOver r = true) : ∃ t n c, r = .ended t n c := by
  cases r with
  | ended t n c => exact ⟨t, n, c, rfl⟩
  | waits _ _ => exact Bool.noConfusion h
theorem migrates_of {i : Fin 4 → Nat → Instr} {op : Nat} (res : Bool) (w host : Word)
    (hi : (i, op) ∈ [(Instr.migrationMove, 0), (.migrationEvict, 1), (.migrationFetch, 2), (.migrationCompress, 3), (.migrationExpand, 4)])
    (h1 : atEngine 0x20 (moveCard w host) (moving res w host) = true)
    (h2 : (decide ((Migration.ofCard (moveCard w host).cardBytes).op = op) && !(((moving res w host).die 0).retiredEngines.contains 0x20)) = true)
    (h3 : (let m := Migration.ofCard (moveCard w host).cardBytes
           pagesOver (runPages op (0 : Fin 4) 1 m.va m.host (m.npages - 0 / 65536) (0 / 65536)
             ((moving res w host).issueCard 0 (moveCard w host)))) = true) :
    Migrates (moving res w host) → ∃ t, exec (i 0 1) (moving res w host) = .next t := by
  intro h
  rw [Bool.and_eq_true, Bool.not_eq_true', decide_eq_true_eq] at h2
  have h := h i op hi 0 1 (moveCard w host) (atEngine_of h1) h2.1
  dsimp only at h
  rw [if_neg (by show ¬ ((moving res w host).die 0).retiredEngines.contains 0x20 = true; rw [h2.2]; decide)] at h
  obtain ⟨t, n, c, ht⟩ := pagesOver_ex h3
  exact ⟨_, h.1 t n c ht⟩
theorem witness_migrates :
    (Migrates (moving true 0 0) → ∃ t, exec (.migrationMove 0 1) (moving true 0 0) = .next t) ∧
    (Migrates (moving true 1 0xFFFC000000000000) → ∃ t, exec (.migrationEvict 0 1) (moving true 1 0xFFFC000000000000) = .next t) ∧
    (Migrates (moving false 2 0xFFFC000000000000) → ∃ t, exec (.migrationFetch 0 1) (moving false 2 0xFFFC000000000000) = .next t) ∧
    (Migrates (moving false 3 0) → ∃ t, exec (.migrationCompress 0 1) (moving false 3 0) = .next t) ∧
    (Migrates (moving false 4 0) → ∃ t, exec (.migrationExpand 0 1) (moving false 4 0) = .next t) ∧
    (Migrates (retiredEngine 0x20 (moving true 0 0)) → ∃ t, exec (.migrationMove 0 1) (retiredEngine 0x20 (moving true 0 0)) = .next t) :=
  ⟨migrates_of (op := 0) true 0 0 (by simp) (by decide +kernel) (by decide +kernel) (by decide +kernel),
   migrates_of (op := 1) true 1 0xFFFC000000000000 (by simp) (by decide +kernel) (by decide +kernel) (by decide +kernel),
   migrates_of (op := 2) false 2 0xFFFC000000000000 (by simp) (by decide +kernel) (by decide +kernel) (by decide +kernel),
   migrates_of (op := 3) false 3 0 (by simp) (by decide +kernel) (by decide +kernel) (by decide +kernel),
   migrates_of (op := 4) false 4 0 (by simp) (by decide +kernel) (by decide +kernel) (by decide +kernel),
   fun h => by
     have h := h .migrationMove 0 (by simp) 0 1 (moveCard 0 0) (atEngine_of (by decide +kernel)) (by decide +kernel)
     dsimp only at h
     rw [if_pos (by decide +kernel)] at h
     exact ⟨_, h⟩⟩

/-- The oldest request is for page 0, with frames to take or without. -/
def requested (frames : List (Nat × Nat)) : State := (paged false).setDie 0 { (paged false).die 0 with frames := frames, residency := [0] }
theorem witness_serves_residency :
    (ServesResidency (requested [(5, 1)]) → ∃ t, exec (.residencyRequestService 0 0) (requested [(5, 1)]) = .next t) ∧
    (ServesResidency (requested []) → ∃ t, exec (.residencyRequestService 0 0) (requested []) = .next t) :=
  ⟨fun h => (ended (m := runPage .sirxon 2 (0 : Fin 4) (65536 * 0) ((tabFind 0 ((requested [(5, 1)]).die 0).evicted).getD (0 : Word).toNat))
      (s := (requested [(5, 1)]).setDie 0 { (requested [(5, 1)]).die 0 with residency := [] }) (fun _ _ => true) (by decide +kernel)).elim
        fun _ h1 => h1.elim fun t ht => ⟨_, (h 0 0 0 [] (by decide +kernel)).1 t ht.1⟩,
   fun h => (raised (m := runPage .sirxon 2 (0 : Fin 4) (65536 * 0) ((tabFind 0 ((requested []).die 0).evicted).getD (0 : Word).toNat))
      (s := (requested []).setDie 0 { (requested []).die 0 with residency := [] }) (by decide +kernel)).elim fun c ht => ht.elim fun a ht => ht.elim fun d ht => ht.elim fun t ht =>
     ⟨_, (h 0 0 0 [] (by decide +kernel)).2.1 t c a d ht⟩⟩

/-! Cards of the towers: one bank and one accumulator of pseudo-channel 0 over the block at VA 0; one token of one block. -/
def macCard (blk : Word) : Entry := card1 0x10 .issued [blk, 0x20000, 0x20100, 0x0001010000000101]
def attnCard : Entry := card1 0x11 .issued [0x20040, 0x20000, 0x20100, 0x3F80000001000001, 1]
/-- Pseudo-channel 0 in the compute phase of the card of entry 1. -/
def computing (e : Entry) : State := (tabled [e] mapped).setPcAt 0 { compute := true, card := some (0, 1) }
def holdsPhase (s : State) (n : Nat) (kind : BitVec 8) (e : Entry) : Bool :=
  decide (s.entry 0 1 = some e ∧ e.card = some kind ∧ e.status = .issued ∧ e.towerPc 0 = some n ∧ (s.pcAt n).compute = true ∧
    (s.pcAt n).card = some (0, 1))
theorem holdsPhase_of {s : State} {n : Nat} {kind : BitVec 8} {e : Entry} (h : holdsPhase s n kind e = true) :
    HoldsPhase s 0 1 n kind e := by
  unfold holdsPhase at h
  rw [decide_eq_true_eq] at h
  exact h
theorem tryFor_fails {α : Type} {die serial : Nat} {m : M α} {s t : State} {c : Cause} {a : Word} {d : BitVec 16}
    (h : m.on s = (.error (.cause c a d), t)) : s.tryFor die serial m = .fails t c := by
  simp only [State.tryFor, State.tryAs, h]
/-- Does a computation end with no request of the entry left open? -/
def settles {α : Type} (m : M α) (s : State) : Bool := ends m s fun _ t => decide (((t.entry 0 1).bind Entry.sent) = none)
theorem settled {α : Type} {m : M α} {s : State} (h : settles m s = true) : ∃ a t, s.tryFor 0 1 m = .ok a t := by
  obtain ⟨a, t, h1, h2⟩ := ended _ h
  exact ⟨a, t, tryFor_ok h1 (of_decide_eq_true h2)⟩
/-- The work of a card on the state in which its phase is lifted. -/
def macWork (blk : Word) : M Unit := bankmacWork (0 : Fin 4) 0 (BankMac.ofCard (macCard blk).cardBytes)
theorem multiplying_of (parity : Bool) (h3 : ((computing (macCard 0)).pcAt 0).parity = false)
    (h4 : settles (macWork 0) (lifted 0 (computing (macCard 0))) = true) :
    MultipliesBanks (computing (macCard 0)) → ∃ t, exec (.bankmac 0 1 parity) (computing (macCard 0)) = .next t := by
  intro h
  obtain ⟨_, t, ht⟩ := settled h4
  have h := (h 0 1 0 parity (macCard 0) (holdsPhase_of (by decide +kernel))).2 (by decide +kernel)
  cases parity with
  | false => exact ⟨_, h.1 t ht (by rw [h3]; rfl)⟩
  | true => exact ⟨_, h.2.1 t ht rfl⟩
def retiredUnits (s : State) : State := s.setPcAt 0 { s.pcAt 0 with retired := true }
theorem witness_multiplies :
    (MultipliesBanks (computing (macCard 0)) → ∃ t, exec (.bankmac 0 1 false) (computing (macCard 0)) = .next t) ∧
    (MultipliesBanks (computing (macCard 0)) → ∃ t, exec (.bankmac 0 1 true) (computing (macCard 0)) = .next t) ∧
    (MultipliesBanks (computing (macCard 0x10000000000)) → ∃ t, exec (.bankmac 0 1 false) (computing (macCard 0x10000000000)) = .next t) ∧
    (MultipliesBanks (retiredUnits (computing (macCard 0))) →
      ∃ t, exec (.bankmac 0 1 false) (retiredUnits (computing (macCard 0))) = .next t) :=
  ⟨multiplying_of false (by decide +kernel) (by decide +kernel), multiplying_of true (by decide +kernel) (by decide +kernel),
   fun h => by
     obtain ⟨c, a, d, t, ht⟩ := raised (m := macWork 0x10000000000) (s := lifted 0 (computing (macCard 0x10000000000))) (by decide +kernel)
     exact ⟨_, ((h 0 1 0 false (macCard 0x10000000000) (holdsPhase_of (by decide +kernel))).2 (by decide +kernel)).2.2 t c (tryFor_fails ht)⟩,
   fun h => ⟨_, (h 0 1 0 false (macCard 0) (holdsPhase_of (by decide +kernel))).1 (by decide +kernel)⟩⟩
theorem witness_attends :
    (Attends (computing attnCard) → ∃ t, exec (.attn 0 1 false) (computing attnCard) = .next t) ∧
    (Attends (retiredUnits (computing attnCard)) → ∃ t, exec (.attn 0 1 false) (retiredUnits (computing attnCard)) = .next t) := by
  refine ⟨fun h => ?_, fun h => ⟨_, (h 0 1 0 false attnCard (holdsPhase_of (by decide +kernel))).1 (by decide +kernel)⟩⟩
  obtain ⟨_, t, ht⟩ := settled (m := do
      attnWork (0 : Fin 4) 0 (Attention.ofCard attnCard.cardBytes)
      modify (unitsCleared 0)) (s := lifted 0 (computing attnCard)) (by decide +kernel)
  exact ⟨_, ((h 0 1 0 false attnCard (holdsPhase_of (by decide +kernel))).2 (by decide +kernel)).1 t ht (by decide +kernel)⟩

/-! A page cleared or copied within its subarray: the card issues, or its page is not mapped; row 0 of the page, on pseudo-channel
pcOf 0 0x30000, stands in the card's phase. -/
def zeroCard (dst : Word) : Entry := card1 0x12 .waiting [dst, 0, 1]
def rowCard (src : Word) : Entry := card1 0x13 .waiting [0x30000, src, 1]
def nextRow (s : State) : Bool := (s.nextCard 0 Entry.isRow).any fun x => decide (x.serial = 1)
theorem nextRow_ex {s : State} (h : nextRow s = true) : ∃ x, s.nextCard 0 Entry.isRow = some x ∧ x.serial = 1 := by
  obtain ⟨x, h1, h2⟩ := (Option.any_eq_true _ _).1 h
  exact ⟨x, h1, of_decide_eq_true h2⟩
def rowRun (copies : Bool) (e : Entry) : M (List (Nat × Nat)) := rowPages (0 : Fin 4) copies (RowCard.ofCard e.cardBytes)
theorem rowIssue_of {i : Fin 4 → Nat → Bool → Instr} {kind : BitVec 8} {copies : Bool} {e : Entry}
    (hi : (i, kind, copies) ∈ [(Instr.rowzero, 0x12, false), (.rowcopy, 0x13, true)])
    (h1 : decide ((tabled [e] mapped).entry 0 1 = some e ∧ e.card = some kind ∧ e.cardReady = true ∧ e.status ≠ .issued) = true)
    (h2 : nextRow (tabled [e] mapped) = true) (h3 : ((tabled [e] mapped).die 0).retiredEngines.contains kind = false)
    (h4 : ends (rowRun copies e) (tabled [e] mapped) (fun _ t => decide ((t.entry 0 1) = some e ∧ e.sent = none)) = true) :
    RowCardsIssue (tabled [e] mapped) → ∃ t, exec (i 0 1 false) (tabled [e] mapped) = .next t := by
  intro h
  obtain ⟨a1, a2, a3, a4⟩ := of_decide_eq_true h1
  obtain ⟨x, b1, b2⟩ := nextRow_ex h2
  obtain ⟨l, t, c1, c2⟩ := ended _ h4
  obtain ⟨c3, c4⟩ := of_decide_eq_true c2
  exact ((h i kind copies hi 0 1 false e x a1 a2 a3 a4 b1 b2 h3).1 l t (tryFor_ok c1 (by rw [show ((0 : Fin 4) : Nat) = 0 from rfl, c3]; exact c4))
    (by rw [show ((0 : Fin 4) : Nat) = 0 from rfl, c3]; rfl)).imp fun _ h => h.1
theorem witness_row_cards_issue :
    (RowCardsIssue (tabled [zeroCard 0x30000] mapped) → ∃ t, exec (.rowzero 0 1 false) (tabled [zeroCard 0x30000] mapped) = .next t) ∧
    (RowCardsIssue (tabled [rowCard 0x230000] mapped) → ∃ t, exec (.rowcopy 0 1 false) (tabled [rowCard 0x230000] mapped) = .next t) ∧
    (RowCardsIssue (tabled [zeroCard 0x10000000000] mapped) →
      ∃ t, exec (.rowzero 0 1 false) (tabled [zeroCard 0x10000000000] mapped) = .next t) := by
  refine ⟨rowIssue_of (kind := 0x12) (copies := false) (by simp) (by decide +kernel) (by decide +kernel) (by decide +kernel) (by decide +kernel),
    rowIssue_of (kind := 0x13) (copies := true) (by simp) (by decide +kernel) (by decide +kernel) (by decide +kernel) (by decide +kernel), fun h => ?_⟩
  obtain ⟨x, b1, b2⟩ := nextRow_ex (s := tabled [zeroCard 0x10000000000] mapped) (by decide +kernel)
  obtain ⟨c, a, d, t, ht⟩ := raised (m := rowRun false (zeroCard 0x10000000000)) (s := tabled [zeroCard 0x10000000000] mapped) (by decide +kernel)
  have hy : (((rowRun false (zeroCard 0x10000000000)).on (tabled [zeroCard 0x10000000000] mapped)).2.entry 0 1).isSome = true := by
    decide +kernel
  rw [ht] at hy
  obtain ⟨y, hy⟩ := isSome_ex hy
  exact ((h .rowzero 0x12 false (by simp) 0 1 false (zeroCard 0x10000000000) x (by decide +kernel) rfl (by decide +kernel) (by decide) b1 b2
    (by decide +kernel)).2 t c y (tryFor_fails ht) hy).imp fun _ h => h.elim fun _ h => h.elim fun _ h => h.1
/-- A card under way on its page. -/
def underWay (e : Entry) (src : Nat) : Entry := { e with status := .issued, pages := [(0x30000, src)] }
/-- Its first row's pseudo-channel stands in the card's phase, with a parity error or not. -/
def running (e : Entry) (src : Nat) (bad : Bool) : State :=
  (tabled [underWay e src] mapped).setPcAt (pcOf 0 0x30000) { compute := true, card := some (0, 1), parity := bad }
theorem noParity {s : State} {die : Fin 4} {serial : Nat}
    (h : (s.pcs.all fun x => decide (x.2.card ≠ some (die, serial)) || !(s.pcAt x.1).parity) = true) :
    ∀ x, x ∈ s.pcs → x.2.card = some (die, serial) → (s.pcAt x.1).parity = false := by
  intro x hx hc
  have := List.all_eq_true.1 h x hx
  simpa [hc] using this
theorem running_canonical : MemoryCanonical (running (rowCard 0x230000) 0x230000 false) := by unfold MemoryCanonical; decide +kernel
theorem witness_rows :
    (ClearsRows (running (zeroCard 0x30000) 0x30000 false) →
      ∃ t, exec (.rowzero 0 1 false) (running (zeroCard 0x30000) 0x30000 false) = .next t) ∧
    (running (zeroCard 0x30000) 0x30000 false).rowsReady 0 (underWay (zeroCard 0x30000) 0x30000) ≠ [] ∧
    (CopiesRows (running (rowCard 0x230000) 0x230000 false) →
      ∃ t, exec (.rowcopy 0 1 false) (running (rowCard 0x230000) 0x230000 false) = .next t) ∧
    (RowsBreak (running (zeroCard 0x30000) 0x30000 true) →
      ∃ t, exec (.rowzero 0 1 false) (running (zeroCard 0x30000) 0x30000 true) = .next t) ∧
    (RowsBreak (running (rowCard 0x230000) 0x230000 true) →
      ∃ t, exec (.rowcopy 0 1 false) (running (rowCard 0x230000) 0x230000 true) = .next t) :=
  ⟨fun h => (h 0 1 (underWay (zeroCard 0x30000) 0x30000) 0x30000 0x30000 [] ⟨by decide +kernel, rfl, rfl, rfl, noParity (by decide +kernel)⟩).imp
     fun _ h => h.1,
   by decide +kernel,
   fun h => (h 0 1 (underWay (rowCard 0x230000) 0x230000) 0x30000 0x230000 [] running_canonical
     ⟨by decide +kernel, rfl, rfl, rfl, noParity (by decide +kernel)⟩ (by decide) (by decide) (by decide) (by decide +kernel)).imp fun _ h => h.1,
   fun h => (h .rowzero 0x12 (by simp) 0 1 (pcOf 0 0x30000) false (underWay (zeroCard 0x30000) 0x30000) (by decide +kernel) rfl rfl
     (by decide +kernel) (by decide +kernel) (by decide +kernel) (by decide +kernel)).imp fun _ h => h.elim fun _ h => h.elim fun _ h => h.1,
   fun h => (h .rowcopy 0x13 (by simp) 0 1 (pcOf 0 0x30000) false (underWay (rowCard 0x230000) 0x230000) (by decide +kernel) rfl rfl
     (by decide +kernel) (by decide +kernel) (by decide +kernel) (by decide +kernel)).imp fun _ h => h.elim fun _ h => h.elim fun _ h => h.1⟩

/-- A phase that a yield stopped goes on; a row card that has reached the channel; the next card issues; the yield falls due at
30,400 cycles; the normal phase ends when nothing waits, and does not end while something does. -/
def yielded1 : State := (tabled [{ card1 0x10 .issued [0, 0, 0, 0] with status := .issued }] base).setPcAt 0 { card := some (0, 1), yielded := true }
def dueCard : State := tabled [card1 0x10 .waiting [0, 0, 0, 0]] base
def pagedRow : Entry := { zeroCard 0x30000 with status := .issued, pages := [(0x30000, 0x30000)] }
def dueRow : State := tabled [pagedRow] mapped
/-- A row card that has begun on a channel. -/
def begunRow (n : Nat) : Entry := { pagedRow with begun := [n] }
def laterEntry : Entry := { begunRow (pcOf 0 0x40000) with pages := [(0x30000, 0x30000), (0x40000, 0x40000)] }
def laterRow : State := tabled [laterEntry] mapped
def keptRow : State := tabled [begunRow (pcOf 0 0x30000), card1 0x10 .waiting [0, 0, 0, 0]] mapped
def yielding1 : State := { base.setPcAt 0 { compute := true, queuedAt := some 0 } with cycle := 30400 }
def normal1 : State := base.setPcAt 0 { normalAt := some 0 }
def chan (n : Nat) : PcId := ⟨Fin.ofNat 8 (n / 32), Fin.ofNat 32 n⟩
theorem witness_phases :
    (PhaseStarts yielded1 → ∃ t, exec (.computePhaseStart ⟨0, 0⟩) yielded1 = .next t) ∧
    (PhaseStarts dueCard → ∃ t, exec (.computePhaseStart ⟨0, 0⟩) dueCard = .next t) ∧
    (PhaseStarts dueRow → ∃ t, exec (.computePhaseStart (chan (pcOf 0 0x30000))) dueRow = .next t) ∧
    (PhaseStarts laterRow → ∃ t, exec (.computePhaseStart (chan (pcOf 0 0x40000))) laterRow = .next t) ∧
    (PhaseStarts keptRow → ∃ e, keptRow.nextTower 0 (pcOf 0 0x30000) = some e) ∧
    (PhaseYields yielding1 → ∃ t, exec (.computePhaseYield ⟨0, 0⟩) yielding1 = .next t) ∧
    (NormalEnds normal1 → ∃ t, exec (.normalPhaseEnd ⟨0, 0⟩) normal1 = .next t) :=
  ⟨fun h => (isSome_ex (o := yielded1.entry 0 1) (by decide +kernel)).elim fun e he =>
     ⟨_, (h ⟨0, 0⟩ (by decide +kernel) (by decide +kernel) (by decide +kernel)).1 0 1 e (by decide +kernel) he⟩,
   fun h => ⟨_, (((h ⟨0, 0⟩ (by decide +kernel) (by decide +kernel) (by decide +kernel)).2 (by decide +kernel) (by decide +kernel)).2
     (card1 0x10 .waiting [0, 0, 0, 0]) (by decide +kernel)).2.2 (by decide +kernel)⟩,
   fun h => ⟨_, (((h (chan (pcOf 0 0x30000)) (by decide +kernel) (by decide +kernel) (by decide +kernel)).2 (by decide +kernel) (by decide +kernel)).2
     pagedRow (by decide +kernel)).1 (by decide +kernel) (by decide +kernel) (by decide +kernel) (by decide +kernel)⟩,
   fun h => ⟨_, (((h (chan (pcOf 0 0x40000)) (by decide +kernel) (by decide +kernel) (by decide +kernel)).2 (by decide +kernel) (by decide +kernel)).2
     laterEntry (by decide +kernel)).2.1 (by decide +kernel) (by decide +kernel) (by decide +kernel) (by decide +kernel)⟩,
   fun h => ⟨_, ((h (chan (pcOf 0 0x30000)) (by decide +kernel) (by decide +kernel) (by decide +kernel)).2 (by decide +kernel) (by decide +kernel)).1
     (begunRow (pcOf 0 0x30000)) (by decide +kernel)⟩,
   fun h => ⟨_, h ⟨0, 0⟩ 0 (by decide +kernel) (by decide +kernel) (by decide +kernel)⟩,
   fun h => ⟨_, (h ⟨0, 0⟩ 0 (by decide +kernel)).1 (Or.inl (by decide +kernel))⟩⟩
/-- Units asleep, with live state or not, its first spill row marked or not. -/
def spillLine : Nat := reservedPa 255 0 spillRow 0 / 128
def asleep1 (live : Bool) (pois : List Nat) : State :=
  let s := base.setPcAt 255 { power := .powerDown, spilled := live }
  s.setDie 3 { s.die 3 with poison := pois }
theorem witness_power :
    (Sleeps base → ∃ t, exec (.powerStateRequest ⟨7, 31⟩ true) base = .next t) ∧
    (Sleeps (base.setPcAt 255 { live := true }) → ∃ t, exec (.powerStateRequest ⟨7, 31⟩ true) (base.setPcAt 255 { live := true }) = .next t) ∧
    (Wakes (asleep1 false []) → ∃ t, exec (.powerStateExit ⟨7, 31⟩ true) (asleep1 false []) = .next t) ∧
    (Wakes (asleep1 true []) → ∃ t, exec (.powerStateExit ⟨7, 31⟩ false) (asleep1 true []) = .next t) ∧
    (Wakes (asleep1 true []) → ∃ t, exec (.powerStateExit ⟨7, 31⟩ true) (asleep1 true []) = .next t) ∧
    (Wakes (asleep1 true [spillLine]) → ∃ t, exec (.powerStateExit ⟨7, 31⟩ false) (asleep1 true [spillLine]) = .next t) :=
  ⟨fun h => ⟨_, (h ⟨7, 31⟩ true (by decide +kernel) (by decide +kernel)).1 (by decide +kernel)⟩,
   fun h => ⟨_, (h ⟨7, 31⟩ true (by decide +kernel) (by decide +kernel)).2 (by decide +kernel)⟩,
   fun h => ⟨_, (h ⟨7, 31⟩ true (by decide +kernel)).1 (by decide +kernel)⟩,
   fun h => ⟨_, (h ⟨7, 31⟩ false (by decide +kernel)).2.1 (by decide +kernel) (by decide +kernel) rfl⟩,
   fun h => ((h ⟨7, 31⟩ true (by decide +kernel)).2.2.2 (by decide +kernel) (by decide +kernel) rfl).imp fun _ h => h.1,
   fun h => (isSome_ex (o := (asleep1 true [spillLine]).spillMark 255) (by decide +kernel)).elim fun pa hpa =>
     ⟨_, (h ⟨7, 31⟩ false (by decide +kernel)).2.2.1 pa (by decide +kernel) hpa⟩⟩

/-! Background work: a copy of eight bytes, and one whose source no table maps; a weight load; a pick; flits and writes. -/
def transfer1 (src : Word) : Transfer :=
  { src := src, dst := 0x20100, len := 8, srcA := false, dstA := false, rv := 31, split := false, dests := [], mcst := false, scope := .die }
def moved (src : Word) : State :=
  let q := mapped.seq ⟨0, 0⟩
  mapped.setSeq ⟨0, 0⟩ { q with channels := q.channels.set 0 { busy := true, transfer := some (transfer1 src) } }
theorem witness_transfers :
    (TransferEnds (moved 0x20000) → ∃ t, exec (.copyTransferComplete ⟨0, 0⟩ 0) (moved 0x20000) = .next t) ∧
    (TransferFails (moved 0x10000000000) → ∃ t, exec (.copyTransferFailure ⟨0, 0⟩ 0) (moved 0x10000000000) = .next t) := by
  refine ⟨fun h => ?_, fun h => ?_⟩
  · have hc : (match (moved 0x20000).runTransfer ⟨0, 0⟩ 0 with
        | .complete s1 => ends (transferArrivals ⟨0, 0⟩ 0 (transfer1 0x20000)) s1 (fun _ _ => true)
        | _ => false) = true := by decide +kernel
    split at hc
    · next s1 h1 =>
      obtain ⟨_, s2, h2, _⟩ := ended _ hc
      exact ⟨_, h ⟨0, 0⟩ 0 (transfer1 0x20000) s1 s2 (by decide +kernel) h1 h2⟩
    · exact absurd hc (by decide)
  · have hc : (match (moved 0x10000000000).runTransfer ⟨0, 0⟩ 0 with
        | .fails s1 _ => decide (((s1.seq ⟨0, 0⟩).channels[0]).transfer = some (transfer1 0x10000000000))
        | _ => false) = true := by decide +kernel
    split at hc
    · next s1 c h1 => exact ⟨_, (h ⟨0, 0⟩ 0 (transfer1 0x10000000000) s1 (of_decide_eq_true hc)).1 c h1⟩
    · exact absurd hc (by decide)

def load1 : WeightLoad :=
  { mac := 0, set := 0, fmt := 0, aSpace := false, src := 0xFFFC000000000000, who := ⟨0, 0⟩, serial := none, vpc := 0, slot := 0, stamp := 0,
    scope := .system }
def loading : State := base.setCore 0 { base.core 0 with loads := [load1] }
def linesDone : LoadRead → Bool
  | .done _ _ => true
  | _ => false
theorem linesDone_ex {r : LoadRead} (h : linesDone r = true) : ∃ b f, r = .done b f := by
  cases r with
  | done b f => exact ⟨b, f, rfl⟩
  | waits => exact Bool.noConfusion h
  | unanswered _ => exact Bool.noConfusion h
theorem witness_load_ends : LoadEnds loading → ∃ t, exec (.weightLoadComplete 0) loading = .next t := by
  intro h
  obtain ⟨b, f, h1⟩ := linesDone_ex (r := (loadLines load1 (List.range 256) loading).2) (by decide +kernel)
  exact ((h 0 load1 [] (loadLines load1 (List.range 256) loading).1 (by decide +kernel) rfl).1 b f (Prod.ext rfl h1)).imp fun _ h => h.1

def pick1 : Pick := { d := 0, rho := 0, stamp := 0, columns := [] }
def picked : State :=
  base.setCore 0 ((base.core 0).setMacro 0 { (base.core 0).macroAt 0 with picks := [pick1] })
/-- A flit in the send register, for this package or for package 1, toward which the table names link 0 of a network that is up. -/
def out1 (pkg : BitVec 12) : Outgoing := { flit := flit1, pkg := pkg, cluster := 0, queue := 7 }
def sending1 (pkg : BitVec 12) : State :=
  { mapped.setCore 0 { mapped.core 0 with sendReg := some (out1 pkg) } with nets := { mapped.nets with fabric := [(1, 0x80)] } }
theorem none_sends (pkg : BitVec 12) (h : (sending1 pkg).core 0 = { mapped.core 0 with sendReg := some (out1 pkg) }) :
    NoSenderWaits (sending1 pkg) 0 := by
  intro g p hp
  have : ∀ g : Fin 2, (({ mapped.core 0 with sendReg := some (out1 pkg) } : Core).seq g).wait = none := by
    show ∀ g : Fin 2, ((mapped.core 0).seq g).wait = none
    decide +kernel
  rw [show (sending1 pkg).seq ⟨0, g⟩ = ((sending1 pkg).core 0).seq g from rfl, h, this g] at hp
  exact absurd hp (by simp)
def inbound1 : Inbound := { queue := 7, flit := flit1, origin := 0 }
def flying : State := base.setCluster 0 { base.cluster 0 with inbound := [inbound1] }
def write1 : PendingWrite := { va := 0x20000, data := [1], time := 0, hint := 0, who := ⟨0, 0⟩ }
def draining1 (l : List PendingWrite) : State := mapped.setCluster 0 { mapped.cluster 0 with pending := l }
theorem witness_background :
    (Gleans picked → ∃ t, exec (.gleanerCheck 0 0) picked = .next t) ∧
    (Injects (sending1 0) → ∃ t, exec (.sendFlitInjection 0) (sending1 0) = .next t) ∧
    (Injects (sending1 1) → ∃ t, exec (.sendFlitInjection 0) (sending1 1) = .next t) ∧
    (FlitArrives flying → ∃ t, exec (.messageQueueArrival 0 7) flying = .next t) ∧
    (CacheDrains (draining1 []) → ∃ t, exec (.clusterCacheWriteDrain 0) (draining1 []) = .next t) ∧
    (CacheDrains (draining1 [write1]) → ∃ t, exec (.clusterCacheWriteDrain 0) (draining1 [write1]) = .next t) :=
  ⟨fun h => (h 0 0 pick1 [] (by decide +kernel)).imp fun _ h => h.1,
   fun h => ⟨_, (h 0 (out1 0) (by decide +kernel) (none_sends 0 (by decide +kernel))).1 (by decide +kernel) (by decide +kernel) (by decide +kernel)⟩,
   fun h => ⟨_, (h 0 (out1 1) (by decide +kernel) (none_sends 1 (by decide +kernel))).2 (by decide +kernel) (by decide +kernel) (by decide +kernel)⟩,
   fun h => (h 0 7 inbound1 (by decide +kernel)).imp fun _ h => h.1,
   fun h => ⟨_, h.1 0 (by decide +kernel)⟩,
   fun h => by
     have hp : ((draining1 [write1]).applyPending (0 : Fin 128) write1).2.isSome = true := by decide +kernel
     obtain ⟨n, hn⟩ := isSome_ex hp
     exact ((h.2 0 write1 ((draining1 [write1]).applyPending (0 : Fin 128) write1).1 (by decide +kernel)).1 n (Prod.ext rfl hn)).elim
       fun _ h => ⟨_, h.1⟩⟩

/-! ### Witnesses: upkeep, links, health -/

/-- Core 1 rests; macro 0 of it has the violations that the threshold asks for, and was calibrated anew before. -/
def worn (again : Nat) : State :=
  base.setCore 1 ((base.core 1).setMacro 0 { (base.core 1).macroAt 0 with violations := base.sirxon.threshold, recalibrations := again })
def bin0 (st : BinState) : State := base.setCluster 0 { base.cluster 0 with bins := (base.cluster 0).bins.set 0 { state := st } }
/-- The last row has shown an uncorrectable error. -/
def row1 : RowId := ⟨⟨7, 31⟩, 15, 65535⟩
def wornRow : State := base.setDie 3 { base.die 3 with failedRows := [rowKey 3 (rowAddress row1)] }
/-- Rank 0 of entry 1 runs on core 0. -/
def runningRank : State :=
  let s := tabled [{ entry1 with status := .running [0] }] base
  let r : TaskRef := { die := 0, serial := 1, rank := 0, size := 1, ctx := 0, long := false, args := 0 }
  s.setSeq ⟨0, 0⟩ { s.seq ⟨0, 0⟩ with task := some r }
theorem witness_upkeep :
    (Patrols base → ∃ t, exec (.patrolRead 3 1073741823 .uncorrectable) base = .next t) ∧
    (Spares wornRow → ∃ t, exec (.rowSparing row1) wornRow = .next t) ∧
    (Recalibrates (worn 0) → ∃ t, exec (.macroRecalibration 1 0) (worn 0) = .next t) ∧
    (RetiresMacro (worn 1) → ∃ t, exec (.macroRetirement 1 0) (worn 1) = .next t) ∧
    (RetiresCore base → ∃ t, exec (.coreRetirement 511) base = .next t) ∧
    (RetiresBin (bin0 .free) → ∃ t, exec (.binRetirement 0 0) (bin0 .free) = .next t) ∧
    (RetiresBin (bin0 (.owned 0 0)) → ∃ t, exec (.binRetirement 0 0) (bin0 (.owned 0 0)) = .next t) ∧
    (RetiresBin (bin0 (.parked 1 0 0)) → ∃ t, exec (.binRetirement 0 0) (bin0 (.parked 1 0 0)) = .next t) :=
  ⟨fun h => (h 3 1073741823 (by decide +kernel)).2.2.imp fun _ h => h.1,
   fun h => (h row1 (Or.inl (by decide +kernel)) (by decide +kernel) (by decide +kernel)).imp fun _ h => h.1,
   fun h => (h 1 0 (by decide +kernel) (by decide +kernel) (by decide +kernel) (Or.inl (by decide +kernel))).imp fun _ h => h.1,
   fun h => (h 1 0 (by decide +kernel) (by decide +kernel) (by decide +kernel) (by decide +kernel) (by decide +kernel)).imp fun _ h => h.1,
   fun h => (h 511 (by decide +kernel)).imp fun _ h => h.1,
   fun h => ((h 0 0).1 (by decide +kernel)).imp fun _ h => h.1,
   fun h => ⟨_, (h 0 0).2 (Or.inl ⟨0, 0, by decide +kernel⟩)⟩,
   fun h => ⟨_, (h 0 0).2 (Or.inr ⟨1, 0, 0, by decide +kernel⟩)⟩⟩
/-- The rank that runs on a core that is retired. -/
theorem witness_rank_retired : RetiresCore runningRank → ∃ (t : State) (y : Entry) (f : EndInfo),
    t.entry 0 1 = some y ∧ y.failure = some f ∧ f.cause = 0x341 := by
  intro h
  obtain ⟨t, -, -, -, -, -, -, -, ht⟩ := h 0 (by decide +kernel)
  obtain ⟨-, y, f, hy⟩ := ht 0 { die := 0, serial := 1, rank := 0, size := 1, ctx := 0, long := false, args := 0 }
    { entry1 with status := .running [0] } (by decide +kernel) (by decide +kernel) (by decide +kernel) (by decide +kernel) rfl
  exact ⟨t, y, f, hy⟩

/-- One record waits, the ring is on and empty. -/
def ringing : State :=
  { base with sirxon := { base.sirxon with records := [.health { stamp := 1, kind := 2, loc := 3, value := 4 }] },
              host := { base.host with hrEn := true } }
/-- A flit waits at link 3, which retrains or not. -/
def crossing (retrains : Bool) : State :=
  let l : Link := { base.nets.links[(3 : Fin 18)] with retraining := retrains, waiting := [{ pkg := 5, hop := 1, cls := .request, source := .host, sequence := 0 }] }
  { base with nets := { base.nets with links := base.nets.links.set (3 : Fin 18) l } }
theorem witness_links :
    (LaneFails base → ∃ t, exec (.laneFailure 17 8) base = .next t) ∧ (LinkRecovers base → ∃ t, exec (.flitReplay 17) base = .next t) ∧
    (LinkRecovers (crossing true) → ∃ t, exec (.linkRetrainComplete 3) (crossing true) = .next t) ∧
    (LinkRecovers (crossing false) → ∃ t, exec (.flitReplay 3) (crossing false) = .next t) ∧
    (RoutesRewritten base → ∃ t, exec (.routingTableRewrite [(4095, 0x92, 1)]) base = .next t) ∧
    (RoutesRewritten base → ∃ t, exec (.routingTableRewrite [(4095, 0x91, 8)]) base = .next t) ∧
    (RingFills ringing → ∃ t, exec .healthRingWrite ringing = .next t) :=
  ⟨fun h => (h 17 8 (by decide +kernel) (by decide +kernel)).imp fun _ h => h.1,
   fun h => ⟨_, (h 17).2.2 (by decide +kernel) (by decide +kernel)⟩, fun h => ⟨_, (h 3).1 (by decide +kernel)⟩,
   fun h => ⟨_, (h 3).2.2 (by decide +kernel) (by decide +kernel)⟩,
   fun h => ⟨_, (h 4095 0x92 1 (by decide)).1 (Or.inl (by decide +kernel))⟩,
   fun h => ((h 4095 0x91 8 (by decide)).2 (by decide +kernel) (by decide +kernel)).imp fun _ h => h.1,
   fun h => (h _ [] rfl (by decide +kernel) (by decide +kernel) (by decide +kernel)).imp fun _ h => h.1⟩
theorem witness_regulates :
    (Regulates base → ∃ t, exec (.stampRateCorrection (-100) true) base = .next t) ∧
    (Regulates base → ∃ t, exec (.dvfsChange 520 8) base = .next t) ∧ (Regulates base → ∃ t, exec (.dvfsChange 600 5) base = .next t) := by
  have rest : ∀ (d : Fin 4) (e : Entry) (c : List (Fin 512)), e ∈ (base.die d).table → e.status ≠ .running c := fun d e c he => by
    have : ∀ d : Fin 4, (base.die d).table = [] := by decide +kernel
    rw [this d] at he; exact absurd he List.not_mem_nil
  exact ⟨fun h => ⟨_, h.1 (-100) (by decide)⟩,
    fun h => (h.2.2.2 520 8 (by decide) (by decide) (by decide) (by decide) (by decide) rest).imp fun _ h => h.1,
    fun h => (h.2.2.2 600 5 (by decide) (by decide) (by decide) (by decide) (by decide) rest).imp fun _ h => h.1⟩

/-! ### Witnesses: the host -/

def booted (n : Nat) (s : State) : State := { s with host := { s.host with bootState := n } }
def plan1 : BringUp :=
  { package := 5, retiredCores := [], retiredMacros := [], retiredBins := [], dies := [], fabric := [], gleanerThreshold := 1,
    failedLanes := [], retiredRows := [], retiredRouters := [], rowThreshold := 3 }
theorem witness_boot :
    (BootStarts (booted 0 base) → ∃ t, exec (.bootctlWrite 0x10000000) (booted 0 base) = .next t) ∧
    (BootStarts (booted 2 base) → ∃ t, exec (.bootctlWrite 0x10000001) (booted 2 base) = .next t) ∧
    (Verifies (booted 1 base) → ∃ t, exec .imageVerification (booted 1 base) = .next t) ∧
    (BringsUp (booted 3 base) → ∃ t, exec (.sirxonBringUp plan1) (booted 3 base) = .next t) :=
  ⟨fun h => ⟨_, h 0x10000000 (Or.inl rfl)⟩, fun h => ⟨_, h 0x10000001 (Or.inr rfl)⟩, fun h => ⟨_, h rfl⟩,
   fun h => (h plan1 rfl rfl rfl rfl rfl rfl rfl rfl).imp fun _ h => h.1⟩
/-- A BAR2 write waits at the port: a notify without relaxed ordering stands behind it, one with it does not. -/
def writeWaits : State := { base with host := { base.host with waiting := [{ offset := 0x20000, length := 1, data := some [7] }] } }
theorem witness_notifies :
    (Notifies writeWaits → ∃ t, exec (.qnotifyWrite 63 1) writeWaits = .next t) ∧
    (Notifies writeWaits.relaxNotify → ∃ t, exec (.qnotifyWrite 63 1) writeWaits.relaxNotify = .next t) ∧
    (Notifies base → ∃ t, exec (.qnotifyWrite 63 1) base = .next t) :=
  ⟨fun h => ⟨_, (h 63 1).1 ⟨by decide +kernel, _, List.mem_cons_self .., rfl⟩⟩,
   fun h => ⟨_, (h 63 1).2 fun h => Bool.noConfusion h.1⟩,
   fun h => ⟨_, (h 63 1).2 fun h => h.2.elim fun a h => by
     rw [show base.host.waiting = [] by decide +kernel] at h; exact absurd h.1 List.not_mem_nil⟩⟩
theorem witness_bar0 :
    (Bar0Written (booted 0 base) → ∃ t, exec (.bar0RegisterWrite 0x10 7) (booted 0 base) = .next t) ∧
    (Bar0Written (booted 4 base) → ∃ t, exec (.bar0RegisterWrite 0x28 7) (booted 4 base) = .next t) ∧
    (Bar0Written base → ∃ t, exec (.bar0RegisterWrite 0x1800 7) base = .next t) ∧
    (Bar0Written base → ∃ t, exec (.bar0RegisterWrite 0x48 7) base = .next t) :=
  ⟨fun h => ⟨_, (h 7).1 rfl⟩, fun h => ⟨_, (h 7).2.2.1 (by decide +kernel)⟩, fun h => ⟨_, (h 7).2.2.2.2 0x1800 (by decide)⟩,
   fun h => ⟨_, (h 7).2.2.2.2 0x48 (by decide)⟩⟩
/-- The host reads a register: STAMP, BOOTSTS, HRCTL, the write-only BOOTCTL. -/
def reading (off : BitVec 16) : State := { base with agenda := [.registerRead off] }
theorem witness_registers_read :
    (RegistersRead (reading 0x10) → ∃ t, step (reading 0x10) = .next t) ∧ (RegistersRead (reading 0) → ∃ t, step (reading 0) = .next t) ∧
    (RegistersRead (reading 0x30) → ∃ t, step (reading 0x30) = .next t) ∧ (RegistersRead (reading 8) → ∃ t, step (reading 8) = .next t) ∧
    (RegistersRead (reading 0x1800) → ∃ t, step (reading 0x1800) = .next t) :=
  ⟨fun h => ⟨_, (h 0x10 [] rfl).1 _ (List.mem_cons_self ..)⟩, fun h => ((h 0 [] rfl).2.1 rfl).elim fun _ h => ⟨_, h.1⟩,
   fun h => ((h 0x30 [] rfl).2.2.1 rfl).elim fun _ h => ⟨_, h.1⟩, fun h => ⟨_, (h 8 [] rfl).2.2.2 (Or.inl rfl)⟩,
   fun h => ⟨_, (h 0x1800 [] rfl).2.2.2 (Or.inr (by decide))⟩⟩

/-- Up to the last byte of the aperture before boot; after it at VA 0x20000, and at an address that no table maps. -/
def aperture (base_ : Word) (s : State) : State := { s with host := { s.host with bootState := 4, apbase := base_ } }
def readOf (off n : Nat) : HostAccess := { offset := off, length := n, data := none }
def writeOf (off : Nat) (l : List Byte) : HostAccess := { offset := off, length := l.length, data := some l }
theorem witness_aperture_read :
    (ApertureRead (booted 0 base) → ∃ t, exec (.hostBar2Read 0x3FFFFFFFF 1) (booted 0 base) = .next t) ∧
    (ApertureRead (aperture 0 mapped) → ∃ t, exec (.hostBar2Read 0x20000 4) (aperture 0 mapped) = .next t) ∧
    (ApertureRead (aperture 0x10000000000 mapped) → ∃ t, exec (.hostBar2Read 0 4) (aperture 0x10000000000 mapped) = .next t) :=
  ⟨fun h => ⟨_, (h 0x3FFFFFFFF 1 (by decide) rfl).1 (by decide +kernel)⟩,
   fun h => by
     obtain ⟨x, t, ht, hx⟩ := ended (m := (readOf 0x20000 4).work 0x20000) (s := atPort (aperture 0 mapped) (readOf 0x20000 4))
       (fun x _ => x.isSome) (by decide +kernel)
     obtain ⟨y, rfl⟩ := isSome_ex hx
     exact ⟨_, ((h 0x20000 4 (by decide) rfl).2 rfl).1 y.1 y.2 t ht⟩,
   fun h => by
     obtain ⟨c, a, d, t, ht⟩ := raised (s := atPort (aperture 0x10000000000 mapped) (readOf 0 4)) (m := (readOf 0 4).work 0x10000000000)
       (by decide +kernel)
     exact (((h 0 4 (by decide) rfl).2 rfl).2 c a d t ht).imp fun _ h => h.1⟩
theorem witness_aperture_written :
    (ApertureWritten (booted 0 base) → ∃ t, exec (.hostBar2Write 0x3FFFFFFFF [1]) (booted 0 base) = .next t) ∧
    (ApertureWritten (aperture 0 mapped) → ∃ t, exec (.hostBar2Write 0x20000 [1, 2]) (aperture 0 mapped) = .next t) ∧
    (ApertureWritten (aperture 0x10000000000 mapped) → ∃ t, exec (.hostBar2Write 0 [1, 2]) (aperture 0x10000000000 mapped) = .next t) :=
  ⟨fun h => ⟨_, (h 0x3FFFFFFFF [1] (by decide) rfl).1 (by decide +kernel)⟩,
   fun h => by
     obtain ⟨_, t, ht, _⟩ := ended (m := writeGlobal .host .system 0 0x20000 [1, 2])
       (s := atPort (aperture 0 mapped) (writeOf 0x20000 [1, 2])) (fun _ _ => true) (by decide +kernel)
     exact ⟨_, ((h 0x20000 [1, 2] (by decide) rfl).2 rfl).1 t ht⟩,
   fun h => by
     obtain ⟨c, a, d, t, ht⟩ := raised (s := atPort (aperture 0x10000000000 mapped) (writeOf 0 [1, 2]))
       (m := writeGlobal .host .system 0 0x10000000000 [1, 2]) (by decide +kernel)
     exact (((h 0 [1, 2] (by decide) rfl).2 rfl).2 c a d t ht).imp fun _ h => h.1⟩

/-- One entry in queue 0, notified, in host memory at 0; the result goes to host memory at 0x1000. -/
def submitted (ws : List Word) (s : State) : State :=
  { s with host := { s.host with bootState := 4, queues := s.host.queues.set 0 { en := true, tail := 1 } },
           hostMem := writeBytes 0 (ws.flatMap wordBytes) [] }
def headRead (s : State) (n : Nat) : Bool :=
  let die := (s.host.queues[(0 : Fin 64)]).die.toNat
  hostWaits s die 0 && decide ((s.die die).roomQueue = [] ∧
    (s.die die).table.length + ((List.range 64).filter fun h => h ≠ 0 && hostWaits s die h).length < Config.tableEntries ∧
    ((s.headBytes 0).getD 7 0).toNat = n)
theorem headRead_of {s : State} {n : Nat} {type : Nat → Prop} (h : headRead s n = true) (ht : type n) : HeadRead s 0 type := by
  unfold headRead at h
  simp only [Bool.and_eq_true, decide_eq_true_eq] at h
  obtain ⟨h1, h2, h3, h4⟩ := h
  exact ⟨h1, ⟨h2, h3⟩, by rw [h4]; exact ht⟩
def copySubmitted : State := submitted [0x0100000000000000, 0, 0, 0, 0, 0, 0, 0, 0, 0, 8, 0, 0, 0, 0, 0] base
def taskSubmitted : State := submitted [0x8000000000000000] base
theorem tryHost_ok {α : Type} {s t : State} {m : M α} {a : α} (h : m.on s = (.ok a, t)) : ∃ u, s.tryHost 0 m = .ok a u :=
  ⟨_, by simp only [State.tryHost, State.tryAs, h]; rfl⟩
theorem tryHost_fails {α : Type} {s t : State} {m : M α} {c : Cause} {a : Word} {d : BitVec 16} (h : m.on s = (.error (.cause c a d), t)) :
    s.tryHost 0 m = .fails t c := by simp only [State.tryHost, State.tryAs, h]
/-- A command's record can be written: its 64 bytes lie in host memory. -/
theorem writeRecord_host (die at_ serial : Nat) (head : List Byte) (s : State)
    (h1 : ∀ p ∈ lineSpans at_ head.length, p.1 / 2 ^ 50 % 2 ^ 14 = 0x3FFF)
    (h2 : ∀ p ∈ lineSpans (at_ + 0x38) 8, p.1 / 2 ^ 50 % 2 ^ 14 = 0x3FFF) :
    ∃ t, (writeRecord die at_ serial head).on s = (.ok (), t) := by
  obtain ⟨t, ht⟩ := writeGlobal_host die at_ head s h1
  obtain ⟨u, hu⟩ := writeGlobal_host die (at_ + 0x38) (leBytes 8 serial) { s with hostMem := t } (by rw [leBytes_length]; exact h2)
  exact ⟨{ s with hostMem := u }, by simp only [writeRecord, M.on_bind, ht, hu]⟩
theorem recordHead_length (serial : Nat) (card : Option (BitVec 8)) (start : Word) (b : Bool) (f : EndInfo) :
    (recordHead serial card start b f).length = 64 := by
  simp only [recordHead, List.length_append, leBytes_length, wordBytes_length, zeros, List.length_replicate]
/-- Where the results go. -/
def result1 : Nat := 0xFFFC000000001000
theorem putHostRecord_ex (serial : Nat) (card : Option (BitVec 8)) (start : Word) (b : Bool) (f : EndInfo) (s : State) :
    ∃ t, s.putHostRecord 0 result1 serial (recordHead serial card start b f) = (t, true) := by
  obtain ⟨t, ht⟩ := writeRecord_host (s.fedDie 0) result1 serial (recordHead serial card start b f) s
    (by rw [recordHead_length]; decide +kernel) (by decide +kernel)
  obtain ⟨u, hu⟩ := tryHost_ok ht
  exact ⟨u, by simp only [State.putHostRecord, hu, Tried.record]⟩
def emptyCopy : State := submitted [0x0100000000000000, 0xFFFC000000001000] base
def badTask : State := submitted [0x8000000000000000, 0, 0, 0, 0, 0, 0, 0, 1, 0, 0, 0xFFFC000000001000] base
/-- A copy of 8 bytes and a task of the loaded kernel enter; a copy of no bytes and a record with a reserved bit are refused. -/
theorem witness_host_enters :
    (HostEnters .hostJobCardEntry (fun n => 1 ≤ n ∧ n ≤ 0x20) hostCard cardCompl cardKind copySubmitted →
      ∃ t, exec (.hostJobCardEntry 0) copySubmitted = .next t) ∧
    (HostEnters .hostTaskEntry (· = 0x80) hostTask taskCompl (fun _ _ => none) taskSubmitted →
      ∃ t, exec (.hostTaskEntry 0) taskSubmitted = .next t) ∧
    (HostEnters .hostJobCardEntry (fun n => 1 ≤ n ∧ n ≤ 0x20) hostCard cardCompl cardKind emptyCopy →
      ∃ t, exec (.hostJobCardEntry 0) emptyCopy = .next t) ∧
    (HostEnters .hostTaskEntry (· = 0x80) hostTask taskCompl (fun _ _ => none) badTask →
      ∃ t, exec (.hostTaskEntry 0) badTask = .next t) := by
  refine ⟨fun h => ?_, fun h => ?_, fun h => ?_, fun h => ?_⟩
  · obtain ⟨e, t, ht, _⟩ := ended (m := hostCard copySubmitted 0) (s := copySubmitted) (fun _ _ => true) (by decide +kernel)
    obtain ⟨u, hu⟩ := tryHost_ok ht
    exact ⟨_, (h 0 u (headRead_of (n := 1) (by decide +kernel) (by decide))).1 e hu⟩
  · obtain ⟨e, t, ht, _⟩ := ended (m := hostTask taskSubmitted 0) (s := taskSubmitted) (fun _ _ => true) (by decide +kernel)
    obtain ⟨u, hu⟩ := tryHost_ok ht
    exact ⟨_, (h 0 u (headRead_of (n := 0x80) (by decide +kernel) rfl)).1 e hu⟩
  · obtain ⟨c, a, d, t, ht⟩ := raised (m := hostCard emptyCopy 0) (s := emptyCopy) (by decide +kernel)
    have hc : (cardCompl emptyCopy 0).toNat / 64 * 64 = result1 := by decide +kernel
    obtain ⟨u, hu⟩ := putHostRecord_ex (t.die (t.host.queues[(0 : Fin 64)]).die.toNat).nextSerial (cardKind emptyCopy 0) 0 false (commandOver t 5 c) t
    exact ⟨_, (h 0 t (headRead_of (n := 1) (by decide +kernel) (by decide))).2 c u (tryHost_fails ht) (by rw [hc]; exact hu)⟩
  · obtain ⟨c, a, d, t, ht⟩ := raised (m := hostTask badTask 0) (s := badTask) (by decide +kernel)
    have hc : (taskCompl badTask 0).toNat / 64 * 64 = result1 := by decide +kernel
    obtain ⟨u, hu⟩ := putHostRecord_ex (t.die (t.host.queues[(0 : Fin 64)]).die.toNat).nextSerial none 0 false (commandOver t 5 c) t
    exact ⟨_, (h 0 t (headRead_of (n := 0x80) (by decide +kernel) rfl)).2 c u (tryHost_fails ht) (by rw [hc]; exact hu)⟩

theorem answered (t : State) (f : EndInfo) {at_ : Nat} (h : at_ = result1) : ∃ u, Answered t 0 at_ f u := by
  subst h
  obtain ⟨v, hv⟩ := putHostRecord_ex (Config.commandSerial t.free).toNat none 0 false f t
  exact ⟨_, v, hv, rfl⟩

def command (type : Word) (ws : List Word) (s : State) : State := submitted (type <<< 56 :: 0xFFFC000000001000 :: ws) s
def loadCmd : State := command 0xC0 [0xFFFC000000002000, 0, 0] base
def unloadCmd : State := command 0xC1 [0] base
/-- One page, to be read, written and resident; and the same with no frame to take. -/
def mapCmd (res : Bool) : State :=
  let s := command 0xC2 [0, 0x700000001] (paged res)
  s.setDie 0 { s.die 0 with frames := [] }
def cribCmd (handle : Word) : State := command 0xC3 [handle] base
/-- Slot 0 has had an image before: handle 0x1000000 names its image. -/
def cribOne : State :=
  let s := cribCmd 0x1000000
  let x := tabGet ({} : ImageSlot) 0 (s.die 0).images
  s.setDie 0 { s.die 0 with images := tabPut 0 { x with generation := 1 } (s.die 0).images }
def attestCmd : State := command 0xC4 [0xFFFC000000002000, 0xFFFC000000003000] base
def checkpointCmd (q : Option (Fin 64)) : State :=
  let s := command 0xC5 [0xFFFC000000000000] base
  { s with sirxon := { s.sirxon with checkpoint := q } }
def restoreCmd : State := let s := command 0xC6 [0xFFFC000000000000] base
  { s with sirxon := { s.sirxon with anyIssued := false } }
def invalidCmd : State := command 0x21 [] base

theorem witness_host_load : ImageCommands loadCmd → ∃ t, exec (.load 0) loadCmd = .next t := by
  intro h
  obtain ⟨t, ht⟩ := pair_ex (x := loadCmd.loadCommand 0 (loadCmd.host.queues[(0 : Fin 64)]).die.toNat (loadCmd.headWord 0 8)
    (loadCmd.headWord 0 0x10) (loadCmd.headWord 0 0x18) (loadCmd.headWord 0 0x20)) (by decide +kernel)
  exact ⟨_, (h 0 loadCmd).1 t (headRead_of (n := 0xC0) (by decide +kernel) rfl) ht⟩
theorem witness_host_unload : ImageCommands unloadCmd → ∃ t, exec (.unload 0) unloadCmd = .next t := by
  intro h
  obtain ⟨⟨n, x, im⟩, ht⟩ := isSome_ex (o := (unloadCmd.die (unloadCmd.host.queues[(0 : Fin 64)]).die.toNat).slotOf (unloadCmd.headWord 0 0x10)) (by decide +kernel)
  exact ⟨_, (h 0 unloadCmd).2.1 n x im (headRead_of (n := 0xC1) (by decide +kernel) rfl) (by decide +kernel) ht⟩
def mapWork (s : State) : M Unit :=
  mapBody 0 (s.host.queues[(0 : Fin 64)]).die.toNat (s.headWord 0 0x10) (s.headWord 0 0x18 % 2 ^ 32) (wordAt (s.headBytes 0) 0x18)
theorem mapFits_cmd (s : State) (h : decide (s.headWord 0 8 % 64 = 0 ∧ s.headWord 0 0x10 % 65536 = 0 ∧ s.headWord 0 0x18 % 2 ^ 32 ≠ 0 ∧
    s.homedOn (s.host.queues[(0 : Fin 64)]).die.toNat (s.headWord 0 0x10) = true ∧
    s.headWord 0 0x10 % 2 ^ 50 + 65536 * (s.headWord 0 0x18 % 2 ^ 32) ≤ 2 ^ 50) = true) : mapFits s 0 := by
  unfold mapFits
  exact of_decide_eq_true h
theorem witness_host_map : (ImageCommands (mapCmd true) → ∃ t, exec (.map 0) (mapCmd true) = .next t) ∧
    (ImageCommands (mapCmd false) → ∃ t, exec (.map 0) (mapCmd false) = .next t) := by
  refine ⟨fun h => ?_, fun h => ?_⟩
  · obtain ⟨_, t, ht, h1⟩ := ended (m := mapWork (mapCmd true)) (s := mapCmd true)
      (fun _ t => decide ((t.host.queue 0).sent = none ∧ t.headWord 0 8 = result1)) (by decide +kernel)
    obtain ⟨h1, h2⟩ := of_decide_eq_true h1
    have hr : (mapCmd true).tryHost 0 (mapWork (mapCmd true)) = .ok () t := by
      simp only [State.tryHost, State.tryAs, ht, h1, Option.isSome_none, Bool.false_eq_true, if_false]
    obtain ⟨u, hu⟩ := answered t (commandOver t 1 0) h2
    exact ⟨_, ((h 0 u).2.2.1 (headRead_of (n := 0xC2) (by decide +kernel) rfl) (mapFits_cmd _ (by decide +kernel))).1 t hr hu⟩
  · have hw : raises (mapWork (mapCmd false)) (mapCmd false) = true ∧ (((mapWork (mapCmd false)).on (mapCmd false)).2).headWord 0 8 = result1 := by
      decide +kernel
    obtain ⟨c, a, d, t, ht⟩ := raised hw.1
    have h2 := hw.2
    rw [ht] at h2
    obtain ⟨u, hu⟩ := answered t (commandOver t 2 c) h2
    exact ⟨_, ((h 0 u).2.2.1 (headRead_of (n := 0xC2) (by decide +kernel) rfl) (mapFits_cmd _ (by decide +kernel))).2 t c (tryHost_fails ht) hu⟩
theorem witness_host_crib : (ImageCommands (cribCmd 0) → ∃ t, exec (.cribInvalidate 0) (cribCmd 0) = .next t) ∧
    (ImageCommands cribOne → ∃ t, exec (.cribInvalidate 0) cribOne = .next t) := by
  refine ⟨fun h => ?_, fun h => ?_⟩
  · obtain ⟨u, hu⟩ := answered ((cribCmd 0).setDie ((cribCmd 0).host.queues[(0 : Fin 64)]).die.toNat
      { (cribCmd 0).die ((cribCmd 0).host.queues[(0 : Fin 64)]).die.toNat with crib := [] }) (commandOver (cribCmd 0) 1 0)
      (show (cribCmd 0).headWord 0 8 = result1 by decide +kernel)
    exact ⟨_, (h 0 u).2.2.2.1 (headRead_of (n := 0xC3) (by decide +kernel) rfl) (by decide +kernel) (by decide +kernel) hu⟩
  · obtain ⟨⟨n, x, im⟩, ht⟩ := isSome_ex (o := (cribOne.die (cribOne.host.queues[(0 : Fin 64)]).die.toNat).slotOf (cribOne.headWord 0 0x10))
      (by decide +kernel)
    obtain ⟨u, hu⟩ := answered (cribOne.setDie (cribOne.host.queues[(0 : Fin 64)]).die.toNat { cribOne.die (cribOne.host.queues[(0 : Fin 64)]).die.toNat with
      crib := (cribOne.die (cribOne.host.queues[(0 : Fin 64)]).die.toNat).crib.filter fun e => e.key.digest ≠ im.digest })
      (commandOver cribOne 1 0) (show cribOne.headWord 0 8 = result1 by decide +kernel)
    exact ⟨_, (h 0 u).2.2.2.2 n x im (headRead_of (n := 0xC3) (by decide +kernel) rfl) (by decide +kernel) (by decide +kernel) ht hu⟩
theorem attestReport_length (s : State) (n : List Byte) (h1 : s.sirxon.digest.length ≤ 64) (h2 : n.length ≤ 64) :
    (attestReport s n).length ≤ 30000 := by
  simp only [attestReport, List.zipIdx_cons, List.zipIdx_nil, List.flatMap_cons, List.flatMap_nil, List.length_append, List.length_take,
    leBytes_length, wordBytes_length, List.length_nil]
  have hp : partNumber.length ≤ 64 := by decide
  omega
theorem attestBody_host (s : State) (hd : s.sirxon.digest.length ≤ 64) (hm : s.hostMem = attestCmd.hostMem) :
    ∃ t, (attestBody 0xFFFC000000002000 0xFFFC000000003000).on s = (.ok (), t) := by
  have hb : ((lineSpans 0xFFFC000000002000 64).flatMap fun p => readBytes s.hostMem (p.1 % 2 ^ 50) p.2).length ≤ 64 := by
    rw [hm]; decide +kernel
  have hr := readGlobal_hosts .sirxon 0xFFFC000000002000 64 s rfl (fun _ _ => rfl) (by decide +kernel)
  generalize hn : ((lineSpans 0xFFFC000000002000 64).flatMap fun p => readBytes s.hostMem (p.1 % 2 ^ 50) p.2) = n at hr hb
  have hl := attestReport_length s n hd hb
  obtain ⟨m, hm⟩ := writeGlobal_hosts .sirxon .system 0xFFFC000000003000
    (attestReport s n ++ (Config.deviceSignature (sha512 (attestReport s n))).toList) s rfl (fun _ _ => rfl) (by
      rw [List.length_append, Vector.length_toList]
      generalize (attestReport s n).length = k at hl
      intro p hp
      unfold lineSpans at hp
      rw [if_neg (by omega)] at hp
      simp only [List.mem_map, List.mem_range] at hp
      obtain ⟨i, hi, rfl⟩ := hp
      simp only
      split <;> omega)
  exact ⟨{ s with hostMem := m }, by simp only [attestBody, M.on_bind, M.on_get, hr, hm]⟩
/-- Whether the device key can be read is the part's own: the witness stands either way. -/
theorem witness_host_attest : StoreCommands attestCmd → ∃ t, exec (.attest 0) attestCmd = .next t := by
  intro h
  have hh := headRead_of (s := attestCmd) (n := 0xC4) (type := (· = 0xC4)) (by decide +kernel) rfl
  have hr : attestCmd.headWord 0 8 = result1 := by decide +kernel
  have hn : attestCmd.headWord 0 0x10 = 0xFFFC000000002000 ∧ attestCmd.headWord 0 0x18 = 0xFFFC000000003000 := by decide +kernel
  by_cases hk : Config.deviceKeyReadable attestCmd.free = true
  · obtain ⟨t, ht⟩ := attestBody_host { attestCmd with free := attestCmd.free + 1 } (by decide +kernel) rfl
    obtain ⟨v, hv⟩ := tryHost_ok ht
    obtain ⟨u, hu⟩ := answered v (commandOver attestCmd 1 0) hr
    exact ⟨_, ((h 0 u).1 hh (by rw [hr]; decide)).1 v hk (by rw [hn.1, hn.2]; exact hv) hu⟩
  · obtain ⟨u, hu⟩ := answered { attestCmd with free := attestCmd.free + 1 } (commandOver attestCmd 2 0x383) hr
    exact ⟨_, ((h 0 u).1 hh (by rw [hr]; decide)).2 (by simpa using hk) hu⟩
theorem stores : (checkpointCmd none).storeOf ((checkpointCmd none).headWord 0 0x10) = some (.host 0) ∧
    (checkpointCmd (some 0)).storeOf ((checkpointCmd (some 0)).headWord 0 0x10) = some (.host 0) ∧
    restoreCmd.storeOf (restoreCmd.headWord 0 0x10) = some (.host 0) := by
  have h : ∀ s : State, s.headWord 0 0x10 = 0xFFFC000000000000 → s.storeOf (s.headWord 0 0x10) = some (.host 0) := by
    intro s hs
    rw [hs]
    unfold State.storeOf
    rw [if_neg (by decide +kernel)]
    rfl
  exact ⟨h _ (by decide +kernel), h _ (by decide +kernel), h _ (by decide +kernel)⟩
theorem storeReached (s : State) (h : (s.host.queue 0).sent = none) : s.tryHost 0 (storeReach (.host 0)) = .ok () s := by
  simp only [State.tryHost, State.tryAs, storeReach, M.on_pure, h, Option.isSome_none, Bool.false_eq_true, if_false]
theorem noPhase {s : State} (h : (s.pcs.all fun x => !x.2.compute) = true) : ∀ x, x ∈ s.pcs → x.2.compute = false := by
  intro x hx
  simpa using List.all_eq_true.1 h x hx
theorem witness_host_checkpoint :
    (StoreCommands (checkpointCmd none) → ∃ t, exec (.checkpoint 0) (checkpointCmd none) = .next t) ∧
    (StoreCommands (checkpointCmd (some 0)) → ∃ t, exec (.checkpoint 0) (checkpointCmd (some 0)) = .next t) ∧
    (StoreCommands restoreCmd → ∃ t, exec (.restore 0) restoreCmd = .next t) :=
  ⟨fun h => (((h 0 (checkpointCmd none)).2.1 (.host 0) stores.1 (by decide +kernel)).1 (headRead_of (n := 0xC5) (by decide +kernel) rfl)
     (by decide +kernel)).imp fun _ h => h.1,
   fun h => by
     obtain ⟨u, hu⟩ := answered _ _ (show (checkpointCmd (some 0)).headWord 0 8 = result1 by decide +kernel)
     exact ⟨_, ((h 0 u).2.1 (.host 0) stores.2.1 (by decide +kernel)).2 (checkpointCmd (some 0)) (by decide +kernel) (by decide +kernel)
       (by decide +kernel) (by decide +kernel) (noPhase (by decide +kernel)) (storeReached _ (by decide +kernel)) rfl hu⟩,
   fun h => by
     obtain ⟨u, hu⟩ := answered _ _ (show restoreCmd.headWord 0 8 = result1 by decide +kernel)
     exact ⟨_, (h 0 u).2.2.1 (.host 0) restoreCmd (headRead_of (n := 0xC6) (by decide +kernel) rfl) stores.2.2 (by decide +kernel)
       (by decide +kernel) (noPhase (by decide +kernel)) (storeReached _ (by decide +kernel)) rfl hu⟩⟩
theorem witness_host_invalid : StoreCommands invalidCmd → ∃ t, exec (.entryInvalid 0) invalidCmd = .next t := by
  intro h
  obtain ⟨u, hu⟩ := answered invalidCmd (commandOver invalidCmd 5 0x302) (show invalidCmd.headWord 0 8 = result1 by decide +kernel)
  exact ⟨_, (h 0 u).2.2.2 (headRead_of (n := 0x21) (by decide +kernel) (Or.inl ⟨by decide, by decide⟩)) hu⟩

/-- Image slot 0 of die 0 is being unloaded. -/
def unloading1 : State :=
  let x := tabGet ({} : ImageSlot) 0 (base.die 0).images
  base.setDie 0 { base.die 0 with images := tabPut 0 { x with image := x.image.map fun im => { im with unloading := some result1 } } (base.die 0).images }
theorem tryAs_ok {α : Type} {s t : State} {m : M α} {a : α} (h : m.on s = (.ok a, t)) (sent : State → Option Sent)
    (mark : Option Sent → State → State) : ∃ u, s.tryAs sent mark m = .ok a u := ⟨_, by simp only [State.tryAs, h]; rfl⟩
theorem witness_unloads : Unloads unloading1 → ∃ t, exec (.unloadComplete 0 0) unloading1 = .next t := by
  intro h
  obtain ⟨im, hi⟩ := isSome_ex (o := (tabGet ({} : ImageSlot) 0 (unloading1.die 0).images).image) (by decide +kernel)
  have hu : im.unloading = some result1 := by
    have : ((tabGet ({} : ImageSlot) 0 (unloading1.die 0).images).image).map Image.unloading = some (some result1) := by decide +kernel
    rw [hi] at this; simpa using this
  obtain ⟨t, ht⟩ := writeRecord_host 0 result1 unloading1.commandNumber
    (recordHead unloading1.commandNumber none 0 false (commandEnd unloading1 1 0)) unloading1 (by rw [recordHead_length]; decide +kernel)
    (by decide +kernel)
  have hr : ∃ u, unloading1.unloadRecord 0 0 result1 = (u, true) := by
    unfold State.unloadRecord
    obtain ⟨u, hu⟩ := tryAs_ok ht (fun s => (s.imageAt 0 0).bind Image.sent) (fun x s => s.setDie 0 { s.die 0 with
      images := tabPut 0 { tabGet ({} : ImageSlot) 0 (s.die 0).images with
        image := (tabGet ({} : ImageSlot) 0 (s.die 0).images).image.map fun im => { im with sent := x } } (s.die 0).images })
    exact ⟨u, by simp only [hu, Tried.record]⟩
  obtain ⟨u, h1⟩ := hr
  exact (h 0 0 im result1 u hi hu (fun e he => by
    have : (unloading1.die 0).table = [] := by decide +kernel
    have he : e ∈ (unloading1.die 0).table := he
    rw [this] at he; exact absurd he List.not_mem_nil) h1).imp fun _ h => h.1

/-! Core 0 stands before the first block of its kernel; its block's entry lacks a word: of the first bundle, of an MMV8 of which the
first literal word. -/
def code1 : CodeRef := { die := 0, slot := some 0, kernel := 0 }
def unlowered : State := base.setDie 0 { base.die 0 with crib := [] }
def lacking (s : State) (w : LostWord) : State :=
  match s.variantOf code1 with
  | some v => s.setDie 0 { s.die 0 with crib := [{ key := s.cribKey code1 v 0, lost := some w }] }
  | none => s
def lostCode : State := lacking base (.code 0)
def lostLiteral : State := lacking (State.reset.withFetchWord 32 0xD0001127) (.literal 0)
def enters1 (s : State) : Bool :=
  match s.variantOf code1 with
  | some v => decide ((s.seq ⟨0, 0⟩).code = some code1 ∧ s.issues ⟨0, 0⟩ = true ∧ (s.seq ⟨0, 0⟩).bundle.pos = 0 ∧
      (s.seq ⟨0, 0⟩).bundle.replay = none ∧ (s.cribKey code1 v (s.seq ⟨0, 0⟩).before.vpc).vpc = (s.seq ⟨0, 0⟩).before.vpc)
  | none => false
theorem enters1_spec {s : State} (h : enters1 s = true) : ∃ v, s.variantOf code1 = some v ∧ (s.seq ⟨0, 0⟩).code = some code1 ∧
    s.issues ⟨0, 0⟩ = true ∧ (s.seq ⟨0, 0⟩).bundle.pos = 0 ∧ (s.seq ⟨0, 0⟩).bundle.replay = none ∧
    (s.cribKey code1 v (s.seq ⟨0, 0⟩).before.vpc).vpc = (s.seq ⟨0, 0⟩).before.vpc := by
  unfold enters1 at h
  split at h
  · next v hv => exact ⟨v, hv, of_decide_eq_true h⟩
  · exact absurd h (by decide)
theorem witness_lowers :
    (Lowers unlowered → ∃ t, exec (.cribLowering ⟨0, 0⟩ .overlapped) unlowered = .next t) ∧
    (Lowers unlowered → ∃ t, exec (.cribLowering ⟨0, 0⟩ (.codeUnreadable 0)) unlowered = .next t) := by
  obtain ⟨v, h1, h2, h3, h4, h5, h6⟩ := enters1_spec (s := unlowered) (by decide +kernel)
  generalize hk : unlowered.cribKey code1 v (unlowered.seq ⟨0, 0⟩).before.vpc = key at h6
  have he : EntersBlock unlowered ⟨0, 0⟩ code1 v key := ⟨h2, h1, h3, h4, h5, hk.symm, h6, rfl⟩
  have hb : blockStart v.code (bundleOn v.code key.vpc 0) = key.vpc := by
    rw [show bundleOn v.code key.vpc 0 = key.vpc from rfl, h6, ← h6, ← hk]
    exact congrArg (blockStart v.code) ((congrArg CribKey.vpc hk).trans h6)
  exact ⟨fun h => ⟨_, ((h ⟨0, 0⟩ code1 v _).1 he).1⟩, fun h => ⟨_, ((h ⟨0, 0⟩ code1 v _).1 he).2.2.1 0 hb⟩⟩
/-- The key of the entry that lacks a word is that of the block that core 0 stands in. -/
theorem lacks {s : State} {w : LostWord} (h : enters1 s = true)
    (hc : (match s.variantOf code1 with
      | some v => decide ((s.die 0).cribEntry (s.cribKey code1 v (s.seq ⟨0, 0⟩).before.vpc) =
          some { key := s.cribKey code1 v (s.seq ⟨0, 0⟩).before.vpc, lost := some w })
      | none => false) = true) :
    ∃ v, s.variantOf code1 = some v ∧ (s.seq ⟨0, 0⟩).code = some code1 ∧ s.issues ⟨0, 0⟩ = true ∧ (s.seq ⟨0, 0⟩).bundle.pos = 0 ∧
      (s.seq ⟨0, 0⟩).bundle.replay = none ∧ ∃ e, (s.die 0).cribEntry (s.cribKey code1 v (s.seq ⟨0, 0⟩).before.vpc) = some e ∧ e.lost = some w := by
  obtain ⟨v, h1, h2, h3, h4, h5, h6⟩ := enters1_spec h
  rw [h1] at hc
  exact ⟨v, h1, h2, h3, h4, h5, _, of_decide_eq_true hc, rfl⟩
theorem witness_words_lost : (Lowers lostCode → ∃ t, step lostCode = .next t) ∧ (Lowers lostLiteral → ∃ t, step lostLiteral = .next t) := by
  refine ⟨fun h => ?_, fun h => ?_⟩
  · obtain ⟨v, h1, h2, h3, h4, h5, e, h6, h7⟩ := lacks (s := lostCode) (w := .code 0) (by decide +kernel) (by decide +kernel)
    exact ⟨_, ((h ⟨0, 0⟩ code1 v (lostCode.cribKey code1 v 0)).2 e 0 rfl (by decide +kernel) h2 h1 h3 h4 h5 h6 rfl).1
      (h7.trans (by decide +kernel))⟩
  · obtain ⟨v, h1, h2, h3, h4, h5, e, h6, h7⟩ := lacks (s := lostLiteral) (w := .literal 0) (by decide +kernel) (by decide +kernel)
    have hl : (match lostLiteral.variantOf code1 with
      | some v => readsLiteral (lostLiteral.seq ⟨0, 0⟩).before (bundleSlots v.code (lostLiteral.seq ⟨0, 0⟩).before.vpc)
      | none => false) = true := by decide +kernel
    rw [h1] at hl
    exact ⟨_, ((h ⟨0, 0⟩ code1 v (lostLiteral.cribKey code1 v 0)).2 e 0 rfl (by decide +kernel) h2 h1 h3 h4 h5 h6 rfl).2
      (h7.trans (by decide +kernel)) hl⟩

/-! ### Witnesses: the machine -/

theorem reads_spec {lit : Option (BitVec 24)} {w : BitVec 32} {i : Instr} (h : reads lit w i = true) : decode lit w = .ok i := by
  unfold reads at h
  split at h
  · next j hj => rw [hj, of_decide_eq_true h]
  · exact absurd h (by decide)
def isNext : Outcome → Bool
  | .next _ => true
  | _ => false
theorem isNext_ex {o : Outcome} (h : isNext o = true) : ∃ t, o = .next t := by
  cases o with
  | next t => exact ⟨t, rfl⟩
  | fault _ => exact absurd h (by simp [isNext])
  | refused _ => exact absurd h (by simp [isNext])

/-- The word that stands at VPC and the place in the bundle. -/
def wordAtVpc (s : State) : Option (Variant × BitVec 32) := do
  let v ← s.cur.code.bind s.variantOf
  let x ← v.code[s.cur.before.vpc.toNat / 4 + s.cur.bundle.pos]?
  return (v, x)
theorem wordAtVpc_of {s : State} {x : BitVec 32} (h : (wordAtVpc s).map Prod.snd = some x) :
    ∃ v, s.cur.code.bind s.variantOf = some v ∧ v.code[s.cur.before.vpc.toNat / 4 + s.cur.bundle.pos]? = some x := by
  unfold wordAtVpc at h
  simp only [Option.map_eq_some_iff, Option.bind_eq_bind, Option.bind_eq_some_iff, Option.pure_def, Option.some.injEq] at h
  obtain ⟨_, ⟨v, h1, y, h2, rfl⟩, rfl⟩ := h
  exact ⟨v, Option.bind_eq_some_iff.2 h1, h2⟩

def replayed (state : BitVec 2) : ReplayEntry := { word := 0x880A28C0, state := state }
/-- A replay whose next entry is add x5, x5, x6. -/
def replaying (state : BitVec 2) : State :=
  base.setSeq base.focus { base.cur with bundle := { base.cur.bundle with replay := some { entries := [replayed state], resume := 0, loops := [] } } }
/-- A sequencer that waits for its trap frame: to write it, with the trap pending, or to read it back. -/
def frameWait : Wait := { wait1 .halt 0x1B (slotA 0) 0 0 with kind := .frame }
def pending1 : TrapData :=
  { point := { slot := 0, cause := 1, addr := 0, detail := 0 }, vpc := 0, entries := [], resume := 0, boundary := false, loops := [] }
def awaitsFrame (p : Option TrapData) : State :=
  base.setSeq base.focus { base.cur with wait := some frameWait, bundle := { base.cur.bundle with pendingTrap := p } }
theorem witness_step :
    (Obligations.StepRunsTheDecodedSlot → step base = tickOutcome (exec (.nop true) (base.lowered base.focus))) ∧
    (Obligations.StepRunsTheDecodedSlot →
      step (replaying 1) = tickOutcome (exec (.add ⟨true, false, false, 5, 5, 6, 0⟩) (replaying 1))) ∧
    (Obligations.StepRunsTheDecodedSlot → step State.reset = .next State.reset.tick) ∧
    (Obligations.StepRunsTheDecodedSlot →
      step (awaitsFrame (some pending1)) = .next ((awaitsFrame (some pending1)).takeTrap (awaitsFrame (some pending1)).focus pending1).tick) ∧
    (Obligations.StepRunsTheDecodedSlot → step (awaitsFrame none) = .next ((awaitsFrame none).trapReturn (awaitsFrame none).focus).tick) ∧
    (Obligations.StepRunsTheDecodedSlot → ∃ t, step { base with agenda := [.issue 0] } =
      exec (.nop true) (({ base with agenda := [], focus := ⟨0, 0⟩ } : State).lowered t)) := by
  obtain ⟨v, h1, h2⟩ := wordAtVpc_of (s := base) (x := 0x80000000) (by decide +kernel)
  exact ⟨fun h => (h base).1 v _ _ (by decide +kernel) (by decide +kernel) (by decide +kernel) (by decide +kernel) h1 h2
      (reads_spec (by decide +kernel)),
    fun h => (h (replaying 1)).2.1 _ _ _ _ (by decide +kernel) (by decide +kernel) rfl rfl (reads_spec (by decide +kernel)),
    fun h => (h State.reset).2.2.1 (by decide +kernel) (by decide +kernel) (fun p hp => by
      rw [show State.reset.cur.wait = none by decide +kernel] at hp; exact absurd hp (by simp)),
    fun h => ((h (awaitsFrame (some pending1))).2.2.2.1 frameWait (by decide +kernel) (by decide +kernel) rfl (by decide +kernel) (by decide +kernel)).1
      pending1 (by decide +kernel),
    fun h => ((h (awaitsFrame none)).2.2.2.1 frameWait (by decide +kernel) (by decide +kernel) rfl (by decide +kernel) (by decide +kernel)).2
      (by decide +kernel),
    fun h => ⟨_, (h { base with agenda := [.issue 0] }).2.2.2.2.2.1 0 0 [] v _ _ rfl (by decide +kernel) (by decide +kernel) (by decide +kernel)
      (by decide +kernel) h1 h2 (reads_spec (by decide +kernel))⟩⟩

/-- svc.tret in a task image (K-040), a store whose guard is false, a store above a trapping slot. -/
def tretSlot : Slot := ⟨true, false, false, 0, 0, 0, 2⟩
def stSlot : Slot := ⟨true, false, false, 0, 1, 2, 6⟩
/-- A state whose bundle's guard makes the selected slots false. -/
def guardFalse (mask : BitVec 8) (pos : Nat) (s : State) : State :=
  s.setSeq s.focus { s.cur with bundle := { s.cur.bundle with guard := some (false, mask), pos := pos } }
def trapBelow : State :=
  base.setSeq base.focus { base.cur with bundle := { base.cur.bundle with trap := some { slot := 0, cause := 1, addr := 0, detail := 0 } } }
/-- A guarded-false MMV8 whose set is loading. -/
def mmvSlot : Slot := ⟨true, false, false, 0, 1, 0, 0⟩
def stillLoading : State :=
  let k := base.core 0
  guardFalse 1 0 (base.setCore 0 (k.setWset 0 0 { k.wset 0 0 with loading := true }))
theorem witness_not_run :
    (Obligations.SlotsThatDoNotRun → ∃ n, exec (.svcTret tretSlot) base = .fault (.notSealed n)) ∧
    (Obligations.SlotsThatDoNotRun → ∃ t, exec (.st stSlot) (guardFalse 0x80 7 base) = .next t) ∧
    (Obligations.SlotsThatDoNotRun → exec (.mmv8 mmvSlot) stillLoading = .next (opened stillLoading)) ∧
    (Obligations.SlotsThatDoNotRun → ∃ t, exec (.st stSlot) trapBelow = .next t) := by
  refine ⟨fun h => ?_, fun h => ?_, fun h => ?_, fun h => ?_⟩
  · obtain ⟨n, hn⟩ := isSome_ex (o := (slotChecks 0x1A tretSlot base.curLit ++ imageKindChecks (base.cur.phase = .service) 0x1A tretSlot).head?)
      (by decide +kernel)
    refine ⟨n, h.1 _ 0x1A tretSlot base n rfl (by decide +kernel) (List.mem_of_head? hn) ?_⟩
    have hl : (slotChecks 0x1A tretSlot base.curLit ++ imageKindChecks (base.cur.phase = .service) 0x1A tretSlot).length = 1 := by decide +kernel
    match hm : slotChecks 0x1A tretSlot base.curLit ++ imageKindChecks (base.cur.phase = .service) 0x1A tretSlot, hl with
    | [a], _ =>
      rw [hm] at hn
      intro m hm'
      simp_all
  · obtain ⟨fm, hf⟩ := isSome_ex (o := form 0x23 stSlot (guardFalse 0x80 7 base).curLit.isSome) (by decide +kernel)
    exact (h.2.1 (.st stSlot) 0x23 stSlot fm (guardFalse 0x80 7 base) 0x80 rfl (by decide +kernel) (by decide +kernel) (by decide +kernel) hf
      (by decide +kernel) (by decide +kernel)).1.elim (fun h => ⟨_, h⟩) fun h => ⟨_, h⟩
  · exact (h.2.1 (.mmv8 mmvSlot) 0x50 mmvSlot (formOf 0x50 mmvSlot stillLoading) stillLoading 1 rfl (by decide +kernel) (by decide +kernel)
      (by decide +kernel) (by decide +kernel) (by decide +kernel) (by decide +kernel)).2.2 0 0 (by simp) (by decide)
      (by decide +kernel) (by decide +kernel) (by decide +kernel)
  · obtain ⟨fm, hf⟩ := isSome_ex (o := form 0x23 stSlot trapBelow.curLit.isSome) (by decide +kernel)
    exact ⟨_, h.2.2 (.st stSlot) 0x23 stSlot fm trapBelow { slot := 0, cause := 1, addr := 0, detail := 0 } rfl (by decide +kernel)
      (by decide +kernel) (by decide +kernel) (by decide +kernel) (by decide +kernel) hf (by decide +kernel)⟩

theorem witness_replay :
    (Obligations.ReplayEntriesLand → ∃ t, exec (.add ⟨true, false, false, 5, 5, 6, 0⟩) (replaying 3) = .next t) ∧
    (Obligations.ReplayEntriesLand → ∃ t, exec (.add ⟨true, false, false, 5, 5, 6, 0⟩) (replaying 2) = .next t) := by
  obtain ⟨fm, hf⟩ := isSome_ex (o := form 0x08 ⟨true, false, false, 5, 5, 6, 0⟩ false) (by decide +kernel)
  exact ⟨fun h => ⟨_, (h _ 0x08 _ fm (replaying 3) _ (replayed 3) [] rfl rfl rfl (by decide +kernel) (by decide +kernel) hf).1 rfl⟩,
    fun h => ((h _ 0x08 _ fm (replaying 2) _ (replayed 2) [] rfl rfl rfl (by decide +kernel) (by decide +kernel) hf).2 rfl).elim
      fun _ h => ⟨_, h.1⟩⟩

/-- add x3, x1, x2 reads 5 and −7; vadd v3, lv0, lv3. -/
theorem witness_operands :
    (Obligations.OperandsReadByTheirCodes → (opsOf 0x08 ⟨false, false, false, 3, 1, 2, 0⟩ two).xb = scalarAt .x two.cur.before 2) ∧
    (Obligations.OperandsReadByTheirCodes →
      (opsOf 0x30 ⟨false, false, false, 3, 36, 39, 0⟩ (masked two)).b = vectorAt .v (masked two).cur.before 39) :=
  ⟨fun h => (h _ _ _ _ _ (stands_spec (mk := .add) (by decide +kernel)).2.2).2.2.2.2.2.2.2.2.1 (by decide +kernel) (by decide +kernel)
     (by decide +kernel),
   fun h => (h _ _ _ _ _ (stands_spec (mk := .vadd) (by decide +kernel)).2.2).2.2.2.2.2.2.2.2.2.2.1 (by decide +kernel) (by decide +kernel)
     (by decide +kernel)⟩

/-- A pad element, a space the engine may not read, a byte in global memory at 0x20000, a vector in A space, a tile. -/
def streamed (d : Stream) : Regs := { ({} : Regs) with loops := [{ count := 4, index := 3 }], streams := Vector.replicate 16 d }
def padded1 : Stream := { base := 0x20000, dims := Vector.replicate 4 { en := true, extent := 3, stride := 1 } }
def inSpace (space : BitVec 2) (a : Word) : Stream := { base := a, space := space }
theorem witness_ports :
    (Obligations.StreamPortsReadTheirElement → (readScalar ⟨0, 0⟩ .system .x (streamed padded1) 48).on mapped = (.ok 0, mapped)) ∧
    (Obligations.StreamPortsReadTheirElement →
      (readVector ⟨0, 0⟩ .system .x (streamed (inSpace 1 0)) 63).on mapped = (.error (.cause 0x088 0 0), mapped)) ∧
    (Obligations.StreamPortsReadTheirElement → ∃ x t, (readScalar ⟨0, 0⟩ .system .g (streamed (inSpace 0 0x20000)) 63).on mapped = (.ok x, t)) ∧
    (Obligations.StreamPortsReadTheirElement → ∃ x t, (readVector ⟨0, 0⟩ .system .g (streamed (inSpace 1 0x100)) 48).on (windowed 1) = (.ok x, t)) ∧
    (Obligations.StreamPortsReadTheirElement → ∃ x, (readVector ⟨0, 0⟩ .system .m (streamed (inSpace 2 0x7FF00)) 63).on mapped = (.ok x, mapped)) ∧
    (Obligations.StreamPortsReadTheirElement → ∃ x, (readScalar ⟨0, 0⟩ .system .m (streamed (inSpace 2 0x7FFFF)) 63).on mapped = (.ok x, mapped)) ∧
    (Obligations.StreamPortsReadTheirElement → ∃ a, (readVector ⟨0, 0⟩ .system .m (streamed (inSpace 2 8)) 48).on mapped = (.error (.cause 0x08B a 0), mapped)) ∧
    (Obligations.StreamPortsReadTheirElement →
      ∃ a, (readScalar ⟨0, 0⟩ .system .m (streamed (inSpace 2 0x80000)) 48).on mapped = (.error (.cause 0x08B a 0), mapped)) ∧
    (Obligations.StreamPortsReadTheirElement → decode none ((⟨true, false, false, 2, 10, 0, 24⟩ : Slot).word 0x20) = .error (.checkCode 3)) := by
  refine ⟨fun h => ((h mapped ⟨0, 0⟩ .system .x (streamed padded1) 0).1 (by decide +kernel)).1,
    fun h => ((h mapped ⟨0, 0⟩ .system .x (streamed (inSpace 1 0)) 15).2.1 (by decide +kernel) (by decide +kernel) (by decide +kernel)).2,
    fun h => ?_, fun h => ?_, fun h => ?_, fun h => ?_, fun h => ?_, fun h => ?_,
    fun h => (h mapped ⟨0, 0⟩ .system .m ({} : Regs) 0).2.2.2 ⟨true, false, false, 2, 10, 0, 24⟩ none (by decide) (by decide)⟩
  · obtain ⟨l, t, h1, h2⟩ := ended (m := if ((streamed (inSpace 0 0x20000)).streams[(15 : Fin 16)]).space = 0 then
        readGlobal (.seq ⟨0, 0⟩) .system 0 (elementAt (streamed (inSpace 0 0x20000)) ((streamed (inSpace 0 0x20000)).streams[(15 : Fin 16)])) 1
        else aRead (0 : Fin 512) (elementAt (streamed (inSpace 0 0x20000)) ((streamed (inSpace 0 0x20000)).streams[(15 : Fin 16)])) 1)
      (s := mapped) (fun l _ => decide (l.length = 1)) (by decide +kernel)
    exact ⟨_, t, ((h mapped ⟨0, 0⟩ .system .g (streamed (inSpace 0 0x20000)) 15).2.2.1 (by decide +kernel) (by decide +kernel)).1 l t h1
      (of_decide_eq_true h2) (by decide +kernel)⟩
  · obtain ⟨l, t, h1, _⟩ := ended (m := if ((streamed (inSpace 1 0x100)).streams[(0 : Fin 16)]).space = 0 then
        readGlobal (.seq ⟨0, 0⟩) .system 0 (elementAt (streamed (inSpace 1 0x100)) ((streamed (inSpace 1 0x100)).streams[(0 : Fin 16)])) 256
        else aRead (0 : Fin 512) (elementAt (streamed (inSpace 1 0x100)) ((streamed (inSpace 1 0x100)).streams[(0 : Fin 16)])) 256)
      (s := windowed 1) (fun _ _ => true) (by decide +kernel)
    exact ⟨_, t, ((h (windowed 1) ⟨0, 0⟩ .system .g (streamed (inSpace 1 0x100)) 0).2.2.1 (by decide +kernel) (by decide +kernel)).2.1 l t h1
      (by decide +kernel)⟩
  · exact (((h mapped ⟨0, 0⟩ .system .m (streamed (inSpace 2 0x7FF00)) 15).2.2.1 (by decide +kernel) (by decide +kernel)).2.2.1 (by decide +kernel)
      (by decide +kernel) (by decide +kernel)).imp fun _ h => h.1
  · exact ⟨_, ((h mapped ⟨0, 0⟩ .system .m (streamed (inSpace 2 0x7FFFF)) 15).2.2.1 (by decide +kernel) (by decide +kernel)).2.2.2.1 (by decide +kernel)
      (by decide +kernel) (by decide +kernel)⟩
  · exact ⟨_, ((h mapped ⟨0, 0⟩ .system .m (streamed (inSpace 2 8)) 0).2.2.1 (by decide +kernel) (by decide +kernel)).2.2.2.2.1 (by decide +kernel)
      (by decide +kernel)⟩
  · exact ⟨_, ((h mapped ⟨0, 0⟩ .system .m (streamed (inSpace 2 0x80000)) 0).2.2.1 (by decide +kernel) (by decide +kernel)).2.2.2.2.2 (by decide +kernel)
      (by decide +kernel)⟩

/-- A state and a word meet what Frames asks. -/
theorem framed {mk : Slot → Instr} {op : BitVec 7} {e : Engine} {kept : Slot → Seq → Seq → Prop} (s : State) (w : Slot)
    (h1 : stands mk op w s = true)
    (h2 : (decide (w.stop = true → s.cur.bundle.ending = none ∧ s.cur.bundle.boundary = false) && isNext (exec (mk w) s)) = true) :
    Frames mk op e kept → ∃ t p, exec (mk w) s = .next t ∧ t = s.setSeq s.focus p := by
  intro h
  rw [Bool.and_eq_true, decide_eq_true_eq] at h2
  obtain ⟨t, ht⟩ := isNext_ex h2.2
  simp only [stands, Bool.and_eq_true, Option.isNone_iff_eq_none, Bool.not_eq_true', List.isEmpty_iff] at h1
  obtain ⟨⟨⟨⟨⟨⟨⟨a1, a2⟩, a3⟩, _⟩, _⟩, _⟩, a7⟩, a8⟩ := h1
  obtain ⟨p, hp, _⟩ := h s t w ⟨a2, a3, h2.1, fun fm hf => by
    have : formOf op w s = fm := by simp [formOf, hf]
    rw [← this]; exact a8⟩ a1 ht
  exact ⟨t, p, ht, hp⟩
theorem witness_frames :
    (Frames .add 0x08 .x XResult → ∃ t p, exec (.add ⟨true, false, false, 3, 1, 2, 0⟩) two = .next t ∧ t = two.setSeq two.focus p) ∧
    (Frames .cmp 0x11 .x (PResult .x highPred) →
      ∃ t p, exec (.cmp ⟨true, false, false, 3, 1, 2, 2⟩) two = .next t ∧ t = two.setSeq two.focus p) ∧
    (Frames .vadd 0x30 .v VResult →
      ∃ t p, exec (.vadd ⟨true, false, false, 31, 1, 2, 0⟩) (masked two) = .next t ∧ t = (masked two).setSeq (masked two).focus p) :=
  ⟨framed two ⟨true, false, false, 3, 1, 2, 0⟩ (by decide +kernel) (by decide +kernel),
   framed two ⟨true, false, false, 3, 1, 2, 2⟩ (by decide +kernel) (by decide +kernel),
   framed (masked two) ⟨true, false, false, 31, 1, 2, 0⟩ (by decide +kernel) (by decide +kernel)⟩

/-- The same in FramesAll: in a bundle that an SVC ends, and as the entry of a replay. -/
theorem framedAll {mk : Slot → Instr} {op : BitVec 7} {e : Engine} {kept : Slot → Seq → Seq → Prop} (s : State) (w : Slot)
    (h1 : stands mk op w s = true) : FramesAll mk op e always kept → ∃ t, exec (mk w) s = .next t := by
  intro h
  have hs := stands_spec h1
  exact (h s _ w _ _ (Or.inl hs) trivial).elim fun _ h => ⟨_, h.1⟩
def calling (s : State) : State :=
  s.setSeq s.focus { s.cur with bundle := { s.cur.bundle with ending := some (.call 3), boundary := true } }
theorem witness_frames_everywhere :
    (FramesAll .add 0x08 .x always XResult → ∃ t, exec (.add ⟨true, false, false, 3, 1, 2, 0⟩) (calling two) = .next t) ∧
    (FramesAll .add 0x08 .x always XResult → ∃ t, exec (.add ⟨true, false, false, 5, 5, 6, 0⟩) (replaying 1) = .next t) := by
  refine ⟨framedAll (calling two) ⟨true, false, false, 3, 1, 2, 0⟩ (by decide +kernel), fun h => ?_⟩
  obtain ⟨fm, hf⟩ := isSome_ex (o := form 0x08 ⟨true, false, false, 5, 5, 6, 0⟩ false) (by decide +kernel)
  have hr : ends (replayOperands (replaying 1).focus ((form 0x08 ⟨true, false, false, 5, 5, 6, 0⟩ false).getD (formOf 0x08 mmvSlot base)) (replayed 1) [])
      (replaying 1) (fun _ _ => true) = true := by decide +kernel
  rw [hf] at hr
  obtain ⟨o, s', h1, -⟩ := ended _ hr
  exact (h (replaying 1) s' ⟨true, false, false, 5, 5, 6, 0⟩ fm o (Or.inr ⟨_, replayed 1, [], rfl, rfl, by decide, by decide +kernel,
    by decide +kernel, by decide +kernel, by decide +kernel, hf, h1⟩) trivial).elim fun _ h => ⟨_, h.1⟩
/-- CSRR of sr.serial. -/
theorem witness_csrr_frame : (FramesAll .csrr 0x1C .x (fun w o s' => ∃ v, sysContent o s' (sysNumber w) = some v) XResult →
    ∃ t, exec (.csrr ⟨true, false, false, 3, 0, 0, 0⟩) base = .next t) := by
  intro h
  have hs := stands_spec (mk := .csrr) (op := 0x1C) (w := ⟨true, false, false, 3, 0, 0, 0⟩) (s := base) (by decide +kernel)
  exact (h base _ _ _ _ (Or.inl hs) (isSome_ex (by decide +kernel))).elim fun _ h => ⟨_, h.1⟩

theorem canonical_windowed : MemoryCanonical (windowed 1) := by unfold MemoryCanonical; decide +kernel
theorem inWindow_windowed : InWindow (windowed 1) 0 0x1FFF8 8 ∧ InWindow (windowed 1) 0 0 131072 := by
  unfold InWindow; decide +kernel
/-- Window 0 is one that a GIVE is bringing in. -/
def arriving : State :=
  mapped.setCore 0 { mapped.core 0 with windows := (mapped.core 0).windows.set 0 { att := true, bin := 0, inc := true } }
/-- The last 8 bytes of window 0; past the windows; across the window's end; a detached window; an incoming one. -/
theorem witness_a_space :
    (Obligations.ASpaceAccessesReachTheirBin → ∃ t, (aWrite 0 0x1FFF8 [1, 2, 3, 4, 5, 6, 7, 8]).on (windowed 1) = (.ok (), t)) ∧
    (Obligations.ASpaceAccessesReachTheirBin → ∃ l, (aRead 0 0x1FFF8 8).on (windowed 1) = (.ok l, windowed 1)) ∧
    (Obligations.ASpaceAccessesReachTheirBin → ∃ e, (aRead 0 0x200000 1).on (windowed 1) = (.error e, windowed 1)) ∧
    (Obligations.ASpaceAccessesReachTheirBin → ∃ e, (aRead 0 0x1FFFF 2).on (windowed 1) = (.error e, windowed 1)) ∧
    (Obligations.ASpaceAccessesReachTheirBin → ∃ e, (aRead 0 0x3FFFF 1).on (windowed 1) = (.error e, windowed 1)) ∧
    (Obligations.ASpaceAccessesReachTheirBin → ∃ e, (aWrite 0 0x3FFFF [1]).on (windowed 1) = (.error e, windowed 1)) ∧
    (Obligations.ASpaceAccessesReachTheirBin → ∃ e, (aWrite 0 0 [1]).on arriving = (.error e, arriving)) :=
  have hl : ((windowed 1).core (0 : Fin 512)).loads = [] := by decide +kernel
  have hb : ∀ (g : Fin 2) (k : Fin 4), (((windowed 1).seq ⟨0, g⟩).channels[k]).busy = false := by decide +kernel
  ⟨fun h => (((h (windowed 1) 0 0x1FFF8 8 hl hb).1 inWindow_windowed.1 canonical_windowed).1 [1, 2, 3, 4, 5, 6, 7, 8] rfl).imp fun _ h => h.1,
   fun h => ⟨_, ((h (windowed 1) 0 0x1FFF8 8 hl hb).1 inWindow_windowed.1 canonical_windowed).2 (fun u hu => by
     have : ((windowed 1).cluster ((0 : Fin 512).val / 4)).poison = [] := by decide +kernel
     rw [this] at hu; exact absurd hu (List.not_mem_nil))⟩,
   fun h => ⟨_, ((h (windowed 1) 0 0x200000 1 hl hb).2.1 (by decide) []).2⟩,
   fun h => ⟨_, ((h (windowed 1) 0 0x1FFFF 2 hl hb).2.2.1 (by decide) (by decide)).1⟩,
   fun h => ⟨_, (((h (windowed 1) 0 0x3FFFF 1 hl hb).2.2.2 (by decide) (by decide)).1 (by decide +kernel) (by decide +kernel)).1⟩,
   fun h => ⟨_, (((h (windowed 1) 0 0x3FFFF 1 hl hb).2.2.2 (by decide) (by decide)).1 (by decide +kernel) (by decide +kernel)).2 [1] rfl⟩,
   fun h => ⟨_, ((h arriving 0 0 1 (by decide +kernel) (by decide +kernel)).2.2.2 (by decide) (by decide)).2 (by decide +kernel) |>.2 [1] rfl⟩⟩

/-- A store of 8 bytes in A space at x1 = 0x100; a home write of the last byte of die 3. -/
def aStore : Slot := ⟨false, false, false, 0, 2, 1, 14⟩
def canonical (s : State) : Bool := decide (s.dram.wf = true ∧ s.hostMem.wf = true ∧ s.remote.wf = true ∧
  (∀ c : Fin 512, (s.core c).wspace.wf = true) ∧ ∀ k : Fin 128, (s.cluster k).mem.wf = true)
theorem canonical_spec {s : State} (h : canonical s = true) : MemoryCanonical s := by
  unfold canonical at h
  have h := of_decide_eq_true h
  exact h
/-- A slot stands, ends its bundle plainly and completes. -/
def completing (mk : Slot → Instr) (op : BitVec 7) (w : Slot) (s : State) : Bool :=
  stands mk op w s && decide (w.stop = true → s.cur.bundle.ending = none ∧ s.cur.bundle.boundary = false) && isNext (exec (mk w) s)
theorem completing_spec {mk : Slot → Instr} {op : BitVec 7} {w : Slot} {s : State} (h : completing mk op w s = true) :
    Fits mk w s ∧ Performs op w (formOf op w s) s ∧ Reads w (formOf op w s) s (opsOf op w s) (opened s) ∧ EndsPlainly w s ∧
      ∃ t, exec (mk w) s = .next t := by
  unfold completing at h
  rw [Bool.and_eq_true, Bool.and_eq_true] at h
  have hs := stands_spec h.1.1
  have he := of_decide_eq_true h.1.2
  exact ⟨hs.1, hs.2.1, hs.2.2, he, isNext_ex h.2⟩
/-- The pages of a store's bytes are checked, its line is free and it completes. -/
def storable (op : BitVec 7) (w : Slot) (s : State) : Bool :=
  let o := opsOf op w s
  ends (checkSpans (.seq s.focus) .w false (storedSpans op w o)) (opened s) fun ps s1 =>
    ends (checkBlocked (.seq s.focus) o.scope ps) s1 fun _ s2 => canonical s2 &&
      ends (writeAll (.seq s.focus) o.scope (cacheHint o) ps (storedBytes op w o)) s2 fun _ _ => true
theorem stores_global {mk : Slot → Instr} {op : BitVec 7} (s : State) (w : Slot) (hm : (mk, op) ∈ [(Instr.st, 0x23#7), (.vst, 0x25#7)])
    (h1 : completing mk op w s = true) (h2 : storable op w s = true) (h3 : w.f.extractLsb' 3 2 = 0) :
    Obligations.StoresChangeTheirBytesOnly → ∃ t ps u, exec (mk w) s = .next t ∧ StoresOnly s.focus.core ps u t := by
  intro h
  obtain ⟨a1, a2, a3, a4, t, ht⟩ := completing_spec h1
  obtain ⟨ps, s1, b1, h2⟩ := ended _ h2
  obtain ⟨_, s2, b2, h2⟩ := ended _ h2
  rw [Bool.and_eq_true] at h2
  obtain ⟨_, s3, b3, -⟩ := ended _ h2.2
  exact ⟨t, ps, s2, ht, ((h.1 mk op hm s _ t w _ _ a1 a2 a3 a4 ht).2 ps s1 s2 h3 b1 b2 (canonical_spec h2.1) fun _ => ⟨s3, b3⟩).1⟩
/-- A ST of 8 bytes and a masked VST at VA 0x20000; amo.add there; PUT of 8 bytes with and without a signal. -/
theorem witness_global_stores :
    (Obligations.StoresChangeTheirBytesOnly → ∃ t ps u, exec (.st ⟨true, false, false, 0, 3, 2, 6⟩) (g 0) = .next t ∧ StoresOnly 0 ps u t) ∧
    (Obligations.StoresChangeTheirBytesOnly →
      ∃ t ps u, exec (.vst ⟨true, false, false, 0, 3, 2, 1⟩) (masked (g 0)) = .next t ∧ StoresOnly 0 ps u t) ∧
    (Obligations.StoresChangeTheirBytesOnly →
      ∃ t ps u, exec (.amo ⟨true, false, false, 4, 2, 3, 16⟩) (g 0) = .next t ∧ StoresOnly 0 ps u t) := by
  refine ⟨stores_global (op := 0x23) (g 0) _ (by simp) (by decide +kernel) (by decide +kernel) rfl,
    stores_global (op := 0x25) (masked (g 0)) _ (by simp) (by decide +kernel) (by decide +kernel) rfl, fun h => ?_⟩
  obtain ⟨a1, a2, a3, a4, t, ht⟩ := completing_spec (mk := .amo) (op := 0x27) (w := ⟨true, false, false, 4, 2, 3, 16⟩) (s := g 0) (by decide +kernel)
  obtain ⟨x, s1, b1, b2⟩ := ended (m := homeWord (opsOf 0x27 ⟨true, false, false, 4, 2, 3, 16⟩ (g 0)) .rw .atomic
      (opsOf 0x27 ⟨true, false, false, 4, 2, 3, 16⟩ (g 0)).xa 8) (s := opened (g 0)) (fun _ s1 => canonical s1) (by decide +kernel)
  exact ⟨t, _, s1, ht, (h.2.1 (g 0) _ s1 t _ _ _ x a1 a2 a3 a4 b1 (canonical_spec b2) ht).1⟩
/-- Everything that the frame of a PUT with a signal asks, of A-space bytes at a place. -/
theorem put_of {w : Slot} {s : State} (p : Nat) (h0 : completing .put 0x63 w s = true)
    (h : moveOk (opsOf 0x63 w s).xd = true) (hx : (opsOf 0x63 w s).xd1 ≠ 0)
    (h1 : (let o := opsOf 0x63 w s
           let n := lenOf o.xd
           ends (aCheck o.who.core o.xa.toNat n) (opened s) (fun x _ => decide (x = p)) &&
             ends (awaitBin o.who.core false p n) (opened s) (fun _ _ => true)) = true)
    (h2 : (let o := opsOf 0x63 w s
           let n := lenOf o.xd
           ends (checkPages o.who .w o.xb.toNat n) (opened s) fun _ s1 => ends (homeWord o .w .atomic o.xd1 8) s1 fun b t =>
             ends (checkPoison (.seq o.who) o.xd1.toNat b) t fun _ s3 =>
             ends (aPoison o.who.core o.xa.toNat p n) s3 (fun _ _ => true) &&
             ends (checkSpans (.seq s.focus) .w false (lineSpans o.xb.toNat n)) s3 fun ps t2 =>
             ends (checkBlocked (.seq s.focus) o.scope ps) t2 fun _ t3 => canonical t3 &&
             ends (writeAll (.seq s.focus) o.scope 0 ps (readBytes (s3.cluster o.cluster).mem p n)) t3 fun _ s4 =>
             ends (homeWord o .w .atomic o.xd1 8) s4 fun _ x => canonical x) = true) :
    Obligations.StoresChangeTheirBytesOnly → ∃ t ps u, exec (.put w) s = .next t ∧ StoresOnly s.focus.core ps u t := by
  intro g
  obtain ⟨a1, a2, a3, a4, t, ht⟩ := completing_spec h0
  rw [Bool.and_eq_true] at h1
  obtain ⟨_, s1, b1, h2⟩ := ended _ h2
  obtain ⟨b, t1, b2, h2⟩ := ended _ h2
  obtain ⟨_, s3, b3, h2⟩ := ended _ h2
  rw [Bool.and_eq_true] at h2
  obtain ⟨ps, t2, b4, h3⟩ := ended _ h2.2
  obtain ⟨_, t3, b5, h3⟩ := ended _ h3
  rw [Bool.and_eq_true] at h3
  obtain ⟨_, s4, b6, h4⟩ := ended _ h3.2
  obtain ⟨c, x, b7, h5⟩ := ended _ h4
  exact ⟨t, _, x, ht, ((g.2.2 s _ s3 t2 t3 s4 t w _ _ p ps a1 a2 a3 a4
    ⟨s1, move_of h, gives (aCheck_quiet _ _ _) p h1.1, same (awaitBin_quiet _ _ _ _) h1.2, b1, by rw [if_neg hx]; exact ⟨b, t1, b2, b3⟩,
      same (aPoison_quiet _ _ _ _) h2.1⟩ b4 b5 (canonical_spec h3.1) b6 ht).2.2 c x hx b7 (canonical_spec h5)).1⟩
theorem silentPut_of {w : Slot} {s : State} (p : Nat) (h0 : completing .put 0x63 w s = true)
    (h : moveOk (opsOf 0x63 w s).xd = true) (hx : (opsOf 0x63 w s).xd1 = 0)
    (h1 : (let o := opsOf 0x63 w s
           let n := lenOf o.xd
           ends (aCheck o.who.core o.xa.toNat n) (opened s) (fun x _ => decide (x = p)) &&
             ends (awaitBin o.who.core false p n) (opened s) (fun _ _ => true)) = true)
    (h2 : (let o := opsOf 0x63 w s
           let n := lenOf o.xd
           ends (checkPages o.who .w o.xb.toNat n) (opened s) fun _ s3 =>
             ends (aPoison o.who.core o.xa.toNat p n) s3 (fun _ _ => true) &&
             ends (checkSpans (.seq s.focus) .w false (lineSpans o.xb.toNat n)) s3 fun ps t2 =>
             ends (checkBlocked (.seq s.focus) o.scope ps) t2 fun _ t3 => canonical t3 &&
             ends (writeAll (.seq s.focus) o.scope 0 ps (readBytes (s3.cluster o.cluster).mem p n)) t3 fun _ _ => true) = true) :
    Obligations.StoresChangeTheirBytesOnly → ∃ t ps u, exec (.put w) s = .next t ∧ StoresOnly s.focus.core ps u t := by
  intro g
  obtain ⟨a1, a2, a3, a4, t, ht⟩ := completing_spec h0
  rw [Bool.and_eq_true] at h1
  obtain ⟨_, s3, b1, h2⟩ := ended _ h2
  rw [Bool.and_eq_true] at h2
  obtain ⟨ps, t2, b4, h3⟩ := ended _ h2.2
  obtain ⟨_, t3, b5, h3⟩ := ended _ h3
  rw [Bool.and_eq_true] at h3
  obtain ⟨_, s4, b6, -⟩ := ended _ h3.2
  exact ⟨t, _, t3, ht, ((g.2.2 s _ s3 t2 t3 s4 t w _ _ p ps a1 a2 a3 a4
    ⟨s3, move_of h, gives (aCheck_quiet _ _ _) p h1.1, same (awaitBin_quiet _ _ _ _) h1.2, b1, by rw [if_pos hx],
      same (aPoison_quiet _ _ _ _) h2.1⟩ b4 b5 (canonical_spec h3.1) b6 ht).2.1 hx).1⟩
theorem witness_put_frame :
    (Obligations.StoresChangeTheirBytesOnly →
      ∃ t ps u, exec (.put ⟨true, false, false, 12, 1, 2, 0⟩) copying = .next t ∧ StoresOnly 0 ps u t) ∧
    (Obligations.StoresChangeTheirBytesOnly →
      ∃ t ps u, exec (.put ⟨true, false, false, 6, 1, 2, 0⟩) copying = .next t ∧ StoresOnly 0 ps u t) :=
  ⟨put_of 0x100 (by decide +kernel) (by decide +kernel) (by decide +kernel) (by decide +kernel) (by decide +kernel),
   silentPut_of 0x100 (by decide +kernel) (by decide +kernel) (by decide +kernel) (by decide +kernel) (by decide +kernel)⟩
theorem witness_stores :
    (Obligations.StoresChangeTheirBytesOnly → ∃ t, exec (.st aStore) (g 1) = .next t ∧ t.dram = (g 1).dram) ∧
    (Obligations.HomeWritesFollowTheirTimes → ((base.homeWrite (.seq ⟨0, 0⟩) .system (.dram 3 (2 ^ 37 - 1)) [7] 0)).hostMem = base.hostMem) := by
  refine ⟨fun h => ?_, fun h => ?_⟩
  · obtain ⟨a1, a2, a3, a4, t, ht⟩ := completing_spec (mk := .st) (op := 0x23) (w := aStore) (s := g 1) (by decide +kernel)
    exact ⟨t, ht, ((h.1 .st 0x23 (by simp) (g 1) _ t aStore _ _ a1 a2 a3 a4 ht).1 rfl (canonical_spec (by decide +kernel))
      fun h => Bool.noConfusion h).2.2.1⟩
  · exact (h base ⟨0, 0⟩ .system 3 (2 ^ 37 - 1) [7] 0 (by unfold MemoryCanonical; decide +kernel) (by decide) (by decide) (by decide) (by decide)).2.2.1

theorem witness_canonical : MemoryCanonical base ∧ ∃ t, step base = .next t := by
  refine ⟨by unfold MemoryCanonical; decide +kernel, isNext_ex (by decide +kernel)⟩

/-- Every operand at its largest value; a word with a literal. -/
theorem witness_encoding :
    (Instr.add ⟨true, false, true, 31, 31, 31, 12⟩).wellFormed none = true ∧ encode (.add ⟨true, false, true, 31, 31, 31, 12⟩) = [0x887EFBEC] ∧
      decode (some 0x3D09) 0x88080810 = .ok (.add ⟨true, false, false, 4, 1, 0, 16⟩) :=
  ⟨by decide +kernel, by decide +kernel, reads_spec (by decide +kernel)⟩

/-! ### Witnesses: traps -/

theorem vecBytes_length (v : Vec) : (vecBytes v).length = 256 := by simp [vecBytes]
theorem entryBytes_length (e : ReplayEntry) : e.bytes.length = 1024 := by
  simp only [ReplayEntry.bytes, List.length_append, wordBytes_length, vecBytes_length, zeros, List.length_replicate]
theorem frameBytes_length (f : Frame) (h : f.entries.length ≤ 6) : f.bytes.length = 0x2500 := by
  unfold Frame.bytes
  simp only [List.length_append, wordBytes_length, vecBytes_length, zeros, List.length_replicate, loopBytes]
  rw [flatMap_length _ 16 (fun a => by simp [wordBytes_length]), flatMap_length _ 256 (fun a => vecBytes_length a),
    flatMap_length _ 1024 (fun a => entryBytes_length a)]
  simp only [Vector.length_toList, List.length_range]
  omega

def trap1 : TrapData := { point := { slot := 0, cause := 0x0C1, addr := 0, detail := 0 }, vpc := 0, entries := [], resume := 4, boundary := false, loops := [] }
/-- The task of core 0 with its context area at an address, and a trap service image. -/
def trapping (ctx : Word) (service : Option Variant) : State :=
  let q := base.seq ⟨0, 0⟩
  let s := base.setSeq ⟨0, 0⟩ { q with task := some { die := 0, serial := 1, rank := 0, size := 1, ctx := ctx, long := false, args := 0 } }
  s.setDie 0 { s.die 0 with service := service, table := [{ entry1 with status := .running [0] }] }
def serviceImage : Option Variant := some { code := [0x80000000], lits := [0xFFFFFFFF] }
def hostCtx : Word := 0xFFFC000000040000
theorem noHazard {ctx : Word} (h1 : ((trapping ctx serviceImage).seq ⟨0, 0⟩).channels.toList = List.replicate 4 {})
    (h2 : ((trapping ctx serviceImage).core (0 : Fin 512)).loads = []) :
    ∀ va n, (awaitGlobal (.seq ⟨0, 0⟩) true va n).on (trapping ctx serviceImage) = (.ok (), trapping ctx serviceImage) := by
  intro va n
  have : (trapping ctx serviceImage).globalHazard ⟨0, 0⟩ true va n = false := by
    unfold State.globalHazard
    simp only [h1, h2]
    rfl
  simp only [awaitGlobal, M.on_bind, M.on_get, this]
  rfl
theorem witness_traps : Obligations.TrapsEnterService →
    ((trapping hostCtx serviceImage).takeTrap ⟨0, 0⟩ trap1).focus = otherOf ⟨0, 0⟩ := by
  intro h
  obtain ⟨t, ht⟩ := isSome_ex (o := ((trapping hostCtx serviceImage).seq ⟨0, 0⟩).task) (by decide +kernel)
  have hc : t.ctx = hostCtx := by
    have : ((trapping hostCtx serviceImage).seq ⟨0, 0⟩).task.map TaskRef.ctx = some hostCtx := by decide +kernel
    rw [ht] at this; simpa using this
  have hd : t.die = 0 := by
    have : ((trapping hostCtx serviceImage).seq ⟨0, 0⟩).task.map TaskRef.die = some 0 := by decide +kernel
    rw [ht] at this; simpa using this
  obtain ⟨m, hm⟩ := writeGlobal_hosts (.seq ⟨0, 0⟩) .core hostCtx.toNat (frameOf ((trapping hostCtx serviceImage).seq ⟨0, 0⟩) ⟨0, 0⟩ trap1).bytes
    (trapping hostCtx serviceImage) rfl (noHazard (by decide +kernel) (by decide +kernel)) (by rw [frameBytes_length _ (by decide +kernel)]; decide +kernel)
  exact (h (trapping hostCtx serviceImage) { trapping hostCtx serviceImage with hostMem := m } ⟨0, 0⟩ t trap1 (by decide +kernel) ht (by rw [hd]; decide +kernel) (by rw [hc]; exact hm)
    (show ((trapping hostCtx serviceImage).seq ⟨0, 0⟩).phase = .running by decide +kernel)).1
theorem lineSpans_first (va n : Nat) (h : n ≠ 0) : ∃ k rest, lineSpans va n = (va % 2 ^ 64, k) :: rest ∧ 0 < k := by
  obtain ⟨k, hk⟩ := Nat.exists_eq_add_of_le (show 1 ≤ (va % 128 + n + 127) / 128 by omega)
  unfold lineSpans
  rw [if_neg h, hk, Nat.add_comm 1 k, List.range_succ_eq_map]
  exact ⟨_, _, rfl, by simp only [if_true, Nat.add_zero]; omega⟩
/-- A context area that no table maps. -/
theorem writeGlobal_raises (ag : Agent) (sc : Scope) (va : Nat) (l : List Byte) (s s' : State) (e : Stop) (hl : l.length ≠ 0)
    (ha : ∀ va n, (awaitGlobal ag true va n).on s = (.ok (), s))
    (h : (checkSpan ag .w false (va % 2 ^ 64)).on s = (.error e, s')) : (writeGlobal ag sc 0 va l).on s = (.error e, s') := by
  obtain ⟨n, rest, hs, -⟩ := lineSpans_first va l.length hl
  have hw := ha (va % 2 ^ 64) n
  rw [show true = Use.w.write from rfl] at hw
  simp only [writeGlobal, hs, checkSpans, M.on_bind, hw, h]
/-- One over which a transfer of the sequencer's own is under way. -/
theorem writeGlobal_waits (who : SeqId) (sc : Scope) (va : Nat) (l : List Byte) (s : State) (hl : l.length ≠ 0) (hz : ∀ n, 0 < n → s.globalHazard who true (va % 2 ^ 64) n = true) :
    (writeGlobal (.seq who) sc 0 va l).on s = (.error .hazard, s) := by
  obtain ⟨n, rest, hs, hn⟩ := lineSpans_first va l.length hl
  have ha : (awaitGlobal (.seq who) Use.w.write (va % 2 ^ 64) n).on s = (.error .hazard, s) := by
    simp only [awaitGlobal, M.on_bind, M.on_get]
    rw [show Use.w.write = true from rfl, if_pos (hz n hn)]
    rfl
  simp only [writeGlobal, hs, checkSpans, M.on_bind, ha]
def serving1 : State :=
  let s := (trapping 0 serviceImage).setSeq ⟨0, 1⟩ { (base.seq ⟨0, 1⟩) with phase := .service, task := ((trapping 0 serviceImage).seq ⟨0, 0⟩).task }
  s.setCore 0 { s.core 0 with frame := some (frameOf (base.seq ⟨0, 0⟩) ⟨0, 0⟩ trap1) }
/-- A transfer to the context area is under way. -/
def inFlight : State :=
  let s := trapping hostCtx serviceImage
  let q := s.seq ⟨0, 0⟩
  s.setSeq ⟨0, 0⟩ { q with channels := q.channels.set 0 { busy := true, transfer := some { transfer1 0x20000 with dst := hostCtx } } }
theorem unserved_task (s : State) (ctx : Word) (h : decide (((s.seq ⟨0, 0⟩).task.map fun t => (t.die, t.ctx, t.size, t.serial)) = some (0, ctx, 1, 1)) = true) :
    ∃ t, (s.seq ⟨0, 0⟩).task = some t ∧ t.die = 0 ∧ t.ctx = ctx ∧ t.size = 1 ∧ t.serial = 1 := by
  obtain ⟨t, h1, h2⟩ := Option.map_eq_some_iff.1 (of_decide_eq_true h)
  simp only [Prod.mk.injEq] at h2
  exact ⟨t, h1, h2⟩
theorem inFlight_channel : (inFlight.seq ⟨0, 0⟩).channels[0] = { busy := true, transfer := some { transfer1 0x20000 with dst := hostCtx } } := by
  decide +kernel
theorem inFlight_hazard (n : Nat) (hn : 0 < n) : inFlight.globalHazard ⟨0, 0⟩ true (hostCtx.toNat % 2 ^ 64) n = true := by
  have h2 : (inFlight.seq ⟨0, 0⟩).channels[0] ∈ (inFlight.seq ⟨0, 0⟩).channels.toList := by simp
  unfold State.globalHazard
  rw [Bool.or_eq_true]
  refine Or.inl (List.any_eq_true.2 ⟨_, h2, ?_⟩)
  rw [inFlight_channel]
  simp [transfer1, reaches, hostCtx]
  omega
theorem witness_unserved :
    (Obligations.TrapsThatCannotBeServedEndTheTask → ∃ (u : State) (f : FailInfo), serving1.takeTrap ⟨0, 1⟩ trap1 = u.failRank (otherOf ⟨0, 1⟩) f) ∧
    (Obligations.TrapsThatCannotBeServedEndTheTask →
      (trapping 0 none).takeTrap ⟨0, 0⟩ trap1 = (trapping 0 none).failRank ⟨0, 0⟩ (failAt 0x1C3 0 [])) ∧
    (Obligations.TrapsThatCannotBeServedEndTheTask →
      ∃ s1 : State, (trapping 0 serviceImage).takeTrap ⟨0, 0⟩ trap1 = s1.failRank ⟨0, 0⟩ (failAt 0x205 0 [])) ∧
    (Obligations.TrapsThatCannotBeServedEndTheTask → ∃ t, inFlight.takeTrap ⟨0, 0⟩ trap1 = t) ∧
    (Obligations.TrapsThatCannotBeServedEndTheTask →
      (((trapping 0 none).failRank ⟨0, 0⟩ (failAt 0x1C3 0 [])).seq ⟨0, 0⟩).phase = .empty) := by
  have long : ∀ s : State, (frameOf (s.seq ⟨0, 0⟩) ⟨0, 0⟩ trap1).bytes.length ≠ 0 := fun s => by
    rw [frameBytes_length _ (by show trap1.entries.length ≤ 6; decide)]; decide
  refine ⟨fun h => ?_, fun h => ?_, fun h => ?_, fun h => ?_, fun h => ?_⟩
  · obtain ⟨f, hf⟩ := isSome_ex (o := (serving1.core (⟨0, 1⟩ : SeqId).core).frame) (by decide +kernel)
    exact ⟨_, _, (h serving1 ⟨0, 1⟩ trap1).1 f (by decide +kernel) hf⟩
  · obtain ⟨t, ht, hd, -⟩ := unserved_task (trapping 0 none) 0 (by decide +kernel)
    exact (h (trapping 0 none) ⟨0, 0⟩ trap1).2.1 t (by decide +kernel) ht (by rw [hd]; decide +kernel)
  · obtain ⟨t, ht, hd, hc, -⟩ := unserved_task (trapping 0 serviceImage) 0 (by decide +kernel)
    obtain ⟨c, a, d, s1, h1⟩ := raised (m := checkSpan (.seq ⟨0, 0⟩) .w false ((0 : Word).toNat % 2 ^ 64)) (s := trapping 0 serviceImage)
      (by decide +kernel)
    exact ⟨s1, ((h (trapping 0 serviceImage) ⟨0, 0⟩ trap1).2.2.1 t _ s1 (by decide +kernel) ht (by rw [hd]; decide +kernel) (by
      rw [hc]
      exact writeGlobal_raises _ _ _ _ _ _ _ (long _) (noHazard (by decide +kernel) (by decide +kernel)) h1) :)⟩
  · obtain ⟨t, ht, hd, hc, -⟩ := unserved_task inFlight hostCtx (by decide +kernel)
    have hw : (writeGlobal (.seq ⟨0, 0⟩) .core 0 t.ctx.toNat (frameOf (inFlight.seq ⟨0, 0⟩) ⟨0, 0⟩ trap1).bytes).on inFlight = (.error .hazard, inFlight) := by
      rw [hc]
      exact writeGlobal_waits _ _ _ _ _ (long _) fun n => inFlight_hazard n
    obtain ⟨p, hp, hu⟩ := (h inFlight ⟨0, 0⟩ trap1).2.2.1 t _ inFlight (by decide +kernel) ht (by rw [hd]; decide +kernel) hw
    exact ⟨_, hu⟩
  · obtain ⟨t, ht, hd, -, hz, hs⟩ := unserved_task (trapping 0 none) 0 (by decide +kernel)
    obtain ⟨y, _, hy, _⟩ := (h (trapping 0 none) ⟨0, 0⟩ trap1).2.2.2 t { entry1 with status := .running [0] } (failAt 0x1C3 0 []) ht hz
      (by rw [hd, hs]; decide +kernel) rfl (by decide +kernel) (by decide +kernel) rfl
    exact hy

/-- The service group of core 0 returns to group 0: DISP 0 with no entry, DISP 0 with one, and DISP 1. -/
def returning (disp : Word) (entries : List ReplayEntry) : State :=
  let s := { serving1 with hostMem := writeBytes 0x40018 (wordBytes (disp <<< 16)) [] }
  let s := s.setSeq ⟨0, 1⟩ { s.seq ⟨0, 1⟩ with task := ((trapping hostCtx serviceImage).seq ⟨0, 0⟩).task }
  s.setCore 0 { s.core 0 with frame := some { frameOf (base.seq ⟨0, 0⟩) ⟨0, 0⟩ trap1 with entries := entries } }
theorem returns_of {disp : Word} {entries : List ReplayEntry} (n : Nat)
    (h1 : decide ((((returning disp entries).core (⟨0, 1⟩ : SeqId).core).frame.map fun f => (f.group, f.boundary, f.loops.length)) = some (0, false, 0)) = true)
    (h2 : (match ((returning disp entries).core (⟨0, 1⟩ : SeqId).core).frame, ((returning disp entries).seq ⟨0, 1⟩).task with
      | some f, some t => ends (readBack ⟨0, 1⟩ t.ctx.toNat f) (returning disp entries) (fun r _ => decide (r.1 = n ∧ r.2.2.2.length = entries.length))
      | _, _ => false) = true) :
    ∃ f t fstatus loops es s1, ((returning disp entries).core (⟨0, 1⟩ : SeqId).core).frame = some f ∧
      ((returning disp entries).seq ⟨0, 1⟩).task = some t ∧ f.group = 0 ∧ f.boundary = false ∧
      (readBack ⟨0, 1⟩ t.ctx.toNat f).on (returning disp entries) = (.ok (n, fstatus, loops, es), s1) ∧ es.length = entries.length := by
  split at h2
  · next f t hf ht =>
    obtain ⟨⟨d, fs, ls, es⟩, s1, hr, hn⟩ := ended _ h2
    have hn := of_decide_eq_true hn
    rw [hf] at h1
    have h1 := of_decide_eq_true h1
    simp only [Option.map_some, Option.some.injEq, Prod.mk.injEq] at h1
    simp only at hn
    rw [hn.1] at hr
    exact ⟨f, t, fs, ls, es, s1, hf, ht, h1.1, h1.2.1, hr, hn.2⟩
  · exact absurd h2 (by decide)
/-- A frame at VA 0x20000, that a table maps or none does. -/
def frameAt (root : Nat) : State :=
  let s := serving1.setSeq ⟨0, 1⟩ { serving1.seq ⟨0, 1⟩ with task := ((trapping 0x20000 serviceImage).seq ⟨0, 0⟩).task }
  let s := { s with nets := mapped.nets, dram := mapped.dram }
  s.setDie 0 { s.die 0 with root := root }
/-- The service group's own copy toward its frame is under way. -/
def frameBusy : State :=
  let s := frameAt 0x4000
  let q := s.seq ⟨0, 1⟩
  s.setSeq ⟨0, 1⟩ { q with channels := q.channels.set 0 { busy := true, transfer := some { transfer1 0x20000 with dst := 0x20018 } } }
def stalls {α : Type} (m : M α) (s : State) : Bool :=
  match m.on s with
  | (.error .hazard, _) => true
  | _ => false
theorem stalled {α : Type} {m : M α} {s : State} (h : stalls m s = true) : ∃ t, m.on s = (.error .hazard, t) := by
  unfold stalls at h
  split at h
  · next t hm => exact ⟨t, hm⟩
  · exact absurd h (by decide)
theorem frameAt_spec {z : State} (bad : Nat → Frame → Bool)
    (h : (match ((frameAt 0x4000).core (⟨0, 1⟩ : SeqId).core).frame, ((frameAt 0x4000).seq ⟨0, 1⟩).task with
      | some f, some t => decide (f.group = 0 ∧ (z.core (⟨0, 1⟩ : SeqId).core).frame = some f ∧ (z.seq ⟨0, 1⟩).task = some t) &&
          ends (readBack ⟨0, 1⟩ t.ctx.toNat f) (frameAt 0x4000) (fun _ _ => true) && bad t.ctx.toNat f
      | _, _ => false) = true) :
    ∃ f t r s1, ((frameAt 0x4000).core (⟨0, 1⟩ : SeqId).core).frame = some f ∧ ((frameAt 0x4000).seq ⟨0, 1⟩).task = some t ∧ f.group = 0 ∧
      (readBack ⟨0, 1⟩ t.ctx.toNat f).on (frameAt 0x4000) = (.ok r, s1) ∧ (z.core (⟨0, 1⟩ : SeqId).core).frame = some f ∧
      (z.seq ⟨0, 1⟩).task = some t ∧ bad t.ctx.toNat f = true := by
  split at h
  · next f t hf ht =>
    rw [Bool.and_eq_true, Bool.and_eq_true] at h
    obtain ⟨⟨h1, h2⟩, h3⟩ := h
    obtain ⟨h4, h5, h6⟩ := of_decide_eq_true h1
    obtain ⟨r, s1, hr, -⟩ := ended _ h2
    exact ⟨f, t, r, s1, hf, ht, h4, hr, h5, h6, h3⟩
  · exact absurd h (by decide)
theorem witness_lost_frames :
    (Obligations.TrapReturnRestoresOrEnds → ∃ (s : State) (f : FailInfo), (frameAt 0).trapReturn ⟨0, 1⟩ = s.failRank (otherOf ⟨0, 1⟩) f) ∧
    (Obligations.TrapReturnRestoresOrEnds → ∃ t, frameBusy.trapReturn ⟨0, 1⟩ = t) := by
  refine ⟨fun h => ?_, fun h => ?_⟩
  · obtain ⟨f, t, r, s1, hf, ht, hg, hr, zf, zt, hb⟩ := frameAt_spec (z := frameAt 0) (fun c f => raises (readBack ⟨0, 1⟩ c f) (frameAt 0)) (by decide +kernel)
    obtain ⟨c, a, d, z1, hz⟩ := raised hb
    exact ⟨_, _, ((h _ s1 ⟨0, 1⟩ f t _ _ _ _ hf ht hg hr).2.2.2.2 (frameAt 0) _ z1 zf zt hz)⟩
  · obtain ⟨f, t, r, s1, hf, ht, hg, hr, zf, zt, hb⟩ := frameAt_spec (z := frameBusy) (fun c f => stalls (readBack ⟨0, 1⟩ c f) frameBusy) (by decide +kernel)
    obtain ⟨z1, hz⟩ := stalled hb
    exact (((h _ s1 ⟨0, 1⟩ f t _ _ _ _ hf ht hg hr).2.2.2.2 frameBusy _ z1 zf zt hz)).elim fun _ h => ⟨_, h.2⟩
theorem witness_returns :
    (Obligations.TrapReturnRestoresOrEnds → ((returning 0 []).trapReturn ⟨0, 1⟩).focus = otherOf ⟨0, 1⟩) ∧
    (Obligations.TrapReturnRestoresOrEnds → ((returning 0 [replayed 0]).trapReturn ⟨0, 1⟩).focus = otherOf ⟨0, 1⟩) ∧
    (Obligations.TrapReturnRestoresOrEnds → ∃ (s : State) (f : FailInfo), (returning 1 []).trapReturn ⟨0, 1⟩ = s.failRank (otherOf ⟨0, 1⟩) f) := by
  refine ⟨fun h => ?_, fun h => ?_, fun h => ?_⟩
  · obtain ⟨f, t, fs, ls, es, s1, hf, ht, hg, hb, hr, he⟩ := returns_of (disp := 0) (entries := []) 0 (by decide +kernel) (by decide +kernel)
    exact ((h _ s1 ⟨0, 1⟩ f t 0 fs ls es hf ht hg hr).2.2.1 rfl (List.length_eq_zero_iff.1 he) hb).1
  · obtain ⟨f, t, fs, ls, es, s1, hf, ht, hg, hb, hr, he⟩ := returns_of (disp := 0) (entries := [replayed 0]) 0 (by decide +kernel) (by decide +kernel)
    exact ((h _ s1 ⟨0, 1⟩ f t 0 fs ls es hf ht hg hr).2.1 rfl (List.ne_nil_of_length_pos (by rw [he]; decide))).1
  · obtain ⟨f, t, fs, ls, es, s1, hf, ht, hg, hb, hr, he⟩ := returns_of (disp := 1) (entries := []) 1 (by decide +kernel) (by decide +kernel)
    exact ⟨_, _, (h _ s1 ⟨0, 1⟩ f t 1 fs ls es hf ht hg hr).1 (by decide)⟩
/-- A bundle whose trap, or SVC, or HALT, stands at its end; a HALT with and without work left; a frame with six entries. -/
def standing (e : Ending) : State := base.setSeq ⟨0, 0⟩ { base.seq ⟨0, 0⟩ with bundle := { (base.seq ⟨0, 0⟩).bundle with ending := some e } }
def busy1 : State :=
  let q := base.seq ⟨0, 0⟩
  base.setSeq ⟨0, 0⟩ { q with channels := q.channels.set 3 { busy := true } }
theorem witness_ends :
    (Obligations.BundlesEnd → ∃ d, (standing (.call 7)).endBundle ⟨0, 0⟩ = (standing (.call 7)).takeTrap ⟨0, 0⟩ d) ∧
    (Obligations.BundlesEnd → (standing .tret).endBundle ⟨0, 0⟩ = (standing .tret).trapReturn ⟨0, 0⟩) ∧
    (Obligations.BundlesEnd → (standing (.halt none)).endBundle ⟨0, 0⟩ = (standing (.halt none)).halt ⟨0, 0⟩ none) ∧
    (Obligations.HaltEndsItsRank → ((base.halt ⟨0, 0⟩ none).seq ⟨0, 0⟩).phase = .empty) ∧
    (Obligations.HaltEndsItsRank → ((busy1.halt ⟨0, 0⟩ none).seq ⟨0, 0⟩).wait.map Wait.kind = some .halt) ∧
    (Obligations.FramesHaveTheirLayout →
      ({ frameOf (base.seq ⟨0, 0⟩) ⟨0, 0⟩ trap1 with entries := List.replicate 6 (replayed 0) } : Frame).bytes.length = 0x2500) := by
  refine ⟨fun h => ⟨_, (h (standing (.call 7)) ⟨0, 0⟩).2.2.1 7 (by decide +kernel) (by decide +kernel)⟩,
    fun h => (h (standing .tret) ⟨0, 0⟩).2.2.2.2.2.1 (by decide +kernel) (by decide +kernel),
    fun h => (h (standing (.halt none)) ⟨0, 0⟩).2.2.2.2.1 none (by decide +kernel) (by decide +kernel), fun h => ?_, fun h => ?_,
    fun h => (h { frameOf (base.seq ⟨0, 0⟩) ⟨0, 0⟩ trap1 with entries := List.replicate 6 (replayed 0) } (by decide)).1⟩
  · obtain ⟨t, ht⟩ := isSome_ex (o := (base.seq ⟨0, 0⟩).task) (by decide +kernel)
    exact ((h base ⟨0, 0⟩ t none ht).1 (by decide +kernel) (by decide +kernel)).1
  · obtain ⟨t, ht⟩ := isSome_ex (o := (busy1.seq ⟨0, 0⟩).task) (by decide +kernel)
    exact ((h busy1 ⟨0, 0⟩ t none ht).2 (Or.inl ⟨3, by decide +kernel⟩)).1

/-- A bundle at its end with what its slots have left: at an iteration boundary, of a task that is to be pre-empted or not; with a
trap, an entry below and one above its HALT. -/
def atEnd (f : Bundle → Bundle) (s : State) : State := s.setSeq ⟨0, 0⟩ { s.seq ⟨0, 0⟩ with bundle := f (s.seq ⟨0, 0⟩).bundle }
def boundaryAt : State := atEnd (fun b => { b with boundary := true }) base
def preempted : State :=
  let s := atEnd (fun b => { b with boundary := true }) (trapping hostCtx serviceImage)
  let q := s.seq ⟨0, 0⟩
  (s.setSeq ⟨0, 0⟩ { q with task := q.task.map fun t => { t with long := true } }).setDie 0
    { s.die 0 with table := [{ entry1 with status := .running [0], preempt := true }] }
def trapEntry (n : BitVec 3) : ReplayEntry := { replayed 0 with slot := n }
def trapAndHalt : State :=
  atEnd (fun b => { b with trap := some { slot := 1, cause := 1, addr := 0, detail := 0 }, ending := some (.halt none),
                           endEntry := trapEntry 3, entries := [trapEntry 2, trapEntry 4] }) base
theorem witness_ends_otherwise :
    (Obligations.BundlesEnd → ∃ q, base.endBundle ⟨0, 0⟩ = base.setSeq ⟨0, 0⟩ q) ∧
    (Obligations.BundlesEnd → ∃ q, boundaryAt.endBundle ⟨0, 0⟩ = boundaryAt.setSeq ⟨0, 0⟩ q) ∧
    (Obligations.BundlesEnd → ∃ u, preempted.endBundle ⟨0, 0⟩ = u) ∧
    (Obligations.BundlesEnd → ∃ d, (atEnd (fun b => { b with trap := some { slot := 1, cause := 1, addr := 0, detail := 0 } }) base).endBundle ⟨0, 0⟩ =
      (atEnd (fun b => { b with trap := some { slot := 1, cause := 1, addr := 0, detail := 0 } }) base).takeTrap ⟨0, 0⟩ d) ∧
    (Obligations.BundlesEnd → ∃ d, trapAndHalt.endBundle ⟨0, 0⟩ = trapAndHalt.takeTrap ⟨0, 0⟩ d) := by
  refine ⟨fun h => ⟨_, (h base ⟨0, 0⟩).1 (by decide +kernel) (by decide +kernel) (by decide +kernel)⟩,
    fun h => ⟨_, ((h boundaryAt ⟨0, 0⟩).2.1 (by decide +kernel) (by decide +kernel) (by decide +kernel)).1 (Or.inr (Or.inr (by decide +kernel)))⟩,
    fun h => ?_,
    fun h => ⟨_, (h (atEnd (fun b => { b with trap := some { slot := 1, cause := 1, addr := 0, detail := 0 } }) base) ⟨0, 0⟩).2.2.2.2.2.2.1
      { slot := 1, cause := 1, addr := 0, detail := 0 } (by decide +kernel) (by decide +kernel)⟩,
    fun h => ?_⟩
  · obtain ⟨t, ht⟩ := isSome_ex (o := (preempted.seq ⟨0, 0⟩).task) (by decide +kernel)
    obtain ⟨p, -, hp⟩ := ((h preempted ⟨0, 0⟩).2.1 (by decide +kernel) (by decide +kernel) (by decide +kernel)).2 t (by decide +kernel) ht (by decide +kernel)
    exact ⟨_, hp⟩
  · obtain ⟨_, _, -, -, -, hd⟩ := (h trapAndHalt ⟨0, 0⟩).2.2.2.2.2.2.2 { slot := 1, cause := 1, addr := 0, detail := 0 } (.halt none)
      (by decide +kernel) (by decide +kernel)
    exact ⟨_, hd⟩

/-! ### Words of the spec decoded (R52, R60 and the worked encodings of its chapters) -/

theorem test_decode_prefixes : reads none 0x80000000 (.nop true) = true ∧ reads none 0x01003D09 (.lit 0x3D09) = true ∧
    reads none 0x02010280 (.guard 1 2 true) = true ∧ reads none 0x02050200 (.guard 5 2 false) = true := by decide +kernel
theorem test_decode_x : reads none 0x880A28C0 (.add ⟨true, false, false, 5, 5, 6, 0⟩) = true ∧
    reads (some 0x3D09) 0x88080810 (.add ⟨true, false, false, 4, 1, 0, 16⟩) = true ∧
    reads (some 0) 0x91023060 (.cmp ⟨true, false, false, 1, 6, 3, 0⟩) = true ∧
    reads (some 0x10) 0x920A0000 (.movi ⟨true, false, false, 5, 0, 0, 0⟩) = true ∧
    reads none 0x920B3FFF (.moviTop ⟨true, false, false, 5, 39, 63, 31⟩) = true ∧
    reads none 0x930C0011 (.movxIdx ⟨true, false, false, 6, 0, 0, 17⟩) = true ∧
    reads none 0x980000B0 (.loopN ⟨true, false, false, 0, 0, 5, 16⟩) = true ∧
    reads none 0x99000000 (.next ⟨true, false, false, 0, 0, 0, 0⟩) = true ∧
    reads none 0x9B000000 (.halt ⟨true, false, false, 0, 0, 0, 0⟩) = true := by decide +kernel
theorem test_decode_g : reads none 0xA3003A06 (.st ⟨true, false, false, 0, 7, 16, 6⟩) = true ∧
    reads none 0x2208280E (.ld ⟨false, false, false, 4, 5, 0, 14⟩) = true ∧
    reads none 0xA0045001 (.strm ⟨true, false, false, 2, 10, 0, 1⟩) = true := by decide +kernel
theorem test_decode_v : reads none 0xB30828C6 (.vfma ⟨true, false, false, 4, 5, 6, 6⟩) = true ∧
    reads none 0xBC060042 (.vcmp ⟨true, false, false, 3, 0, 2, 2⟩) = true := by decide +kernel
theorem test_decode_m : reads none 0xD0001127 (.mmv8 ⟨true, false, false, 0, 2, 9, 7⟩) = true ∧
    reads none 0xD000112B (.mmv8 ⟨true, false, false, 0, 2, 9, 11⟩) = true ∧
    reads none 0xDB002121 (.macsS ⟨true, false, false, 0, 4, 9, 1⟩) = true ∧
    reads none 0xD90C0122 (.macrP ⟨true, false, false, 6, 0, 9, 2⟩) = true := by decide +kernel
theorem test_decode_k : reads none 0xE4108000 (.job ⟨true, false, false, 8, 16, 0, 0⟩) = true ∧
    reads none 0xEC100040 (.bmapAlloc ⟨true, false, false, 8, 0, 2, 0⟩) = true ∧
    reads none 0xE90000C1 (.arvOne ⟨true, false, false, 0, 0, 6, 1⟩) = true ∧
    reads none 0xEA1400A0 (.rvwt ⟨true, false, false, 10, 0, 5, 0⟩) = true ∧
    reads none 0xEB005800 (.give ⟨true, false, false, 0, 11, 0, 0⟩) = true := by decide +kernel

/-! ### What well-formedness refuses, check by check -/

theorem test_reserved_words : refuses none 0x9E000000 1 = true ∧ refuses none 0x03000007 10 = true ∧ refuses none 0x00000001 14 = true ∧
    refuses none 0x01000000 1 = false ∧ refuses none 0x02000000 9 = true := by decide +kernel
/-- A prefix of R63 with an empty mask, one of R65 with code 6. -/
theorem test_ill_prefixes : (Instr.guard 1 0 false).wellFormed none = false ∧ (Instr.scope 6).wellFormed none = false ∧
    (Instr.scope 5).wellFormed none = true := by decide +kernel
/-- The constructor is not that of the word's row: F of br, a MOVI with HI, a MOVI with HI and a literal. -/
theorem test_ill_rows : (Instr.br ⟨true, false, false, 0, 1, 0, 16⟩).wellFormed none = false ∧
    (Instr.movi ⟨true, false, false, 5, 32, 0, 0⟩).wellFormed none = false ∧
    (Instr.moviTop ⟨true, false, false, 5, 32, 0, 0⟩).wellFormed (some 0) = false ∧
    (Instr.moviUpper ⟨true, false, false, 5, 32, 0, 0⟩).wellFormed none = false := by decide +kernel
/-- Each check code of one engine slot, with a word that breaks it alone. -/
def breaks (op : BitVec 7) (w : Slot) (lit : Option (BitVec 24)) (k : Nat) : Bool := decide (slotChecks op w lit = [k])
theorem test_ill_slots :
    breaks 0x1E ⟨true, false, false, 0, 0, 0, 0⟩ none 1 = true ∧ breaks 0x08 ⟨true, false, false, 3, 44, 2, 0⟩ none 2 = true ∧
    breaks 0x13 ⟨true, false, false, 3, 1, 0, 7⟩ none 3 = true ∧ breaks 0x13 ⟨true, false, false, 3, 1, 0, 0⟩ (some 0) 8 = true ∧
    breaks 0x22 ⟨true, false, false, 4, 4, 0, 6⟩ (some 0x200000) 11 = true ∧ breaks 0x08 ⟨true, false, false, 3, 36, 2, 0⟩ none 12 = true ∧
    breaks 0x19 ⟨true, false, false, 3, 0, 0, 0⟩ none 13 = true ∧ breaks 0x1C ⟨true, false, false, 3, 0, 31, 31⟩ none 34 = true ∧
    breaks 0x22 ⟨true, false, false, 4, 0, 0, 6⟩ (some 0x200000) 50 = true ∧ breaks 0x22 ⟨true, false, false, 4, 5, 0, 14⟩ (some 0x400000) 51 = true ∧
    breaks 0x22 ⟨true, false, false, 4, 5, 0, 6⟩ (some 0x100000) 54 = true ∧ breaks 0x39 ⟨true, false, false, 3, 1, 8, 0⟩ none 60 = true ∧
    breaks 0x3C ⟨true, false, false, 3, 0, 2, 2⟩ (some 8) 61 = true ∧ breaks 0x68 ⟨true, false, false, 0, 1, 24, 0⟩ none 80 = true ∧
    breaks 0x6C ⟨true, false, false, 4, 0, 16, 4⟩ none 81 = true ∧ breaks 0x6E ⟨true, false, false, 4, 0, 8, 0⟩ none 82 = true ∧
    breaks 0x73 ⟨true, false, false, 4, 0, 10, 0⟩ none 83 = true := by decide +kernel
/-- svc.tret in a task image, HALT in a service image: K-047. -/
theorem test_image_kinds : imageKindChecks false 0x1A ⟨true, false, false, 0, 0, 0, 2⟩ = [47] ∧
    imageKindChecks true 0x1B ⟨true, false, false, 0, 0, 0, 0⟩ = [47] ∧ imageKindChecks true 0x1A ⟨true, false, false, 0, 0, 0, 2⟩ = [] := by
  decide +kernel
/-- The bundles of R71, each before a HALT. -/
def refusal (code : List (BitVec 32)) : Option (Nat × Nat) := (checkBody false (code ++ [0x9B000000])).map fun b => (b.pos, b.code)
theorem test_bundles : refusal [0x02050200, 0xD000112B] = none ∧ refusal [0x5000112B, 0x82000000] = some (1, 5) ∧
    (refusal [0x83000001]).map Prod.snd = some 8 ∧ (refusal [0x02050100, 0xD000112B]).map Prod.snd = some 9 ∧
    (refusal [0x03000007, 0xA2000000]).map Prod.snd = some 10 ∧ (refusal [0x9E000000]).map Prod.snd = some 1 := by decide +kernel

/-! ### Single steps -/

/-- The x register of core 0 after one slot that ends its bundle. -/
def xAfter (o : Outcome) (n : BitVec 5) : Option Word :=
  match o with
  | .next t => some ((t.seq ⟨0, 0⟩).now.getX n)
  | _ => none
def vpcAfter (o : Outcome) : Option (BitVec 32) :=
  match o with
  | .next t => some (t.seq ⟨0, 0⟩).now.vpc
  | _ => none
/-- R86, worked in spec 04: 0x3FFF on top of 0x10_0000. -/
theorem test_movi : xAfter (exec (.movi ⟨true, false, false, 5, 0, 0, 0⟩) (afterLit 0x10 base)) 5 = some 0x100000 ∧
    xAfter (exec (.moviTop ⟨true, false, false, 5, 39, 63, 31⟩) (xs [(5, 0x100000)] base)) 5 = some 0x3FFF000000100000 := by decide +kernel
/-- R88: −0.3 under RNE delivers 0. −1.5 under RNE delivers 0 from movx.fui. -/
theorem test_movx : xAfter (exec (.movxFsi ⟨true, false, false, 5, 1, 0, 10⟩) (xs [(1, 0xBE99999A)] base)) 5 = some 0 ∧
    xAfter (exec (.movxFui ⟨true, false, false, 5, 1, 0, 11⟩) (xs [(1, 0xBFC00000)] base)) 5 = some 0 := by decide +kernel
/-- R82, R83: 5 + −7, wrapped and unsigned saturating; −7 ÷ 0 = 0, and its remainder is −7. -/
theorem test_arithmetic : xAfter (exec (.add ⟨true, false, false, 3, 1, 2, 0⟩) two) 3 = some (-2) ∧
    xAfter (exec (.sub ⟨true, false, false, 3, 1, 2, 12⟩) two) 3 = some 0 ∧
    xAfter (exec (.div ⟨true, false, false, 3, 2, 0, 0⟩) two) 3 = some 0 ∧
    xAfter (exec (.div ⟨true, false, false, 3, 2, 0, 2⟩) two) 3 = some (-7) := by decide +kernel
/-- R11: x0 stays zero. R61: a lone NOP advances VPC by 4. R92: jmp −1 stays one word before its bundle. -/
theorem test_control : xAfter (exec (.add ⟨true, false, false, 0, 1, 2, 0⟩) two) 0 = some 0 ∧
    vpcAfter (exec (.nop true) base) = some 4 ∧
    vpcAfter (exec (.jmp ⟨true, false, false, 0, 0, 0, 3⟩) base) = some 12 := by decide +kernel

end Sys2Proof.Tests
end

section
/-! PROOF. Computations that never stop at a hazard (R64, R129), and the arm of every engine slot. -/

namespace Sys2Proof.Machine

/-- In no state does the computation stop at a hazard of its sequencer's own unfinished work. -/
def NeverHazards {α : Type} (m : M α) : Prop := ∀ s, (m.on s).1 ≠ .error .hazard

theorem NeverHazards.pure {α : Type} (a : α) : NeverHazards (Pure.pure a : M α) := fun _ => nofun
theorem NeverHazards.get : NeverHazards (MonadState.get : M State) := fun _ => nofun
theorem NeverHazards.getSeq (w : SeqId) : NeverHazards (Machine.getSeq w) := fun _ => nofun
theorem NeverHazards.modSeq (w : SeqId) (f : Seq → Seq) : NeverHazards (Machine.modSeq w f) := fun _ => nofun
theorem NeverHazards.raise {α : Type} (code : Nat) (addr : Word) (d : BitVec 16) :
    NeverHazards (Machine.raise code addr d : M α) := fun _ => nofun
theorem NeverHazards.raiseIf (c : Bool) (code : Nat) (addr : Word) (d : BitVec 16) :
    NeverHazards (Machine.raiseIf c code addr d) := by
  cases c <;> exact fun _ => nofun

theorem NeverHazards.bind {α β : Type} {m : M α} {f : α → M β} (h : NeverHazards m) (hf : ∀ a, NeverHazards (f a)) :
    NeverHazards (m >>= f) := by
  intro s
  have hm := h s
  rw [M.on_bind]
  match hs : m.on s with
  | (.ok a, t) => exact hf a t
  | (.error e, t) =>
    rw [hs] at hm
    exact fun he => hm (congrArg Except.error (Except.error.inj he))

theorem NeverHazards.ite {α : Type} {c : Prop} [Decidable c] {m n : M α} (h : NeverHazards m) (h' : NeverHazards n) :
    NeverHazards (if c then m else n) := by
  split <;> assumption

/-! ### The bodies of the X and V slots that do more than answer a value -/

theorem branchTo_neverHazards (o : Operands) (offset : Nat) : NeverHazards (branchTo o offset) := .modSeq _ _

theorem brBody_neverHazards (o : Operands) : NeverHazards (brBody o) :=
  .ite (.bind (branchTo_neverHazards _ _) fun _ => .pure _) (.pure _)
theorem brNotBody_neverHazards (o : Operands) : NeverHazards (brNotBody o) :=
  .ite (.bind (branchTo_neverHazards _ _) fun _ => .pure _) (.pure _)
theorem jmpBody_neverHazards (o : Operands) : NeverHazards (jmpBody o) := .bind (branchTo_neverHazards _ _) fun _ => .pure _
theorem bruBody_neverHazards (o : Operands) : NeverHazards (bruBody o) :=
  .ite (.bind (branchTo_neverHazards _ _) fun _ => .pure _) (.pure _)

theorem codeOf_neverHazards (w : SeqId) : NeverHazards (codeOf w) :=
  .bind .get fun s => by split <;> exact .pure _

theorem loopIssue_neverHazards (o : Operands) (count : Int) : NeverHazards (loopIssue o count) :=
  .bind (codeOf_neverHazards _) fun _ =>
    .ite (.bind (.modSeq _ _) fun _ => .pure _) (.bind (.modSeq _ _) fun _ => .pure _)

theorem nextBody_neverHazards (o : Operands) : NeverHazards (nextBody o) :=
  .bind (codeOf_neverHazards _) fun _ => .bind (.modSeq _ _) fun _ => .pure _

theorem setEnding_neverHazards (o : Operands) (op : BitVec 7) (e : Ending) : NeverHazards (setEnding o op e) :=
  .bind (.modSeq _ _) fun _ => .pure _

theorem haltFailBody_neverHazards (o : Operands) : NeverHazards (haltFailBody o) :=
  .bind .get fun _ => .bind (setEnding_neverHazards _ _ _) fun _ => .pure _

theorem csrrBody_neverHazards (o : Operands) : NeverHazards (csrrBody o) := by
  refine .bind .get fun s => ?_
  iterate 7 refine .ite (.pure _) ?_
  refine .ite ?_ (.pure _)
  dsimp only
  split
  · exact .pure _
  · exact .raise _ _ _

theorem csrwBody_neverHazards (o : Operands) : NeverHazards (csrwBody o) := by
  refine .ite (.bind (.modSeq _ _) fun _ => .pure _) (.ite (.bind (.getSeq _) fun q => ?_) (.bind (.modSeq _ _) fun _ => .pure _))
  dsimp only
  split
  · exact .bind (.modSeq _ _) fun _ => .pure _
  · exact .raise _ _ _

theorem setMasks_neverHazards (o : Operands) (l : List Pred) : NeverHazards (setMasks o l) :=
  .bind (.modSeq _ _) fun _ => .pure _

theorem vmpsBody_neverHazards (o : Operands) : NeverHazards (vmpsBody o) :=
  .bind (.raiseIf _ _ _ _) fun _ => setMasks_neverHazards _ _

theorem vmivBody_neverHazards (o : Operands) : NeverHazards (vmivBody o) := by
  unfold vmivBody
  split
  · exact .raise _ _ _
  · exact setMasks_neverHazards _ _

theorem vmppBody_neverHazards (o : Operands) : NeverHazards (vmppBody o) := by
  unfold vmppBody
  split
  · exact .raise _ _ _
  · exact setMasks_neverHazards _ _

/-! ### The arm of an engine slot -/

/-- An opcode of the X or the V engine (R69). -/
def ofComputeEngine (op : BitVec 7) : Bool := op.toNat < 0x20 || (0x30 ≤ op.toNat && op.toNat < 0x50)

/-- Where the instruction is an engine slot, its arm runs the slot with some body; that of an X or V slot never stops at a
hazard: beyond its stream ports it touches no memory. -/
def SlotArm (i : Instr) : Prop :=
  ∀ op w, i.slot? = some (op, w) → ∃ body : Operands → M Result,
    (∀ s, exec i s = runSlot op w body s) ∧ (ofComputeEngine op = true → ∀ o, NeverHazards (body o))

theorem SlotArm.event {i : Instr} (hs : i.slot? = none) : SlotArm i := by
  intro op w h
  rw [hs] at h
  cases h

/-- An engine slot whose body never meets a hazard. -/
theorem SlotArm.computes {i : Instr} {op : BitVec 7} {w : Slot} {body : Operands → M Result} (hs : i.slot? = some (op, w))
    (arm : ∀ s, exec i s = runSlot op w body s) (hb : ∀ o, NeverHazards (body o)) : SlotArm i := by
  intro op' w' h
  cases hs.symm.trans h
  exact ⟨body, arm, fun _ => hb⟩

/-- An engine slot whose body only answers a value. -/
theorem SlotArm.answers {i : Instr} {op : BitVec 7} {w : Slot} {body : Operands → M Result} (hs : i.slot? = some (op, w))
    (arm : ∀ s, exec i s = runSlot op w body s) (hb : ∀ o, ∃ r, body o = Pure.pure r) : SlotArm i :=
  .computes hs arm fun o => by
    obtain ⟨r, h⟩ := hb o
    rw [h]
    exact .pure r

/-- A slot of the G, M, K or Y engine. -/
theorem SlotArm.other {i : Instr} {op : BitVec 7} {w : Slot} {body : Operands → M Result} (hs : i.slot? = some (op, w))
    (arm : ∀ s, exec i s = runSlot op w body s) (hop : ofComputeEngine op = false) : SlotArm i := by
  intro op' w' h
  cases hs.symm.trans h
  exact ⟨body, arm, fun hc => Bool.noConfusion (hop.symm.trans hc)⟩

/-- Every engine slot is run by runSlot, whatever its opcode. -/
theorem slotArm (i : Instr) : SlotArm i := by
  cases i with
  | add w | sub w | and w | or w | xor w | shf w | mul w | div w | mnx w | cmp w | movi w | moviTop w | moviUpper w
  | movx w | movxSignExtend w | movxZeroExtend w | movxSif w | movxUif w | movxFsi w | movxFui w | movxVlane w
  | movxIdx w | movxCnt w | sel w | vadd w | vsub w | vmul w | vfma w | vmnx w | vlog w | vlogP w | vshf w | vcvt w
  | vred w | vexp w | vrcp w | vrsq w | vsqrt w | vcmp w | vsel w | vprm w | vbrd w | vbrdImm w | vsca w | vqnt w
  | vmov w | vmovFp w | vmovTp w | vmovExp w | vmovIns w | viot w | vrmx w =>
    exact .answers rfl (fun _ => rfl) fun _ => ⟨_, rfl⟩
  | br w => exact .computes rfl (fun _ => rfl) brBody_neverHazards
  | brNot w => exact .computes rfl (fun _ => rfl) brNotBody_neverHazards
  | jmp w => exact .computes rfl (fun _ => rfl) jmpBody_neverHazards
  | bru w => exact .computes rfl (fun _ => rfl) bruBody_neverHazards
  | loop w => exact .computes rfl (fun _ => rfl) fun _ => loopIssue_neverHazards _ _
  | loopN w => exact .computes rfl (fun _ => rfl) fun _ => loopIssue_neverHazards _ _
  | next w => exact .computes rfl (fun _ => rfl) nextBody_neverHazards
  | svcCall w => exact .computes rfl (fun _ => rfl) fun _ => setEnding_neverHazards _ _ _
  | svcTrap w => exact .computes rfl (fun _ => rfl) fun _ => setEnding_neverHazards _ _ _
  | svcTret w => exact .computes rfl (fun _ => rfl) fun _ => setEnding_neverHazards _ _ _
  | halt w => exact .computes rfl (fun _ => rfl) fun _ => setEnding_neverHazards _ _ _
  | haltFail w => exact .computes rfl (fun _ => rfl) haltFailBody_neverHazards
  | csrr w => exact .computes rfl (fun _ => rfl) csrrBody_neverHazards
  | csrw w => exact .computes rfl (fun _ => rfl) csrwBody_neverHazards
  | vmps w => exact .computes rfl (fun _ => rfl) vmpsBody_neverHazards
  | vmiv w => exact .computes rfl (fun _ => rfl) vmivBody_neverHazards
  | vmpp w => exact .computes rfl (fun _ => rfl) vmppBody_neverHazards
  | strm w | strx w | strxOff w | ld w | ldQe w | st w | stQe w | vld w | vst w | gath w | amo w | mon w | mwt w
  | fence w | preq w | preqW w | qpsh w | qpshV w | qpop w | qpopV w | pref w | mmv8 w | mmv4 w | mmv2 w | mmvb w
  | mwld w | mwsl w | mwup w | mcalW w | mcalInv w | mcalR w | msmpSet w | msmpRd w | macrV w | macrB w | macrP w
  | macwV w | macwP w | macsZ w | macsS w | macsV w | copy w | mcst w | get w | put w | job w | wptrP w | wptrS w
  | wptrT w | ksyn w | rvin w | rvinB w | rvinRd w | arv w | arvOne w | rvwt w | give w | bmapAlloc w | bmapAllocz w
  | bmapFree w | bmapShare w | bmapRd w | send w | recv w | mprb w | task w | timeNow w | timeUntil w | yld w | hlth w =>
    exact .other rfl (fun _ => rfl) rfl
  | _ => exact .event rfl

end Sys2Proof.Machine
end

section
/-! PROOF. What sealing says of a slot: the engine of its form (R69) and the range of its check codes (R71). -/

namespace Sys2Proof.Machine

/-! ### The engine that a form names -/

theorem formG_engine (op f : Nat) : (formG op f).all (fun fm => fm.engine = .g) = true := by
  unfold formG
  dsimp only
  repeat' split
  all_goals rfl

theorem formMK_engine (op f : Nat) : (formMK op f).all (fun fm => fm.engine = .m || fm.engine = .k) = true := by
  unfold formMK
  dsimp only
  repeat' split
  all_goals rfl

theorem formY_engine (op f : Nat) : (formY op f).all (fun fm => fm.engine = .y) = true := by
  unfold formY
  dsimp only
  repeat' split
  all_goals rfl

/-- R69: a slot whose form names the X or the V engine has an opcode of that engine's part of the map. -/
theorem ofComputeEngine_of_form {op : BitVec 7} {w : Slot} {lit : Bool} {fm : Form} (hf : form op w lit = some fm)
    (he : fm.engine = .x ∨ fm.engine = .v) : ofComputeEngine op = true := by
  refine Decidable.byContradiction fun hc => ?_
  simp only [ofComputeEngine, Bool.or_eq_true, Bool.and_eq_true, decide_eq_true_eq] at hc
  unfold form at hf
  dsimp only at hf
  rw [if_neg (by omega)] at hf
  split at hf
  · rcases he with he | he <;> simpa [hf, he] using formG_engine op.toNat w.f.toNat
  · rw [if_neg (by omega)] at hf
    split at hf
    · rcases he with he | he <;> simpa [hf, he] using formMK_engine op.toNat w.f.toNat
    · rcases he with he | he <;> simpa [hf, he] using formY_engine op.toNat w.f.toNat

/-! ### The check codes of a slot (R71): none is above 83, so the lowest of them is never the 999 that lowestCode starts from -/

theorem unassignedF_le {op : BitVec 7} {w : Slot} {lit : Bool} {n : Nat} (h : n ∈ unassignedF op w lit) : n ≤ 83 := by
  unfold unassignedF at h
  split at h
  · split at h <;> simp only [List.mem_cons, List.not_mem_nil, or_false] at h <;> omega
  · simp only [List.mem_singleton] at h
    omega

theorem chapterChecks_le {op : BitVec 7} {w : Slot} {lit : Option (BitVec 24)} {n : Nat} (h : n ∈ chapterChecks op w lit) :
    n ≤ 83 := by
  unfold chapterChecks at h
  dsimp only at h
  split at h <;>
    simp only [chapterChecks.memChecks, List.mem_ite_nil_right, List.mem_append, List.mem_singleton, List.not_mem_nil] at h <;> omega

theorem slotChecks_le {op : BitVec 7} {w : Slot} {lit : Option (BitVec 24)} {n : Nat} (h : n ∈ slotChecks op w lit) :
    n ≤ 83 := by
  unfold slotChecks at h
  split at h
  · simp only [List.mem_singleton] at h
    omega
  · split at h
    · exact unassignedF_le h
    · simp only [fieldChecks, List.mem_ite_nil_right, List.mem_append, List.mem_singleton] at h
      rcases h with h | h
      · omega
      · exact chapterChecks_le h

theorem imageKindChecks_le {service : Bool} {op : BitVec 7} {w : Slot} {n : Nat} (h : n ∈ imageKindChecks service op w) :
    n ≤ 83 := by
  unfold imageKindChecks at h
  dsimp only at h
  split at h <;> simp only [List.mem_ite_nil_right, List.mem_singleton, List.not_mem_nil] at h <;> omega

/-- The lowest check code of a list is its least member. -/
theorem lowestCode_of_least {codes : List Nat} {n : Nat} (hn : n ∈ codes) (hl : ∀ m ∈ codes, n ≤ m) (h : n ≤ 999) :
    lowestCode codes = n := by
  have hm : codes.min? = some n := List.min?_eq_some_iff.2 ⟨hn, hl⟩
  rw [lowestCode, List.foldl_min, hm]
  exact Nat.min_eq_right h

end Sys2Proof.Machine
end

section
/-! PROOF. Slots that do not run (O45): unsealed, guarded false, or above a trapping slot. -/

namespace Sys2Proof.Machine

/-! ### What becomes of a slot -/

/-- A slot word of an opcode stands next in its bundle, outside a replay, and as a sealed image of the sequencer's kind may hold
it (R5, R71): Performs without its conditions on the bundle's guard and trap. -/
structure Stands (op : BitVec 7) (w : Slot) (fm : Form) (s : State) : Prop where
  noReplay : s.cur.bundle.replay = none
  sealed : slotChecks op w s.curLit = []
  kind : imageKindChecks (s.cur.phase = .service) op w = []
  hasForm : form op w s.curLit.isSome = some fm

/-- What becomes of a slot that stands, by its bundle's guard and trap. -/
theorem runSlot_stands {op : BitVec 7} {w : Slot} {fm : Form} {s : State} (body : Operands → M Result) (h : Stands op w fm s) :
    runSlot op w body s =
      let u := s.openBundle s.focus
      if s.cur.bundle.guardedFalse then .next (if u.meetsHazard s.focus op fm w s.curLit body then u else u.finishSlot s.focus w.stop)
      else if s.cur.bundle.trap.isSome then .next (u.settleSlot s.focus op fm w s.curLit body)
      else .next (u.runWith s.focus op fm w s.curLit (readOperands s.focus fm w s.curLit) body) := by
  obtain ⟨hr, hc, hk, hf⟩ := h
  unfold State.curLit State.cur at *
  unfold runSlot
  simp only [hr, hc, hk, hf, List.append_nil]

/-- A slot that sealing refuses stops the step with its lowest check code (log entry 58). -/
theorem runSlot_notSealed {op : BitVec 7} {w : Slot} {s : State} (body : Operands → M Result) (hr : s.cur.bundle.replay = none)
    (hc : slotChecks op w s.curLit ++ imageKindChecks (s.cur.phase = .service) op w ≠ []) :
    runSlot op w body s =
      .fault (.notSealed (lowestCode (slotChecks op w s.curLit ++ imageKindChecks (s.cur.phase = .service) op w))) := by
  unfold State.curLit State.cur at *
  unfold runSlot
  simp only [hr]
  split
  · next h _ => exact absurd h hc
  · rfl

/-- A slot that its bundle's guard makes false takes its place, or stalls at a hazard (R64). -/
theorem runSlot_guardedFalse {op : BitVec 7} {w : Slot} {fm : Form} {s : State} {mask : BitVec 8} (body : Operands → M Result)
    (h : Stands op w fm s) (hg : s.cur.bundle.guard = some (false, mask)) (hm : mask.getLsbD s.cur.bundle.pos = true) :
    runSlot op w body s = .next (if (s.openBundle s.focus).meetsHazard s.focus op fm w s.curLit body then s.openBundle s.focus
      else (s.openBundle s.focus).finishSlot s.focus w.stop) := by
  rw [runSlot_stands body h, Bundle.guardedFalse, hg]
  simp [hm]

/-- A slot above a trapping one is settled, not run (R211). -/
theorem runSlot_aboveTrap {op : BitVec 7} {w : Slot} {fm : Form} {s : State} {t : TrapPoint} (body : Operands → M Result)
    (h : Stands op w fm s) (ht : s.cur.bundle.trap = some t) (hg : s.cur.bundle.guardedFalse = false) :
    runSlot op w body s = .next ((s.openBundle s.focus).settleSlot s.focus op fm w s.curLit body) := by
  rw [runSlot_stands body h, ht, hg]
  rfl

/-- R211: above a trapping slot such a slot is not performed, and its entry stands in state 0. -/
theorem settleSlot_deferred {op : BitVec 7} (s : State) (who : SeqId) (fm : Form) (w : Slot) (lit : Option (BitVec 24))
    (body : Operands → M Result) (hc : slotClass op = .deferred ∨ slotClass op = .service) :
    s.settleSlot who op fm w lit body = (s.setSeq who { s.seq who with bundle := { (s.seq who).bundle with
      entries := (s.seq who).bundle.entries ++ [mkEntry (s.seq who) op fm w lit 0] } }).finishSlot who w.stop := by
  rcases hc with hc | hc <;> simp only [State.settleSlot, hc]

/-! ### Hazards -/

theorem readOperand_neverHazards (who : SeqId) (sc : Scope) (e : Engine) (r : Regs) {k : Kind} {code : BitVec 6}
    (hk : ((k = .scalar || k = .vector) && isPort code) = false) : NeverHazards (readOperand who sc e r k code) := by
  intro t
  obtain ⟨v, hv⟩ := readOperand_register who sc e r t (by rwa [Bool.and_comm])
  rw [hv]
  nofun

theorem readOperands_neverHazards (who : SeqId) {fm : Form} {w : Slot} (lit : Option (BitVec 24)) (hp : readsPort fm w = false) :
    NeverHazards (readOperands who fm w lit) := by
  obtain ⟨ha, hb⟩ := Bool.or_eq_false_iff.1 hp
  refine .bind (.getSeq _) fun _ => .ite (.bind (.pure _) fun _ => ?_) (.bind (readOperand_neverHazards _ _ _ _ ha) fun _ => ?_)
  all_goals exact .bind (readOperand_neverHazards _ _ _ _ hb) fun _ => .pure _

theorem namesLoading_ofComputeEngine {op : BitVec 7} (hop : ofComputeEngine op = true) (s : State) (who : SeqId) (fm : Form)
    (w : Slot) : s.namesLoading who op fm w = false := by
  have h (k : BitVec 7) (hk : ofComputeEngine k = false) : op ≠ k := by
    rintro rfl
    exact Bool.noConfusion (hk.symm.trans hop)
  simp [State.namesLoading, h 0x50#7 rfl, h 0x51#7 rfl, h 0x52#7 rfl, h 0x53#7 rfl, h 0x54#7 rfl, h 0x56#7 rfl]

/-- An X or V slot without a stream port never stalls its bundle. -/
theorem meetsHazard_ofComputeEngine {op : BitVec 7} {fm : Form} {w : Slot} {body : Operands → M Result} (s : State) (who : SeqId)
    (lit : Option (BitVec 24)) (hop : ofComputeEngine op = true) (hp : readsPort fm w = false) (hb : ∀ o, NeverHazards (body o)) :
    s.meetsHazard who op fm w lit body = false := by
  have h : NeverHazards (do let o ← readOperands who fm w lit; body o) := .bind (readOperands_neverHazards who lit hp) hb
  unfold State.meetsHazard
  rw [namesLoading_ofComputeEngine hop, Bool.false_or]
  split
  · next he => exact absurd (congrArg Prod.fst he) (h s)
  · rfl

/-- MGM of sr.mmode selects logical number j where its bit j is set (R162). -/
theorem mem_participants {m : Word} {j : Nat} (hj : j < 8) : j ∈ participants (mmMgm m) ↔ m.getLsbD j = true := by
  have hb : (mmMgm m).testBit j = m.getLsbD j := by
    rw [mmMgm, field, Nat.testBit_mod_two_pow, Nat.pow_zero, Nat.div_one]
    simp [hj, BitVec.getLsbD]
  simp [participants, hj, ← hb, Nat.testBit_eq_decide_div_mod_eq]

theorem mmWs_eq (m : Word) : mmWs m = (m.extractLsb' 8 2).toNat := by
  simp [mmWs, field, Nat.shiftRight_eq_div_pow]

theorem namesLoading_setSeq {s : State} {who : SeqId} {q : Seq} (hq : q.before = (s.seq who).before) (op : BitVec 7) (fm : Form)
    (w : Slot) : (s.setSeq who q).namesLoading who op fm w = s.namesLoading who op fm w := by
  simp only [State.namesLoading, State.seq_setSeq_same, hq]
  simp [State.setSeq, Core.liveList, Core.wset]

theorem namesLoading_openBundle (s : State) (who : SeqId) (op : BitVec 7) (fm : Form) (w : Slot) :
    (s.openBundle who).namesLoading who op fm w = s.namesLoading who op fm w := by
  unfold State.openBundle
  dsimp only
  split
  · refine namesLoading_setSeq ?_ op fm w
    rfl
  · rfl

/-- R186: an MMV names every set that its mode selects. -/
theorem namesLoading_mmv {s : State} {who : SeqId} {op : BitVec 7} {j p : Nat} (fm : Form) (w : Slot)
    (hop : op ∈ [0x50#7, 0x51, 0x52, 0x53]) (hj : j < 8) (hm : (s.seq who).before.mmode.getLsbD j = true)
    (hl : (s.core who.core).liveList[j]? = some p)
    (hs : ((s.core who.core).wset p ((s.seq who).before.mmode.extractLsb' 8 2).toNat).loading = true) :
    s.namesLoading who op fm w = true := by
  have ho : (op = 0x50 || op = 0x51 || op = 0x52 || op = 0x53) = true := by simpa [or_assoc] using hop
  unfold State.namesLoading
  rw [if_pos ho, List.any_eq_true]
  exact ⟨j, (mem_participants hj).2 hm, by simp only [hl, mmWs_eq, hs]⟩

end Sys2Proof.Machine

namespace Sys2Proof

open Machine

/-- Settles O45: every engine slot is run by runSlot, whose branches for unsealed, guarded-false and trap-suppressed slots are the
three clauses; an X or V body never meets a hazard, and an MMV names the sets of its mode. -/
theorem slotsThatDoNotRun : Obligations.SlotsThatDoNotRun := by
  unfold Obligations.SlotsThatDoNotRun
  refine ⟨?_, ?_, ?_⟩
  · intro i op w s n hi hr hn hl
    obtain ⟨body, arm, -⟩ := slotArm i op w hi
    have hle : n ≤ 83 := (List.mem_append.1 hn).elim slotChecks_le imageKindChecks_le
    rw [arm, runSlot_notSealed body hr (List.ne_nil_of_mem hn), lowestCode_of_least hn hl (by omega)]
  · intro i op w fm s mask hi hr hc hk hf hg hm u
    obtain ⟨body, arm, hb⟩ := slotArm i op w hi
    have hrun := (arm s).trans (runSlot_guardedFalse body ⟨hr, hc, hk, hf⟩ hg hm)
    refine ⟨?_, ?_, ?_⟩
    · rw [hrun]
      split
      · exact .inl rfl
      · exact .inr rfl
    · intro he hp
      have hop := ofComputeEngine_of_form hf he
      rw [hrun, meetsHazard_ofComputeEngine u s.focus s.curLit hop hp (hb hop)]
      rfl
    · intro j p hop hj hmm hlive hload
      have hn : u.namesLoading s.focus op fm w = true :=
        (namesLoading_openBundle s s.focus op fm w).trans (namesLoading_mmv fm w hop hj hmm hlive hload)
      rw [hrun, State.meetsHazard, hn]
      rfl
  · intro i op w fm s t hi hr ht hg hc hk hf hcl
    obtain ⟨body, arm, -⟩ := slotArm i op w hi
    rw [arm, runSlot_aboveTrap body ⟨hr, hc, hk, hf⟩ ht hg, settleSlot_deferred _ _ _ _ _ body hcl]

end Sys2Proof
end

section
/-! PROOF. The system registers (O9): what CSRR and CSRW do to the state, in the words of R28 and R216. -/

namespace Sys2Proof.Machine

open Statements

theorem append_toNat {m n : Nat} (a : BitVec m) (b : BitVec n) : (a ++ b).toNat = a.toNat * 2 ^ n + b.toNat := by
  rw [BitVec.toNat_append, ← Nat.shiftLeft_add_eq_or_of_lt b.isLt, Nat.shiftLeft_eq]

/-! ### The number of a system register and the words that are built from fields -/

theorem sysReg_eq (w : Slot) : w.sysReg = sysNumber w := (append_toNat w.b w.f).symm

theorem depthWord_eq (r : Regs) :
    r.depthWord = 0#56 ++ BitVec.ofNat 4 r.masks.length ++ 0#1 ++ BitVec.ofNat 3 r.loops.length := by
  apply BitVec.eq_of_toNat_eq
  simp only [Regs.depthWord, append_toNat, BitVec.toNat_ofNat]
  omega

theorem coreWord_eq (who : SeqId) : BitVec.ofNat 64 (who.group.val * 4096 + who.core.val) =
    0#51 ++ BitVec.ofNat 1 who.group.val ++ 0#2 ++ BitVec.ofNat 10 who.core.val := by
  have hg := who.group.isLt
  have hc := who.core.isLt
  apply BitVec.eq_of_toNat_eq
  simp only [append_toNat, BitVec.toNat_ofNat]
  omega

theorem setWidth_eq_append {n : Nat} (k : Nat) (a : BitVec n) : a.setWidth (k + n) = 0#k ++ a := by
  apply BitVec.eq_of_toNat_eq
  rw [append_toNat, BitVec.toNat_setWidth, BitVec.toNat_ofNat, Nat.zero_mod, Nat.zero_mul, Nat.zero_add]
  exact Nat.mod_eq_of_lt (Nat.lt_of_lt_of_le a.isLt (Nat.pow_le_pow_right (by decide) (Nat.le_add_left _ _)))

theorem stickyEngine_word {n : Nat} (h : 0x010 ≤ n ∧ n ≤ 0x015) : stickyEngine n = Fin.ofNat 6 (n % 16) := by
  unfold stickyEngine
  congr 1
  omega

/-! ### CSRR -/

/-- A register that can be written reads as its content. -/
theorem readRw_eq_content {o : Operands} {s : State} {n : Nat}
    (hn : n = 0x008 ∨ n = 0x009 ∨ (0x010 ≤ n ∧ n ≤ 0x015) ∨ (0x018 ≤ n ∧ n ≤ 0x01D)) :
    o.regs.readRw n = sysContent o s n := by
  unfold Regs.readRw sysContent
  rcases hn with rfl | rfl | hn | hn
  · exact congrArg some (setWidth_eq_append 62 o.regs.round)
  · rfl
  all_goals
    have h8 : n ≠ 0x008 := by omega
    have h9 : n ≠ 0x009 := by omega
    have h3 : n ≠ 0x000 ∧ n ≠ 0x001 ∧ n ≠ 0x002 := by omega
    simp only [h8, h9, h3, if_false]
  · simp [hn, stickyEngine_word hn, Sticky.word]
  · have h15 : ¬ n ≤ 0x015 := by omega
    simp [hn, h15, stickyEngine]

/-- CSRR answers the register's content and leaves the state as it is. -/
theorem csrrBody_reads {o : Operands} {s : State} {v : Word} (h : sysContent o s (sysNumber o.slot) = some v) :
    (csrrBody o).on s = (.ok (Result.ofX v), s) := by
  unfold csrrBody
  rw [M.on_bind_ok (M.on_get s), sysReg_eq]
  generalize sysNumber o.slot = n at h
  by_cases hn : n = 0x008 ∨ n = 0x009 ∨ (0x010 ≤ n ∧ n ≤ 0x015) ∨ (0x018 ≤ n ∧ n ≤ 0x01D)
  · have h0 : n ≠ 0x000 ∧ n ≠ 0x001 ∧ n ≠ 0x002 := by omega
    have h2 : n ≠ 0x020 ∧ n ≠ 0x021 ∧ n ≠ 0x022 := by omega
    have h3 : n ≠ 0x030 ∧ n ≠ 0x031 ∧ n ≠ 0x032 := by omega
    simp only [h0, h2, h3, if_false, decide_false, Bool.or_self, Bool.false_eq_true, readRw_eq_content (s := s) hn, h]
    rfl
  · simp only [not_or] at hn
    obtain ⟨h8, h9, hs, ht⟩ := hn
    unfold sysContent at h
    simp only [h8, h9, hs, ht, if_false] at h
    split at h
    · next hn => subst hn; cases h; rw [← setWidth_eq_append]; rfl
    split at h
    · next hn => subst hn; cases h; rw [← setWidth_eq_append]; rfl
    split at h
    · next hn => subst hn; cases h; rw [← depthWord_eq]; rfl
    split at h
    · next hn => subst hn; cases h; rfl
    split at h
    · next hn => subst hn; cases h; rw [← coreWord_eq]; rfl
    split at h
    · next hn =>
      cases h
      rcases hn with rfl | rfl <;> unfold seqOf <;> cases (s.seq o.who).task <;> rfl
    split at h
    · next hn => subst hn; cases h; rfl
    split at h
    · next hn =>
      subst hn
      simp only [peerSel, otherGroup, h]
      rfl
    · cases h

/-! ### CSRW -/

/-- CSRW of a register of R28 that can be written: its value for the register, then WS as an MWSL of the same bundle left it (R189),
then the bundle's own exceptions (R26). -/
def writtenRw (n : Nat) (v : Word) (q : Seq) : Seq :=
  match q.now.writeRw n v with
  | some r =>
    let q := { q with now := r }
    let q := if n = 0x009 then q.keepSet else q
    if 0x010 ≤ n then q.reraise (stickyEngine n) else q
  | none => q

theorem csrwBody_rw {o : Operands} {n : Nat} (s : State) (hs : sysNumber o.slot = n) (hn : n ≠ 0x031 ∧ n ≠ 0x032) :
    (csrwBody o).on s = (.ok {}, s.setSeq o.who (writtenRw n o.xa (seqOf o s))) := by
  unfold csrwBody
  rw [sysReg_eq, hs, if_neg hn.1, if_neg hn.2, M.on_bind_ok (M.on_modSeq _ _ _)]
  rfl

/-- A write of a sticky register clears its record and records again what the bundle has raised for it (R26). -/
theorem writtenRw_sticky {n : Nat} (v : Word) (q : Seq) (hn : (0x010 ≤ n ∧ n ≤ 0x015) ∨ (0x018 ≤ n ∧ n ≤ 0x01D)) :
    writtenRw n v q = clearedRecord q (stickyEngine n) := by
  have hw : q.now.writeRw n v = some { q.now with sticky := q.now.sticky.set (stickyEngine n) {} } := by
    unfold Regs.writeRw
    rw [if_neg (by omega), if_neg (by omega), if_pos (by simpa using hn)]
  unfold writtenRw
  simp only [hw, show n ≠ 0x009 by omega, show 0x010 ≤ n by omega, if_false, if_true]
  rfl

/-- CSRW writes as R28, R189 and R216 say. -/
theorem csrwBody_writes {o : Operands} {s s2 : State} {r : Result} (h : WritesSystem o.slot o s s2 r) :
    (csrwBody o).on s = (.ok r, s2) := by
  obtain ⟨rfl, h⟩ := h
  split at h
  · next hn => rw [csrwBody_rw s hn (by decide), h]; rfl
  split at h
  · next hn => rw [csrwBody_rw s hn (by decide), h]; rfl
  split at h
  · next hn => rw [csrwBody_rw s rfl (by omega), writtenRw_sticky _ _ (.inl hn), stickyEngine_word hn, h]
  split at h
  · next hn => rw [csrwBody_rw s rfl (by omega), writtenRw_sticky _ _ (.inr hn), h]; rfl
  split at h
  · next hn =>
    unfold csrwBody
    rw [sysReg_eq, if_pos hn, h]
    rfl
  split at h
  · next hn =>
    obtain ⟨x, hx, rfl⟩ := h
    unfold csrwBody
    rw [sysReg_eq, hn, if_neg (by decide), if_pos rfl]
    simp only [peerSel, otherGroup, M.on_bind, M.on_getSeq, hx]
    rfl
  · exact h.elim

end Sys2Proof.Machine

namespace Sys2Proof

open Machine

/-- Settles O9: the bodies of CSRR and CSRW, register by register. -/
theorem systemRegistersReadAndWrite : Obligations.SystemRegistersReadAndWrite := by
  refine ⟨.ofBody (fun _ _ => rfl) ?_, .ofBody (fun _ _ => rfl) ?_⟩
  · rintro o s s2 r - ⟨rfl, v, hv, rfl⟩
    exact csrrBody_reads hv
  · rintro o s s2 r - h
    exact csrwBody_writes h

end Sys2Proof
end

section
/-! PROOF. The mask stack (O20): the bodies of VMPS, VMIV and VMPP at every depth (R18, R30, R152). -/

namespace Sys2Proof.Machine

open Statements

theorem setMasks_on (o : Operands) (l : List Pred) (s : State) : (setMasks o l).on s = (.ok {}, withMasks o l s) := rfl

theorem vmpsBody_pushes {o : Operands} {s s2 : State} {r : Result} (h : PushesMask o.slot o s s2 r) :
    (vmpsBody o).on s = (.ok r, s2) := by
  obtain ⟨hd, rfl, rfl⟩ := h
  have hc : decide (8 ≤ o.regs.masks.length) = false := decide_eq_false (by omega)
  unfold vmpsBody
  rw [M.on_bind_ok (M.on_raiseIf_false hc _ _ _ s), setMasks_on]
  rfl

theorem vmpsBody_overflows {o : Operands} {s s2 : State} {code : Nat} {addr : Word} {detail : BitVec 16}
    (h : MaskOverflows o.slot o s s2 code addr detail) :
    (vmpsBody o).on s = (.error (.cause (BitVec.ofNat 10 code) addr detail), s2) := by
  obtain ⟨hd, rfl, rfl, rfl, rfl⟩ := h
  unfold vmpsBody
  rw [M.on_bind_stop (M.on_raiseIf_true (decide_eq_true hd) _ _ _ s2)]

theorem vmivBody_inverts {o : Operands} {s s2 : State} {r : Result} (h : InvertsMask o.slot o s s2 r) :
    (vmivBody o).on s = (.ok r, s2) := by
  obtain ⟨top, rest, hm, rfl, rfl⟩ := h
  unfold vmivBody
  rw [hm, ← List.headD_eq_head?_getD]
  rfl

theorem vmppBody_pops {o : Operands} {s s2 : State} {r : Result} (h : PopsMask o.slot o s s2 r) :
    (vmppBody o).on s = (.ok r, s2) := by
  obtain ⟨top, rest, hm, rfl, rfl⟩ := h
  unfold vmppBody
  rw [hm]
  rfl

theorem vmivBody_underflows {o : Operands} {s s2 : State} {code : Nat} {addr : Word} {detail : BitVec 16}
    (h : MaskUnderflows o.slot o s s2 code addr detail) :
    (vmivBody o).on s = (.error (.cause (BitVec.ofNat 10 code) addr detail), s2) := by
  obtain ⟨hm, rfl, rfl, rfl, rfl⟩ := h
  unfold vmivBody
  rw [hm]
  rfl

theorem vmppBody_underflows {o : Operands} {s s2 : State} {code : Nat} {addr : Word} {detail : BitVec 16}
    (h : MaskUnderflows o.slot o s s2 code addr detail) :
    (vmppBody o).on s = (.error (.cause (BitVec.ofNat 10 code) addr detail), s2) := by
  obtain ⟨hm, rfl, rfl, rfl, rfl⟩ := h
  unfold vmppBody
  rw [hm]
  rfl

end Sys2Proof.Machine

namespace Sys2Proof

open Machine

/-- Settles O20: each body of the mask stack at the depths at which it moves, and at the one at which it traps. -/
theorem maskStackMoves : Obligations.MaskStackMoves :=
  ⟨.ofBody (fun _ _ => rfl) fun _ _ _ _ _ => vmpsBody_pushes, .ofBody (fun _ _ => rfl) fun _ _ _ _ _ => vmivBody_inverts,
    .ofBody (fun _ _ => rfl) fun _ _ _ _ _ => vmppBody_pops, .ofBody (fun _ _ => rfl) fun _ _ _ _ _ _ _ => vmpsBody_overflows,
    .ofBody (fun _ _ => rfl) fun _ _ _ _ _ _ _ => vmivBody_underflows,
    .ofBody (fun _ _ => rfl) fun _ _ _ _ _ _ _ => vmppBody_underflows⟩

end Sys2Proof
end

section
/-! PROOF. The end of a bundle (O53): what follows by its trap, its HALT or SVC, and its iteration boundary (R24, R66, R94, R98,
R211). -/

namespace Sys2Proof.Machine

/-- The entry of a HALT or SVC comes before the first entry of a later slot. -/
theorem insertEntry_split (e : ReplayEntry) (l : List ReplayEntry) :
    ∃ below above : List ReplayEntry, l = below ++ above ∧ (∀ x, x ∈ below → x.slot ≤ e.slot) ∧
      (∀ x, above.head? = some x → e.slot < x.slot) ∧ insertEntry e l = below ++ e :: above := by
  induction l with
  | nil => exact ⟨[], [], rfl, by simp, by simp, rfl⟩
  | cons x t ih =>
    by_cases hx : e.slot < x.slot
    · refine ⟨[], x :: t, rfl, by simp, fun y hy => Option.some.inj hy ▸ hx, ?_⟩
      rw [insertEntry, if_pos hx, List.nil_append]
    · obtain ⟨below, above, rfl, hb, ha, hi⟩ := ih
      refine ⟨x :: below, above, rfl, ?_, ha, ?_⟩
      · intro y hy
        rcases List.mem_cons.1 hy with rfl | hy
        · exact BitVec.not_lt.1 hx
        · exact hb y hy
      · rw [insertEntry, if_neg hx, hi, List.cons_append]

theorem preemptPending_setSeq {s : State} {w : SeqId} {q : Seq} (h : q.task = (s.seq w).task) :
    (s.setSeq w q).preemptPending w = s.preemptPending w := by
  unfold State.preemptPending
  rw [State.seq_setSeq_same, h]
  rfl

/-- No iteration boundary is landed on but by a running task that a request pre-empts (R24). -/
theorem land_of_not {s : State} {w : SeqId}
    (h : (s.seq w).phase ≠ .running ∨ (s.seq w).task = none ∨ s.preemptPending w = false) : s.land w = s := by
  unfold State.land
  dsimp only
  split
  · next hp ht =>
    rw [if_neg]
    rcases h with h | h | h
    · exact absurd hp h
    · exact absurd (h.symm.trans ht) nofun
    · simp [h]
  · rfl

theorem land_of_pending {s : State} {w : SeqId} {t : TaskRef} (hp : (s.seq w).phase = .running) (ht : (s.seq w).task = some t)
    (h : s.preemptPending w = true) :
    s.land w = (s.setSeq w { s.seq w with
      wait := some { kind := .stopped, op := 0x19, w := Slot.ofWord 0, since := s.cycle } }).modEntry t.die t.serial fun e =>
        { e with stopped := e.stopped ++ [t.rank] } := by
  unfold State.land
  simp only [hp, ht, h, if_true]

/-- Where the bundle sends its sequencer (R94). -/
def Seq.bundleNext (q : Seq) : BitVec 32 := q.bundle.target.getD (q.before.vpc + BitVec.ofNat 32 (4 * q.bundle.pos))

/-- The trap that a bundle takes at its end, with these entries (R211). -/
def State.bundleTrap (s : State) (w : SeqId) (p : TrapPoint) (entries : List ReplayEntry) : TrapData :=
  let q := s.seq w
  { point := p, vpc := q.before.vpc, entries := entries, resume := q.bundleNext, boundary := q.bundle.boundary,
    loops := q.before.loops }

/-- What follows a bundle without a trap, by its HALT or SVC (R66, R98, R99). -/
def State.afterBundle (s : State) (w : SeqId) : Option Ending → State
  | none => s.nextBundle w (s.seq w).bundleNext (s.seq w).bundle.boundary
  | some (.halt f) => s.halt w f
  | some (.call n) => s.takeTrap w (s.bundleTrap w ⟨(s.seq w).bundle.endEntry.slot.toNat, 0x041, 0, n⟩ [])
  | some (.trap n) => s.takeTrap w (s.bundleTrap w ⟨(s.seq w).bundle.endEntry.slot.toNat, 0x042, 0, n⟩ [])
  | some .tret => s.trapReturn w

theorem endBundle_untrapped {s : State} {w : SeqId} (h : (s.seq w).bundle.trap = none) :
    s.endBundle w = s.afterBundle w (s.seq w).bundle.ending := by
  unfold State.endBundle
  rcases he : (s.seq w).bundle.ending with _ | (f | n | n | _) <;> simp only [h, he] <;> rfl

theorem endBundle_trapped {s : State} {w : SeqId} {p : TrapPoint} (h : (s.seq w).bundle.trap = some p) :
    s.endBundle w = s.takeTrap w (s.bundleTrap w p (if (s.seq w).bundle.ending.isSome then
      insertEntry (s.seq w).bundle.endEntry (s.seq w).bundle.entries else (s.seq w).bundle.entries)) := by
  unfold State.endBundle
  rcases he : (s.seq w).bundle.ending with _ | x <;> simp only [h, he] <;> rfl

end Sys2Proof.Machine

namespace Sys2Proof

open Machine

/-- Settles O53: a trapped bundle takes its trap, with the entry of its own HALT or SVC among the others; another one ends by its
HALT or SVC, or is followed by the next bundle, which lands at an iteration boundary. -/
theorem bundlesEnd : Obligations.BundlesEnd := by
  intro s who q next trap
  refine ⟨fun ht he hb => ?_, ?_, fun n ht he => (endBundle_untrapped ht).trans (congrArg (s.afterBundle who) he),
    fun n ht he => (endBundle_untrapped ht).trans (congrArg (s.afterBundle who) he),
    fun f ht he => (endBundle_untrapped ht).trans (congrArg (s.afterBundle who) he),
    fun ht he => (endBundle_untrapped ht).trans (congrArg (s.afterBundle who) he), fun p ht he => ?_, fun p x ht he => ?_⟩
  · rw [endBundle_untrapped ht, he, State.afterBundle, State.nextBundle, hb]
    rfl
  · intro ht he hb u
    have hend : s.endBundle who = (s.setSeq who u).land who := by
      rw [endBundle_untrapped ht, he, State.afterBundle, State.nextBundle, hb]
      rfl
    have hpre : (s.setSeq who u).preemptPending who = s.preemptPending who := preemptPending_setSeq rfl
    have hu : (s.setSeq who u).seq who = u := State.seq_setSeq_same ..
    refine ⟨fun h => ?_, fun t hp hk h => ⟨{ kind := .stopped, op := 0x19, w := Slot.ofWord 0, since := s.cycle }, rfl, ?_⟩⟩
    · rw [hend, land_of_not]
      rwa [hu, hpre]
    · rw [hend, land_of_pending (by rw [hu]; exact hp) (by rw [hu]; exact hk) (hpre.trans h), hu, State.setSeq_setSeq]
      rfl
  · rw [endBundle_trapped ht, he]
    rfl
  · obtain ⟨below, above, hl, hb, ha, hi⟩ := insertEntry_split q.bundle.endEntry q.bundle.entries
    refine ⟨below, above, hl, hb, ha, ?_⟩
    rw [← hi, endBundle_trapped ht, he]
    rfl

end Sys2Proof
end

section
/-! PROOF. One step (O44): what the sequencer in focus runs, by its bundle, its replay and its wait. -/

namespace Sys2Proof.Machine

/-! ### Lowering and lost words concern only a sequencer that issues at the start of a bundle (R308, R315) -/

theorem wordsLost_of_not {s : State} {w : SeqId} (h : s.issues w = true → (s.seq w).bundle.replay.isNone = false) :
    s.wordsLost w = none := by
  have hc (x : Bool) : (s.issues w && x && (s.seq w).bundle.replay.isNone) = false := by
    rw [Bool.and_right_comm, Bool.and_eq_false_imp.2 h, Bool.false_and]
  unfold State.wordsLost
  dsimp only
  split
  · rw [hc]
    rfl
  · rfl

theorem toLower_of_replay {s : State} {w : SeqId} {r : Replay} (h : (s.seq w).bundle.replay = some r) : s.toLower w = none := by
  unfold State.toLower
  dsimp only
  split
  · simp [h]
  · rfl

theorem lowered_of_replay {s : State} {w : SeqId} {r : Replay} (h : (s.seq w).bundle.replay = some r) : s.lowered w = s := by
  unfold State.lowered
  rw [toLower_of_replay h]

theorem nextOf_ok {lit : Option (BitVec 24)} {x : BitVec 32} {i : Instr} (h : decode lit x = .ok i) : nextOf lit x = .instr i := by
  unfold nextOf
  rw [h]

/-! ### What stands next for a sequencer -/

theorem nextSlot_of_code {s : State} {w : SeqId} {v : Variant} {x : BitVec 32} {i : Instr} (hi : s.issues w = true)
    (hr : (s.seq w).bundle.replay = none) (hv : (s.seq w).code.bind s.variantOf = some v)
    (hx : v.code[(s.seq w).before.vpc.toNat / 4 + (s.seq w).bundle.pos]? = some x)
    (hd : decode (s.seq w).bundle.lit x = .ok i) : s.nextSlot w = .instr i := by
  unfold State.nextSlot
  simp only [hi, hr, hv, hx, nextOf_ok hd, Bool.not_true, Bool.false_eq_true, if_false]

theorem nextSlot_of_replay {s : State} {w : SeqId} {r : Replay} {e : ReplayEntry} {rest : List ReplayEntry} {i : Instr}
    (hi : s.issues w = true) (hr : (s.seq w).bundle.replay = some r) (he : r.entries = e :: rest)
    (hd : decode e.lit e.word = .ok i) : s.nextSlot w = .instr i := by
  unfold State.nextSlot
  simp only [hi, hr, he, nextOf_ok hd, Bool.not_true, Bool.false_eq_true, if_false]

theorem nextSlot_of_silent {s : State} {w : SeqId} (h : s.issues w = false) : s.nextSlot w = .idle := by
  unfold State.nextSlot
  simp [h]

/-! ### What the sequencer in focus does -/

theorem runFocus_instr {s : State} {i : Instr} (hw : s.wordsLost s.focus = none) (hn : s.nextSlot s.focus = .instr i) :
    runFocus s = exec i (s.lowered s.focus) := by
  unfold runFocus
  rw [hw, hn]

theorem runFocus_silent {s : State} (h : s.issues s.focus = false) : runFocus s = .next (s.retryFrame s.focus) := by
  unfold runFocus
  rw [wordsLost_of_not fun hi => Bool.noConfusion (hi.symm.trans h), nextSlot_of_silent h]

/-- Nothing is tried again but a trap frame (R285). -/
theorem retryFrame_of_not {s : State} {w : SeqId} (h : ∀ p, (s.seq w).wait = some p → p.kind ≠ .frame) : s.retryFrame w = s := by
  unfold State.retryFrame
  dsimp only
  split
  · next p hp => rw [if_pos (by simp [h p hp])]
  · rfl

theorem retryFrame_of_wait {s : State} {w : SeqId} {p : Wait} (hp : (s.seq w).wait = some p) (hk : p.kind = .frame)
    (hi : (s.core w.core).issuing = some w.group) (hs : s.sirxon.stopped = false) :
    (∀ d, (s.seq w).bundle.pendingTrap = some d → s.retryFrame w = s.takeTrap w d) ∧
      ((s.seq w).bundle.pendingTrap = none → s.retryFrame w = s.trapReturn w) := by
  refine ⟨fun d hd => ?_, fun hd => ?_⟩
  · simp [State.retryFrame, hp, hk, hi, hs, hd]
  · simp [State.retryFrame, hp, hk, hi, hs, hd]

theorem issues_of_wait {s : State} {w : SeqId} {p : Wait} (hp : (s.seq w).wait = some p) : s.issues w = false := by
  unfold State.issues
  simp [hp]

theorem step_free {s : State} (h : s.agenda = []) : step s = tickOutcome (runFocus s) := by
  unfold step
  rw [h]

theorem step_agenda {s : State} {a : Action} {rest : List Action} (h : s.agenda = a :: rest) :
    step s = act a { s with agenda := rest } := by
  unfold step
  rw [h]

end Sys2Proof.Machine

namespace Sys2Proof

open Machine

/-- Settles O44: a sequencer in focus runs what stands next for it, or tries for its trap frame again; an agenda's head acts. -/
theorem stepRunsTheDecodedSlot : Obligations.StepRunsTheDecodedSlot := by
  intro s
  refine ⟨?_, ?_, ?_, ?_, ?_, ?_, ?_⟩
  · intro v x i ha hi hw hr hv hx hd
    rw [step_free ha, runFocus_instr hw (nextSlot_of_code hi hr hv hx hd)]
  · intro r e rest i ha hi hr he hd
    rw [step_free ha, runFocus_instr (wordsLost_of_not fun _ => congrArg Option.isNone hr) (nextSlot_of_replay hi hr he hd),
      lowered_of_replay hr]
  · intro ha hi hk
    rw [step_free ha, runFocus_silent hi, retryFrame_of_not hk]
    rfl
  · intro p ha hp hk hi hs
    obtain ⟨htrap, hret⟩ := retryFrame_of_wait hp hk hi hs
    rw [step_free ha, runFocus_silent (issues_of_wait hp)]
    exact ⟨fun d hd => by rw [htrap d hd]; rfl, fun hd => by rw [hret hd]; rfl⟩
  · intro i rest ha
    rw [step_agenda ha]
    rfl
  · intro c g rest v x i ha hg t hi hw hr hv hx hd
    have hf : State.focusOn { s with agenda := rest } c = t := by
      unfold State.focusOn
      simp only [State.core] at hg ⊢
      rw [hg]
    rw [step_agenda ha, act, hf, runFocus_instr hw (nextSlot_of_code hi hr hv hx hd)]
  · intro cycles ns rest ha fresh
    rw [step_agenda ha]
    rfl

end Sys2Proof
end

section
/-! PROOF. The part at power-up (O60). -/

namespace Sys2Proof

open Machine

theorem Machine.State.reset_seq (who : SeqId) : State.reset.seq who = {} := by
  show Core.seq {} who.group = {}
  unfold Core.seq
  split <;> rfl

/-- Settles O60: no part has been put into the empty tables of reset, so each reads as its default. -/
theorem resetIsAtPowerUp : Obligations.ResetIsAtPowerUp := by
  unfold Obligations.ResetIsAtPowerUp
  intro s
  refine ⟨?_, fun k b => ?_, rfl, rfl, rfl, rfl, rfl, fun i => ⟨?_, rfl, rfl, rfl, fun _ => rfl, fun _ => rfl⟩⟩
  · intro who q
    have hq : q = {} := State.reset_seq who
    rw [hq]
    refine ⟨rfl, rfl, rfl, rfl, rfl, rfl, fun n => ?_, fun n => ?_, fun n => ?_, rfl, rfl, rfl, rfl, rfl⟩
    · unfold Regs.getX
      split <;> simp
    · simp [Regs.getV]
    · simp [Regs.getP]
  · show ((Vector.replicate 64 ({} : Bin))[b]).state = .spare
    simp
  · show ((Vector.replicate 64 ({} : HostQueue))[i]).en = false
    simp

end Sys2Proof
end

section
/-! PROOF. The layout of the trap frame (O55): a frame, and each of its entries, is 32 words before 256-byte vectors (R213 to R215). -/

namespace Sys2Proof.Machine

/-! ### Words and vectors as bytes -/

theorem length_leBytes (n v : Nat) : (leBytes n v).length = n := by
  induction n generalizing v with
  | zero => rfl
  | succ n ih => rw [leBytes, List.length_cons, ih]

theorem fromLe_leBytes (n v : Nat) : fromLe (leBytes n v) = v % 2 ^ (8 * n) := by
  induction n generalizing v with
  | zero => rw [leBytes, fromLe, Nat.mul_zero, Nat.pow_zero, Nat.mod_one]
  | succ n ih =>
    rw [leBytes, fromLe, ih, BitVec.toNat_ofNat, Nat.mul_succ, Nat.add_comm (8 * n), Nat.pow_add, Nat.mod_mul]

/-- A word of n bytes reads back from them. -/
theorem ofNat_fromLe_leBytes {n : Nat} (v : BitVec (8 * n)) : BitVec.ofNat (8 * n) (fromLe (leBytes n v.toNat)) = v := by
  rw [fromLe_leBytes, Nat.mod_eq_of_lt v.isLt, BitVec.ofNat_toNat, BitVec.setWidth_eq]

theorem leBytes_eq_map (n v : Nat) : leBytes n v = (List.range n).map fun i => BitVec.ofNat 8 (v >>> (8 * i)) := by
  induction n generalizing v with
  | zero => rfl
  | succ n ih =>
    have hs (i : Nat) : v >>> (8 * (i + 1)) = (v / 256) >>> (8 * i) := by
      rw [Nat.mul_succ, Nat.add_comm, Nat.shiftRight_add, Nat.shiftRight_eq_div_pow v 8]
    rw [leBytes, ih, List.range_succ_eq_map, List.map_cons, List.map_map]
    simp only [Function.comp_def, hs]
    rfl

theorem vecBytes_eq_leBytes (v : Vec) : vecBytes v = leBytes 256 v.toNat := (leBytes_eq_map 256 v.toNat).symm

theorem wordOf_wordBytes (w : Word) : wordOf (wordBytes w) = w := ofNat_fromLe_leBytes (n := 8) w

theorem vecOf_vecBytes (v : Vec) : vecOf (vecBytes v) = v := by
  rw [vecBytes_eq_leBytes]
  exact ofNat_fromLe_leBytes (n := 256) v

theorem length_wordBytes (w : Word) : (wordBytes w).length = 8 := length_leBytes _ _
theorem length_vecBytes (v : Vec) : (vecBytes v).length = 256 := by rw [vecBytes_eq_leBytes, length_leBytes]

/-! ### Equal pieces laid end to end -/

/-- Past its first pieces, a run of pieces of one length goes on with the next piece. -/
theorem drop_flatMap {α : Type} {f : α → List Byte} {k : Nat} (hk : ∀ a, (f a).length = k) {l : List α} {i : Nat} {a : α}
    (h : l[i]? = some a) (rest : List Byte) : ∃ more, (l.flatMap f ++ rest).drop (k * i) = f a ++ more := by
  induction l generalizing i with
  | nil => cases h
  | cons x t ih =>
    cases i with
    | zero =>
      cases h
      exact ⟨t.flatMap f ++ rest, by simp⟩
    | succ i =>
      obtain ⟨more, hm⟩ := ih (i := i) h
      refine ⟨more, ?_⟩
      rw [← hm, List.flatMap_cons, List.append_assoc, Nat.mul_succ, Nat.add_comm, ← hk x, List.drop_length_add_append]

theorem length_flatMap_const {α : Type} {f : α → List Byte} {k : Nat} (hk : ∀ a, (f a).length = k) (l : List α) :
    (l.flatMap f).length = k * l.length := by
  induction l with
  | nil => rfl
  | cons a t ih => rw [List.flatMap_cons, List.length_append, hk, ih, List.length_cons, Nat.mul_succ, Nat.add_comm]

theorem zeros_eq_words (n : Nat) : zeros (8 * n) = (List.replicate n (0 : Word)).flatMap wordBytes := by
  induction n with
  | zero => rfl
  | succ n ih =>
    rw [List.replicate_succ, List.flatMap_cons, ← ih, Nat.mul_succ, Nat.add_comm]
    exact List.replicate_append_replicate.symm

/-- Words before vectors. -/
def wordsThenVecs (ws : List Word) (vs : List Vec) : List Byte := ws.flatMap wordBytes ++ vs.flatMap vecBytes

theorem length_wordsThenVecs (ws : List Word) (vs : List Vec) :
    (wordsThenVecs ws vs).length = 8 * ws.length + 256 * vs.length := by
  rw [wordsThenVecs, List.length_append, length_flatMap_const length_wordBytes, length_flatMap_const length_vecBytes]

theorem wordAt_wordsThenVecs {ws : List Word} {i : Nat} {w : Word} (h : ws[i]? = some w) (vs : List Vec) (rest : List Byte) :
    wordAt (wordsThenVecs ws vs ++ rest) (8 * i) = w := by
  obtain ⟨more, hm⟩ := drop_flatMap length_wordBytes h (vs.flatMap vecBytes ++ rest)
  rw [wordAt, wordsThenVecs, List.append_assoc, hm, ← length_wordBytes w, List.take_left, wordOf_wordBytes]

theorem vecAt_wordsThenVecs {vs : List Vec} {i : Nat} {v : Vec} (h : vs[i]? = some v) (ws : List Word) (rest : List Byte) :
    vecOf (((wordsThenVecs ws vs ++ rest).drop (8 * ws.length + 256 * i)).take 256) = v := by
  obtain ⟨more, hm⟩ := drop_flatMap length_vecBytes h rest
  rw [wordsThenVecs, List.append_assoc, ← length_flatMap_const length_wordBytes, List.drop_length_add_append, hm,
    ← length_vecBytes v, List.take_left, vecOf_vecBytes]

/-! ### A replay entry (R215) -/

/-- The 32 words of an entry, HDR and address first and the rest zero, and its three operands. -/
def ReplayEntry.wordList (e : ReplayEntry) : List Word := [e.word0, e.word1, e.addr] ++ List.replicate 29 0
def ReplayEntry.vecList (e : ReplayEntry) : List Vec := [e.opa, e.opb, e.third]

theorem ReplayEntry.bytes_eq (e : ReplayEntry) : e.bytes = wordsThenVecs e.wordList e.vecList := by
  have hz : zeros 232 = (List.replicate 29 (0 : Word)).flatMap wordBytes := zeros_eq_words 29
  simp only [ReplayEntry.bytes, wordsThenVecs, ReplayEntry.wordList, ReplayEntry.vecList, hz, List.flatMap_append, List.flatMap_cons,
    List.flatMap_nil, List.append_nil, List.append_assoc]

theorem ReplayEntry.length_bytes (e : ReplayEntry) : e.bytes.length = 1024 := by
  rw [e.bytes_eq, length_wordsThenVecs]
  simp [ReplayEntry.wordList, ReplayEntry.vecList]

theorem ReplayEntry.state_word0 (e : ReplayEntry) : e.word0.extractLsb' 24 2 = e.state := by
  apply BitVec.eq_of_toNat_eq
  have hs := e.state.isLt
  have hx := e.xcpt.isLt
  have hc := e.cause.isLt
  simp only [ReplayEntry.word0, BitVec.extractLsb'_toNat, append_toNat, Nat.shiftRight_eq_div_pow, BitVec.toNat_ofNat]
  omega

/-! ### The frame (R213, R214) -/

/-- A loop stack as twelve words: two of each level, the outermost first, zero past the depth (R14). -/
def loopWords (ls : List LoopEntry) : List Word :=
  (List.range 6).flatMap fun i => [(ls.getD i {}).count ++ (ls.getD i {}).index, (ls.getD i {}).endV ++ (ls.getD i {}).start]

theorem loopBytes_eq (ls : List LoopEntry) : loopBytes ls = (loopWords ls).flatMap wordBytes := by
  rw [loopBytes, loopWords, List.flatMap_assoc]
  refine congrArg (List.flatMap · (List.range 6)) (funext fun i => ?_)
  by_cases hi : i < ls.length
  · simp [hi, LoopEntry.words]
  · simp [hi]

/-- The 32 words of a frame: HDR0 to HDR5, the loop entries, and the 64-bit latches, with zero between. -/
def Frame.wordList (f : Frame) : List Word :=
  [f.vpc ++ f.slot ++ 0#1 ++ BitVec.ofNat 4 f.entries.length ++ 0#14 ++ f.cause, f.stamp, f.addr, f.detail.setWidth 64,
    f.resume ++ f.lpc, BitVec.ofNat 64 f.regs.loops.length] ++ List.replicate 2 (0 : Word) ++ loopWords f.regs.loops ++
    [f.regs.lx[0], f.regs.lx[1], f.regs.lg[0], f.regs.lg[1], f.regs.lk, f.regs.ly] ++ List.replicate 6 (0 : Word)
/-- The 12 vectors of a frame: the V and M latches and the six held operands. -/
def Frame.vecList (f : Frame) : List Vec :=
  [f.regs.lv[0], f.regs.lv[1], f.regs.lv[2], f.regs.lv[3], f.regs.lm[0], f.regs.lm[1]] ++ f.regs.held.toList

theorem Frame.bytes_eq (f : Frame) : f.bytes =
    wordsThenVecs f.wordList f.vecList ++ (f.entries.flatMap ReplayEntry.bytes ++ zeros (1024 * (6 - f.entries.length))) := by
  have h2 : zeros 16 = (List.replicate 2 (0 : Word)).flatMap wordBytes := zeros_eq_words 2
  have h6 : zeros 48 = (List.replicate 6 (0 : Word)).flatMap wordBytes := zeros_eq_words 6
  unfold Frame.bytes
  dsimp only
  rw [h2, h6, loopBytes_eq]
  unfold wordsThenVecs Frame.wordList Frame.vecList
  simp only [List.flatMap_append, List.flatMap_cons, List.flatMap_nil, List.append_nil, List.append_assoc]

theorem Frame.length_wordList (f : Frame) : f.wordList.length = 32 := rfl
theorem Frame.length_vecList (f : Frame) : f.vecList.length = 12 := by simp [Frame.vecList]

theorem Frame.length_bytes (f : Frame) (h : f.entries.length ≤ 6) : f.bytes.length = 0x2500 := by
  rw [f.bytes_eq, List.length_append, List.length_append, length_wordsThenVecs, length_flatMap_const ReplayEntry.length_bytes,
    f.length_wordList, f.length_vecList, zeros, List.length_replicate]
  omega

theorem Frame.wordAt_bytes (f : Frame) {i : Nat} {w : Word} (h : f.wordList[i]? = some w) : wordAt f.bytes (8 * i) = w := by
  rw [f.bytes_eq, wordAt_wordsThenVecs h]

theorem Frame.vecAt_bytes (f : Frame) {i : Nat} {v : Vec} (h : f.vecList[i]? = some v) :
    vecOf ((f.bytes.drop (0x100 + 256 * i)).take 256) = v := by
  have hv := vecAt_wordsThenVecs h f.wordList (f.entries.flatMap ReplayEntry.bytes ++ zeros (1024 * (6 - f.entries.length)))
  rwa [f.length_wordList, ← f.bytes_eq] at hv

theorem Frame.wordList_loop (f : Frame) {i : Nat} (hi : i < 6) :
    f.wordList[8 + 2 * i]? = some ((f.regs.loops.getD i {}).count ++ (f.regs.loops.getD i {}).index) ∧
      f.wordList[9 + 2 * i]? = some ((f.regs.loops.getD i {}).endV ++ (f.regs.loops.getD i {}).start) := by
  match i, hi with
  | 0, _ | 1, _ | 2, _ | 3, _ | 4, _ | 5, _ => exact ⟨rfl, rfl⟩

theorem Frame.vecList_lv (f : Frame) (i : Fin 4) : f.vecList[i.val]? = some f.regs.lv[i] := by
  match i with
  | 0 | 1 | 2 | 3 => rfl
theorem Frame.vecList_lm (f : Frame) (i : Fin 2) : f.vecList[4 + i.val]? = some f.regs.lm[i] := by
  match i with
  | 0 | 1 => rfl
theorem Frame.vecList_held (f : Frame) (i : Fin 6) : f.vecList[6 + i.val]? = some f.regs.held[i] := by
  rw [Frame.vecList, List.getElem?_append_right (Nat.le_add_right 6 i.val)]
  simp

/-- From the place of an entry on the frame holds the entry's bytes. -/
theorem Frame.drop_bytes (f : Frame) {i : Nat} {e : ReplayEntry} (h : f.entries[i]? = some e) :
    ∃ more, f.bytes.drop (0x0D00 + 1024 * i) = wordsThenVecs e.wordList e.vecList ++ more := by
  obtain ⟨more, hm⟩ := drop_flatMap ReplayEntry.length_bytes h (zeros (1024 * (6 - f.entries.length)))
  have hl : (wordsThenVecs f.wordList f.vecList).length = 0x0D00 := by
    rw [length_wordsThenVecs, f.length_wordList, f.length_vecList]
  exact ⟨more, by rw [f.bytes_eq, ← hl, List.drop_length_add_append, hm, e.bytes_eq]⟩

theorem Frame.entry_wordAt (f : Frame) {i j : Nat} {e : ReplayEntry} {w : Word} (h : f.entries[i]? = some e)
    (hw : e.wordList[j]? = some w) : wordAt f.bytes (0x0D00 + 1024 * i + 8 * j) = w := by
  obtain ⟨more, hm⟩ := f.drop_bytes h
  rw [← wordAt_wordsThenVecs hw e.vecList more, ← hm, wordAt, wordAt, List.drop_drop]

theorem Frame.entry_vecAt (f : Frame) {i j : Nat} {e : ReplayEntry} {v : Vec} (h : f.entries[i]? = some e)
    (hv : e.vecList[j]? = some v) : vecOf ((f.bytes.drop (0x0D00 + 1024 * i + (0x100 + 256 * j))).take 256) = v := by
  obtain ⟨more, hm⟩ := f.drop_bytes h
  rw [← List.drop_drop, hm]
  exact vecAt_wordsThenVecs hv e.wordList more

end Sys2Proof.Machine

namespace Sys2Proof

open Machine

/-- Settles O55: a frame is its words, its vectors and its entries laid end to end, each piece at the sum of the lengths before it. -/
theorem framesHaveTheirLayout : Obligations.FramesHaveTheirLayout := by
  intro f hf b
  refine ⟨f.length_bytes hf, f.wordAt_bytes (i := 0) rfl, f.wordAt_bytes (i := 1) rfl, f.wordAt_bytes (i := 2) rfl,
    f.wordAt_bytes (i := 3) rfl, f.wordAt_bytes (i := 4) rfl, f.wordAt_bytes (i := 5) rfl, ?_, f.wordAt_bytes (i := 20) rfl,
    f.wordAt_bytes (i := 21) rfl, f.wordAt_bytes (i := 22) rfl, f.wordAt_bytes (i := 23) rfl, f.wordAt_bytes (i := 24) rfl,
    f.wordAt_bytes (i := 25) rfl, fun i => f.vecAt_bytes (f.vecList_lv i), fun i => ?_, fun e => ?_,
    fun i e he => ⟨?_, ?_, ?_, ?_, ?_⟩⟩
  · rintro i hi e rfl
    obtain ⟨hlo, hhi⟩ := f.wordList_loop hi
    rw [show 0x40 + 16 * i = 8 * (8 + 2 * i) by omega, show 0x48 + 16 * i = 8 * (9 + 2 * i) by omega]
    exact ⟨f.wordAt_bytes hlo, f.wordAt_bytes hhi⟩
  · rw [show 0x500 + 256 * i.val = 0x100 + 256 * (4 + i.val) by omega]
    exact f.vecAt_bytes (f.vecList_lm i)
  · rw [show 0x700 + 256 * e.idx.val = 0x100 + 256 * (6 + e.idx.val) by omega]
    exact f.vecAt_bytes (f.vecList_held e.idx)
  · exact f.entry_vecAt (j := 0) he rfl
  · exact f.entry_vecAt (j := 1) he rfl
  · exact f.entry_vecAt (j := 2) he rfl
  · exact (congrArg (BitVec.extractLsb' 24 2) (f.entry_wordAt (j := 0) he rfl)).trans e.state_word0
  · exact f.entry_wordAt (j := 2) he rfl

end Sys2Proof
end

section
/-! PROOF. Entering trap service (O54): a task preloaded in the other group goes back, and the other group starts in service (R25,
R211, R330). -/

namespace Sys2Proof.Machine

open Statements

/-! ### A preloaded task goes back (R25) -/

/-- What sending a preloaded task back leaves as it was: a group that is not ready, and the byte memories. -/
structure GroupStays (who : SeqId) (s t : State) : Prop where
  seq : t.seq who = s.seq who
  dram : t.dram = s.dram
  hostMem : t.hostMem = s.hostMem

/-- A group of the task that has not issued is emptied. -/
def Seq.sentBack (t : TaskRef) (q : Seq) : Seq :=
  match q.task with
  | some u => if u.die = t.die && u.serial = t.serial && q.phase = .ready then q.emptied else q
  | none => q

theorem Seq.sentBack_of_not {t : TaskRef} {q : Seq} (h : q.phase ≠ .ready) : q.sentBack t = q := by
  unfold Seq.sentBack
  split
  · rw [if_neg (by simp [h])]
  · rfl

def State.sendBack (t : TaskRef) (s : State) (c : Fin 512) : State :=
  s.setCore c { s.core c with g0 := (s.core c).g0.sentBack t, g1 := (s.core c).g1.sentBack t }

theorem State.seq_sendBack (t : TaskRef) (s : State) (c : Fin 512) (w : SeqId) :
    (s.sendBack t c).seq w = if w.core = c then (s.seq w).sentBack t else s.seq w := by
  unfold State.sendBack State.seq
  rw [State.core_setCore]
  by_cases hc : w.core = c
  · subst hc
    rw [if_pos rfl, if_pos rfl, Core.seq, Core.seq]
    split <;> rfl
  · rw [if_neg hc, if_neg (fun h => hc (Fin.ext h))]

theorem State.sendBack_groupStays {who : SeqId} {s u : State} (t : TaskRef) (c : Fin 512) (hp : (s.seq who).phase ≠ .ready)
    (h : GroupStays who s u) : GroupStays who s (u.sendBack t c) := by
  refine ⟨?_, h.dram, h.hostMem⟩
  rw [State.seq_sendBack, h.seq]
  split
  · exact Seq.sentBack_of_not hp
  · rfl

theorem State.unplace_eq (s : State) (t : TaskRef) : s.unplace t = match s.entry t.die t.serial with
    | none => s
    | some e => (e.cores.foldl (State.sendBack t) s).modEntry t.die t.serial fun e => { e with status := .waiting } := rfl

theorem State.unplace_groupStays {who : SeqId} {s : State} (t : TaskRef) (hp : (s.seq who).phase ≠ .ready) :
    GroupStays who s (s.unplace t) := by
  rw [State.unplace_eq]
  split
  · exact ⟨rfl, rfl, rfl⟩
  · next e he =>
    have h : GroupStays who s (e.cores.foldl (State.sendBack t) s) :=
      List.foldlRecOn e.cores (State.sendBack t) ⟨rfl, rfl, rfl⟩ fun u hu c _ => State.sendBack_groupStays t c hp hu
    exact ⟨h.seq, h.dram, h.hostMem⟩

/-- The task that waits preloaded in a group, if one does, goes back. -/
def State.unplaceReady (s : State) (o : SeqId) : State :=
  match (s.seq o).phase, (s.seq o).task with
  | .ready, some u => s.unplace u
  | _, _ => s

theorem State.unplaceReady_groupStays {who : SeqId} {s : State} (o : SeqId) (hp : (s.seq who).phase ≠ .ready) :
    GroupStays who s (s.unplaceReady o) := by
  unfold State.unplaceReady
  split
  · exact State.unplace_groupStays _ hp
  · exact ⟨rfl, rfl, rfl⟩

/-! ### The other group enters service (R211) -/

/-- The trapped group at its trapping bundle again. -/
def Seq.trapped (q : Seq) (vpc : BitVec 32) : Seq :=
  { q with before := { q.now with vpc := vpc }, now := { q.now with vpc := vpc }, wait := none,
           bundle := { scope := q.bundle.scope, issued := q.bundle.issued, raised := q.bundle.raised, mwsl := q.bundle.mwsl } }

/-- The other group at its first bundle in trap service. -/
def Seq.serving (so q : Seq) (t : TaskRef) (cause : Cause) : Seq :=
  { so.joinTime q with before := serviceRegs t.ctx cause, now := serviceRegs t.ctx cause, bundle := {}, phase := .service, task := some t,
                       code := some { die := t.die, slot := none, kernel := 0 }, wait := none }

/-- The core once its frame is written: it issues from the other group. -/
def State.enterService (s : State) (w : SeqId) (t : TaskRef) (d : TrapData) (f : Frame) : State :=
  let k := ((s.core w.core).setSeq w.group ((s.seq w).trapped d.vpc)).setSeq (otherOf w).group
    ((s.seq (otherOf w)).serving (s.seq w) t d.point.cause)
  { s.setCore w.core { k with frame := some f, issuing := some (otherOf w).group } with focus := otherOf w }

theorem takeTrap_served {s s1 : State} {who : SeqId} {t : TaskRef} {d : TrapData} (hp : (s.seq who).phase = .running)
    (ht : (s.seq who).task = some t) (hs : (s.die t.die).service ≠ none)
    (hw : (writeGlobal (.seq who) .core 0 t.ctx.toNat (frameOf (s.seq who) who d).bytes).on s = (.ok (), s1)) :
    s.takeTrap who d = (s1.unplaceReady (otherOf who)).enterService who t d (frameOf (s.seq who) who d) := by
  obtain ⟨v, hv⟩ := Option.ne_none_iff_exists'.1 hs
  unfold frameOf at hw
  unfold State.takeTrap
  simp only [hp, ht, hv, hw]
  rfl

theorem otherOf_ne (w : SeqId) : w ≠ otherOf w := by
  have hg : ∀ g : Fin 2, g ≠ 1 - g := by decide
  exact fun h => hg w.group (congrArg SeqId.group h)

theorem State.core_enterService (s : State) (w : SeqId) (t : TaskRef) (d : TrapData) (f : Frame) :
    (s.enterService w t d f).core w.core =
      { ((s.core w.core).setSeq w.group ((s.seq w).trapped d.vpc)).setSeq (otherOf w).group
          ((s.seq (otherOf w)).serving (s.seq w) t d.point.cause) with frame := some f, issuing := some (otherOf w).group } :=
  State.core_setCore_same ..

theorem State.seq_enterService_other (s : State) (w : SeqId) (t : TaskRef) (d : TrapData) (f : Frame) :
    (s.enterService w t d f).seq (otherOf w) = (s.seq (otherOf w)).serving (s.seq w) t d.point.cause := by
  show ((s.enterService w t d f).core w.core).seq (otherOf w).group = _
  rw [State.core_enterService]
  exact Core.seq_setSeq_same ..

theorem State.seq_enterService_same (s : State) (w : SeqId) (t : TaskRef) (d : TrapData) (f : Frame) :
    (s.enterService w t d f).seq w = (s.seq w).trapped d.vpc := by
  have hg : w.group ≠ (otherOf w).group := fun h => otherOf_ne w (congrArg (SeqId.mk w.core) h)
  rw [State.seq, State.core_enterService]
  exact (Core.seq_setSeq ..).trans ((if_neg hg).trans (Core.seq_setSeq_same ..))

theorem serviceRegs_getX (frame : Word) (cause : Cause) (n : BitVec 5) :
    (serviceRegs frame cause).getX n = if n = 2 then cause.setWidth 64 else if n = 1 then frame else 0 := by
  have h0 : ({} : Regs).getX n = 0 := by
    unfold Regs.getX
    split <;> simp
  simp only [serviceRegs, Regs.getX_setX, h0, ne_eq, show ¬(2 : BitVec 5) = 0 by decide, show ¬(1 : BitVec 5) = 0 by decide,
    not_false_eq_true, and_true]

theorem Seq.serving_atService (so q : Seq) (t : TaskRef) (cause : Cause) : AtService (so.serving q t cause) t cause := by
  have hx (n : BitVec 5) := serviceRegs_getX t.ctx cause n
  refine ⟨rfl, rfl, rfl, rfl, rfl, rfl, rfl, rfl, hx 1, hx 2, fun n h1 h2 => ?_, rfl, rfl, rfl, rfl, rfl, rfl, rfl⟩
  exact (hx n).trans (by rw [if_neg h2, if_neg h1])

end Sys2Proof.Machine

namespace Sys2Proof

open Machine

/-- Settles O54: once the frame is written and a task preloaded in the other group has gone back, the core is State.enterService's. -/
theorem trapsEnterService : Obligations.TrapsEnterService := by
  intro s s1 who t d hp ht hs hw h1 u o
  obtain ⟨hseq, hdram, hhost⟩ := State.unplaceReady_groupStays (who := who) (s := s1) o (by rw [h1]; nofun)
  have hu : u = (s1.unplaceReady o).enterService who t d _ := takeTrap_served hp ht hs hw
  have hwho : u.seq who = (s1.seq who).trapped d.vpc := by rw [hu, State.seq_enterService_same, hseq]
  have hother : u.seq o = ((s1.unplaceReady o).seq o).serving (s1.seq who) t d.point.cause := by
    rw [hu, State.seq_enterService_other, hseq]
  have hcore : u.core who.core = _ := (congrArg (State.core · who.core) hu).trans (State.core_enterService ..)
  rw [hwho, hother]
  refine ⟨?_, ?_, ?_, Seq.serving_atService .., h1, rfl, rfl, rfl, rfl, Nat.le_max_right .., ?_, ?_⟩
  · rw [hu]; rfl
  · rw [hcore]
  · rw [hcore]
  · rw [hu]; exact hdram
  · rw [hu]; exact hhost

end Sys2Proof
end

section
/-! PROOF. The frame of CSRR (O49): a CSRR of sr.peer whose selection names nothing raises 0x04A (R216), and with S = 1 its bundle then
takes the trap (R211), which moves more than its sequencer. -/

namespace Sys2Proof.Machine

open Statements

/-- CSRR x3, sr.peer with S = 1. -/
def readPeer : Slot := { stop := true, n := false, h := false, d := 3, a := 0, b := 1, f := 18 }

/-- Group 0 of core 0 in trap service, with CLASS 7 in sr.peer.sel, which selects nothing (R216). -/
def selectsNothing : State :=
  State.reset.setSeq ⟨0, 0⟩
    { phase := .service, before := { peerSel := 0x70000 },
      task := some { die := 0, serial := 0, rank := 0, size := 1, ctx := 0, long := false, args := 0 } }

/-- Its trap in trap service is a double fault: the service group is left, and the other group comes into focus (R212). -/
theorem readPeer_leavesService : ∃ t, exec (.csrr readPeer) selectsNothing = .next t ∧ t.focus = ⟨0, 1⟩ := by
  have h : (match exec (.csrr readPeer) selectsNothing with
      | .next t => decide (t.focus = ⟨0, 1⟩)
      | _ => false) = true := by decide +kernel
  split at h
  · next t ht => exact ⟨t, ht, of_decide_eq_true h⟩
  · cases h

theorem readPeer_plain : Plain 0x1C readPeer selectsNothing :=
  ⟨rfl, rfl, fun _ => ⟨rfl, rfl⟩, fun fm h => by cases h; rfl⟩

end Sys2Proof.Machine

namespace Sys2Proof

open Machine Statements

/-- A slot that framed its sequencer alone would keep the focus. -/
theorem not_frames_csrr : ¬ Frames .csrr 0x1C .x XResult := by
  intro h
  obtain ⟨t, ht, hf⟩ := readPeer_leavesService
  obtain ⟨p, rfl, -⟩ := h selectsNothing t readPeer readPeer_plain rfl ht
  exact absurd (congrArg SeqId.group hf) (show (0 : Fin 2) ≠ 1 by decide)

/-- Refutes O49: its clause Frames for CSRR asks for no condition on sr.peer.sel, and a CSRR of sr.peer that selects nothing ends its
bundle in a trap, which leaves trap service and moves the focus to the other group. -/
theorem not_registerSlotsChangeTheirRegister : ¬ Obligations.RegisterSlotsChangeTheirRegister := by
  rintro ⟨-, ⟨hcsrr, -⟩, -⟩
  exact not_frames_csrr hcsrr

end Sys2Proof
end

section
/-! PROOF. The decoder and the encoder agree (O41, O42): for each of the four prefixes (R60 to R65), and for the engine slots row by
row (R52, R69); the words that the spec prints (O43). -/

namespace Sys2Proof

/-! ### The fields of a word -/

theorem ofBool_getLsbD (w : BitVec 32) (i : Nat) : BitVec.ofBool (w.getLsbD i) = w.extractLsb' i 1 := by
  apply BitVec.eq_of_getLsbD_eq
  intro j hj
  obtain rfl : j = 0 := by omega
  simp

/-- The fields of an engine slot are the whole word but for its opcode (R52): Slot.ofWord_word's other direction. -/
theorem Slot.word_ofWord (w : BitVec 32) : (Slot.ofWord w).word (w.extractLsb' 24 7) = w := by
  simp only [Slot.word, Slot.ofWord, ofBool_getLsbD, BitVec.extractLsb'_append_extractLsb'_eq_extractLsb',
    BitVec.extractLsb'_eq_self]

/-- Where S is 0, the first byte of a word is its opcode: LIT, GUARD and SCOPE (R60). -/
theorem extract_byte_of_stop {w : BitVec 32} {op : BitVec 7} (ho : w.extractLsb' 24 7 = op) (hs : w.getLsbD 31 = false) :
    w.extractLsb' 24 8 = 0#1 ++ op := by
  have h : w.extractLsb' 31 1 ++ w.extractLsb' 24 7 = w.extractLsb' 24 8 :=
    BitVec.extractLsb'_append_extractLsb'_eq_extractLsb' rfl
  rw [← h, ← ofBool_getLsbD, hs, ho]
  rfl

/-! ### Prefixes -/

/-- A word passes a check, and then what follows it, or is refused. -/
theorem checked_eq_ok {c : Prop} [Decidable c] {e : Reject} {r : Except Reject Instr} {i : Instr} :
    (if c then .error e else r) = .ok i ↔ ¬c ∧ r = .ok i := by
  split
  next hc => exact ⟨nofun, fun h => absurd hc h.1⟩
  next hc => exact ⟨fun h => ⟨hc, h⟩, fun h => h.2⟩

theorem decodePrefix_nop_iff (w : BitVec 32) (i : Instr) :
    decodePrefix 0 w = .ok i ↔ w.extractLsb' 0 24 = 0 ∧ .nop (w.getLsbD 31) = i := by
  simp only [decodePrefix]
  split
  next hz => exact ⟨fun h => ⟨hz, Except.ok.inj h⟩, fun h => congrArg Except.ok h.2⟩
  next hz => exact ⟨nofun, fun h => absurd h.1 hz⟩

theorem decodePrefix_lit_iff (w : BitVec 32) (i : Instr) :
    decodePrefix 1 w = .ok i ↔ w.getLsbD 31 = false ∧ .lit (w.extractLsb' 0 24) = i := by
  simp only [decodePrefix, checked_eq_ok, Bool.not_eq_true, Except.ok.injEq]

theorem decodePrefix_guard_iff (w : BitVec 32) (i : Instr) :
    decodePrefix 2 w = .ok i ↔ w.getLsbD 31 = false ∧ w.extractLsb' 8 8 ≠ 0 ∧ (w.getLsbD 23 = false ∧ w.extractLsb' 0 7 = 0) ∧
      .guard (w.extractLsb' 16 7) (w.extractLsb' 8 8) (w.getLsbD 7) = i := by
  simp only [decodePrefix, checked_eq_ok, Bool.not_eq_true, Bool.or_eq_false_iff, decide_eq_false_iff_not, Decidable.not_not,
    Except.ok.injEq, ne_eq]

theorem decodePrefix_scope_iff (w : BitVec 32) (i : Instr) :
    decodePrefix 3 w = .ok i ↔ w.getLsbD 31 = false ∧ (w.extractLsb' 0 5).toNat < 6 ∧ w.extractLsb' 5 19 = 0 ∧
      .scope (w.extractLsb' 0 5) = i := by
  simp only [decodePrefix, checked_eq_ok, Bool.not_eq_true, Nat.not_le, ne_eq, Decidable.not_not, Except.ok.injEq]

theorem decode_prefix (lit : Option (BitVec 24)) {w : BitVec 32} {op : BitVec 7} (ho : w.extractLsb' 24 7 = op)
    (h : op.toNat < 4) : decode lit w = decodePrefix op.toNat w := by
  subst ho
  exact if_pos h

theorem decode_nop (lit : Option (BitVec 24)) (stop : Bool) : decode lit (BitVec.ofBool stop ++ 0#31) = .ok (.nop stop) := by
  cases stop <;> rfl

theorem decode_lit (lit : Option (BitVec 24)) (l : BitVec 24) : decode lit (0x01#8 ++ l) = .ok (.lit l) := by
  have hop : (0x01#8 ++ l : BitVec 32).extractLsb' 24 7 = 1 := BitVec.extractLsb'_append_eq_of_le (by decide)
  have hs : (0x01#8 ++ l : BitVec 32).getLsbD 31 = false := BitVec.getLsbD_append
  have hl : (0x01#8 ++ l : BitVec 32).extractLsb' 0 24 = l := BitVec.extractLsb'_append_eq_right
  exact (decode_prefix lit hop (by decide)).trans ((decodePrefix_lit_iff _ _).2 ⟨hs, congrArg _ hl⟩)

theorem decode_guard (lit : Option (BitVec 24)) (p : BitVec 7) {m : BitVec 8} (o : Bool) (hm : m ≠ 0) :
    decode lit (0x02#8 ++ 0#1 ++ p ++ m ++ BitVec.ofBool o ++ 0#7) = .ok (.guard p m o) := by
  generalize hw : (0x02#8 ++ 0#1 ++ p ++ m ++ BitVec.ofBool o ++ 0#7 : BitVec 32) = w
  have hop : w.extractLsb' 24 7 = 2 := by
    rw [← hw]
    iterate 5 rw [BitVec.extractLsb'_append_eq_of_le (by decide)]
    rfl
  have hs : w.getLsbD 31 = false := by
    rw [← hw]
    iterate 5 rw [BitVec.getLsbD_append, if_neg (by decide)]
    rfl
  have h23 : w.getLsbD 23 = false := by
    rw [← hw]
    iterate 4 rw [BitVec.getLsbD_append, if_neg (by decide)]
    rfl
  have hpred : w.extractLsb' 16 7 = p := by
    rw [← hw]
    iterate 3 rw [BitVec.extractLsb'_append_eq_of_le (by decide)]
    exact BitVec.extractLsb'_append_eq_right
  have hmask : w.extractLsb' 8 8 = m := by
    rw [← hw]
    iterate 2 rw [BitVec.extractLsb'_append_eq_of_le (by decide)]
    exact BitVec.extractLsb'_append_eq_right
  have hpol : w.getLsbD 7 = o := by
    rw [← hw, BitVec.getLsbD_append, if_neg (by decide), BitVec.getLsbD_append, if_pos (by decide)]
    cases o <;> rfl
  have hz : w.extractLsb' 0 7 = 0 := hw ▸ BitVec.extractLsb'_append_eq_right
  refine (decode_prefix lit hop (by decide)).trans ((decodePrefix_guard_iff _ _).2 ⟨hs, ?_, ⟨h23, hz⟩, ?_⟩)
  · rwa [hmask]
  · rw [hpred, hmask, hpol]

theorem decode_scope (lit : Option (BitVec 24)) {c : BitVec 5} (hc : c.toNat < 6) :
    decode lit (0x03#8 ++ 0#19 ++ c) = .ok (.scope c) := by
  have hop : (0x03#8 ++ 0#19 ++ c : BitVec 32).extractLsb' 24 7 = 3 := BitVec.extractLsb'_append_eq_of_le (by decide)
  have hs : (0x03#8 ++ 0#19 ++ c : BitVec 32).getLsbD 31 = false := BitVec.getLsbD_append
  have hz : (0x03#8 ++ 0#19 ++ c : BitVec 32).extractLsb' 5 19 = 0 := BitVec.extractLsb'_append_eq_of_le (by decide)
  have hl : (0x03#8 ++ 0#19 ++ c : BitVec 32).extractLsb' 0 5 = c := BitVec.extractLsb'_append_eq_right
  exact (decode_prefix lit hop (by decide)).trans
    ((decodePrefix_scope_iff _ _).2 ⟨hs, by rwa [hl], hz, congrArg _ hl⟩)

theorem decodePrefix_sound {lit : Option (BitVec 24)} {w : BitVec 32} {i : Instr} (h4 : (w.extractLsb' 24 7).toNat < 4)
    (h : decodePrefix (w.extractLsb' 24 7).toNat w = .ok i) : i.wellFormed lit = true ∧ encode i = [w] := by
  have cut (x : BitVec 32) (hx : x = w) : [x] = [w] := congrArg (fun y => [y]) hx
  have hop : (w.extractLsb' 24 7).toNat = 0 ∨ (w.extractLsb' 24 7).toNat = 1 ∨ (w.extractLsb' 24 7).toNat = 2 ∨
      (w.extractLsb' 24 7).toNat = 3 := by omega
  rcases hop with hn | hn | hn | hn <;> rw [hn] at h
  · have ho : w.extractLsb' 24 7 = 0 := BitVec.eq_of_toNat_eq hn
    obtain ⟨hz, rfl⟩ := (decodePrefix_nop_iff w i).1 h
    have hw : w.extractLsb' 31 1 ++ w.extractLsb' 24 7 ++ w.extractLsb' 0 24 = w := by
      simp only [BitVec.extractLsb'_append_extractLsb'_eq_extractLsb', BitVec.extractLsb'_eq_self]
    rw [ho, hz, ← ofBool_getLsbD] at hw
    refine ⟨rfl, cut _ (Eq.trans ?_ hw)⟩
    cases w.getLsbD 31 <;> rfl
  · have ho : w.extractLsb' 24 7 = 1 := BitVec.eq_of_toNat_eq hn
    obtain ⟨hs, rfl⟩ := (decodePrefix_lit_iff w i).1 h
    have hw : w.extractLsb' 24 8 ++ w.extractLsb' 0 24 = w := by
      simp only [BitVec.extractLsb'_append_extractLsb'_eq_extractLsb', BitVec.extractLsb'_eq_self]
    rw [extract_byte_of_stop ho hs] at hw
    exact ⟨rfl, cut _ hw⟩
  · have ho : w.extractLsb' 24 7 = 2 := BitVec.eq_of_toNat_eq hn
    obtain ⟨hs, hm, ⟨h23, hz⟩, rfl⟩ := (decodePrefix_guard_iff w i).1 h
    have hw : w.extractLsb' 24 8 ++ w.extractLsb' 23 1 ++ w.extractLsb' 16 7 ++ w.extractLsb' 8 8 ++ w.extractLsb' 7 1
        ++ w.extractLsb' 0 7 = w := by
      simp only [BitVec.extractLsb'_append_extractLsb'_eq_extractLsb', BitVec.extractLsb'_eq_self]
    rw [extract_byte_of_stop ho hs, ← ofBool_getLsbD, ← ofBool_getLsbD, h23, hz] at hw
    exact ⟨decide_eq_true hm, cut _ hw⟩
  · have ho : w.extractLsb' 24 7 = 3 := BitVec.eq_of_toNat_eq hn
    obtain ⟨hs, hc, hz, rfl⟩ := (decodePrefix_scope_iff w i).1 h
    have hw : w.extractLsb' 24 8 ++ w.extractLsb' 5 19 ++ w.extractLsb' 0 5 = w := by
      simp only [BitVec.extractLsb'_append_extractLsb'_eq_extractLsb', BitVec.extractLsb'_eq_self]
    rw [extract_byte_of_stop ho hs, hz] at hw
    exact ⟨decide_eq_true hc, cut _ hw⟩

/-! ### Engine slots: the constructor that opcode and F name is the one whose row holds (R52, R69) -/

theorem encode_of_slot {i : Instr} {op : BitVec 7} {w : Slot} (h : i.slot? = some (op, w)) : encode i = [w.word op] := by
  unfold encode
  split
  · cases h
  · cases h
  · cases h
  · cases h
  · rw [h]

theorem wellFormed_of_slot {i : Instr} {op : BitVec 7} {w : Slot} {lit : Option (BitVec 24)} (h : i.slot? = some (op, w)) :
    i.wellFormed lit = true ↔ i.rowOk lit.isSome = true ∧ slotChecks op w lit = [] := by
  unfold Instr.wellFormed
  split
  · cases h
  · cases h
  · simp only [h, Bool.and_eq_true, List.isEmpty_iff]

/-- A branch of the decoder is taken under the condition of its constructor's row. -/
theorem decodeSlot_sound {lit : Bool} {n : Nat} {w : Slot} {i : Instr} (h : decodeSlot lit n w = some i) :
    i.slot? = some (BitVec.ofNat 7 n, w) ∧ i.rowOk lit = true := by
  unfold decodeSlot at h
  split at h
  all_goals repeat' split at h
  all_goals cases h
  all_goals refine ⟨rfl, ?_⟩
  all_goals simp_all [Instr.rowOk]

theorem not_beq_of_beq {x a b : BitVec 5} (h : (x == a) = true) (hab : a ≠ b) : ¬(x == b) = true :=
  fun hb => hab ((eq_of_beq h).symm.trans (eq_of_beq hb))

theorem not_beq_zero_of_and {x m a : BitVec 5} (h : (x &&& m == a) = true) (ha : a ≠ 0) : ¬(x == 0) = true := by
  intro h0
  have hm : x &&& m = a := eq_of_beq h
  rw [eq_of_beq h0] at hm
  exact ha (hm.symm.trans BitVec.zero_and)

/-- A row that holds is the first of its opcode's rows to hold. -/
theorem decodeSlot_complete {lit : Bool} {op : BitVec 7} {w : Slot} {i : Instr} (hs : i.slot? = some (op, w))
    (hr : i.rowOk lit = true) : decodeSlot lit op.toNat w = some i := by
  cases i with
  | add | sub | and | or | xor | shf | mul | div | mnx | cmp | sel | jmp | bru | next | csrr | csrw | strm | vld | vst | gath
  | amo | mon | mwt | fence | pref | vadd | vsub | vmul | vfma | vmnx | vshf | vcvt | vred | vexp | vrcp | vcmp | vsel | vprm
  | vsca | vqnt | vmps | vmiv | vmpp | viot | vrmx | mmv8 | mmv4 | mmv2 | mmvb | mwld | mwsl | mwup | copy | mcst | get | put
  | job | ksyn | rvwt | give | send | recv | mprb | task | yld | hlth =>
    cases hs
    rfl
  | movi | movx | br | loop | svcCall | halt | ldQe | stQe | preq | qpsh | qpop | vlog | vrsq | vbrd | vmov | mcalW | msmpSet
  | macrV | macwV | macsZ | wptrP | rvin | arv | bmapAlloc | timeNow =>
    cases hs
    exact if_pos hr
  | brNot | loopN | svcTrap | haltFail | preqW | qpshV | qpopV | vsqrt | vbrdImm | mcalInv | msmpRd | macrB | macwP | macsS
  | wptrS | rvinB | arvOne | bmapAllocz | timeUntil =>
    cases hs
    exact (if_neg (not_beq_of_beq hr (by decide))).trans (if_pos hr)
  | svcTret | mcalR | macrP | macsV | wptrT | rvinRd | bmapFree =>
    cases hs
    exact (if_neg (not_beq_of_beq hr (by decide))).trans
      ((if_neg (not_beq_of_beq hr (by decide))).trans (if_pos hr))
  | bmapShare | bmapRd | movxSif | movxUif | movxFsi | movxFui | movxVlane | movxIdx | movxCnt | vmovIns =>
    cases hs
    simp [decodeSlot, eq_of_beq hr]
  | vmovFp =>
    cases hs
    exact (if_neg (not_beq_zero_of_and hr (by decide))).trans (if_pos hr)
  | vmovTp =>
    cases hs
    exact (if_neg (not_beq_zero_of_and hr (by decide))).trans ((if_neg (not_beq_of_beq hr (by decide))).trans (if_pos hr))
  | vmovExp =>
    cases hs
    exact (if_neg (not_beq_zero_of_and hr (by decide))).trans ((if_neg (not_beq_of_beq hr (by decide))).trans
      ((if_neg (not_beq_of_beq hr (by decide))).trans (if_pos hr)))
  | movxSignExtend =>
    cases hs
    have hne := of_decide_eq_true (Bool.and_eq_true_iff.1 hr).2
    exact (if_neg fun h => hne (eq_of_beq h)).trans (if_pos hr)
  | movxZeroExtend =>
    cases hs
    exact (if_neg (not_beq_zero_of_and hr (by decide))).trans ((if_neg fun h =>
      not_beq_of_beq hr (by decide) (Bool.and_eq_true_iff.1 h).1).trans (if_pos hr))
  | strx =>
    cases hs
    exact if_pos (of_decide_eq_true hr)
  | strxOff =>
    cases hs
    exact (if_neg (not_not_intro (eq_of_beq hr))).trans (if_pos hr)
  | ld | st =>
    cases hs
    exact if_neg fun h => of_decide_eq_true hr (eq_of_beq h)
  | vlogP =>
    cases hs
    have hm : ∀ f : BitVec 5, (f &&& 0x10 == 16) = true → ¬(f &&& 0x18 == 0) = true := by decide
    exact (if_neg (hm _ hr)).trans (if_pos hr)
  | moviTop | moviUpper =>
    cases hs
    simp only [Instr.rowOk, Bool.and_eq_true, Bool.not_eq_true'] at hr
    simp [decodeSlot, hr]
  | _ => cases hs

theorem decodeSlot_iff {lit : Bool} {op : BitVec 7} {w : Slot} {i : Instr} :
    decodeSlot lit op.toNat w = some i ↔ i.slot? = some (op, w) ∧ i.rowOk lit = true := by
  refine ⟨fun h => ?_, fun h => decodeSlot_complete h.1 h.2⟩
  simpa only [BitVec.ofNat_toNat, BitVec.setWidth_eq] using decodeSlot_sound h

/-! ### Words -/

/-- A word whose opcode is an engine's decodes to the constructor of its row, unless a check code of its slot refuses it. -/
theorem decode_slot_iff {lit : Option (BitVec 24)} {w : BitVec 32} {i : Instr} (h4 : ¬(w.extractLsb' 24 7).toNat < 4) :
    decode lit w = .ok i ↔ slotChecks (w.extractLsb' 24 7) (Slot.ofWord w) lit = [] ∧
      decodeSlot lit.isSome (w.extractLsb' 24 7).toNat (Slot.ofWord w) = some i := by
  unfold decode
  rw [if_neg h4]
  dsimp only
  split
  next hc =>
    split
    next j hj => simp only [hc, hj, true_and, Option.some.injEq, Except.ok.injEq]
    next hj => simp only [hj, reduceCtorEq, and_false]
  next hc => exact ⟨nofun, fun h => (hc h.1).elim⟩

theorem opAssigned_of_slotChecks {op : BitVec 7} {w : Slot} {lit : Option (BitVec 24)} (h : slotChecks op w lit = []) :
    opAssigned op.toNat = true := by
  unfold slotChecks at h
  split at h
  · cases h
  next ho => simpa using ho

theorem slotChecks_of_unassigned {op : BitVec 7} {w : Slot} {lit : Option (BitVec 24)} (h : opAssigned op.toNat = false) :
    slotChecks op w lit = [1] :=
  if_pos (by rw [h]; rfl)

theorem prefix_of_no_slot {i : Instr} {w : BitVec 32} (hs : i.slot? = none) (he : encode i = [w]) :
    (∃ b, i = .nop b) ∨ (∃ l, i = .lit l) ∨ (∃ p m o, i = .guard p m o) ∨ ∃ c, i = .scope c := by
  unfold encode at he
  split at he
  · exact .inl ⟨_, rfl⟩
  · exact .inr (.inl ⟨_, rfl⟩)
  · exact .inr (.inr (.inl ⟨_, _, _, rfl⟩))
  · exact .inr (.inr (.inr ⟨_, rfl⟩))
  · rw [hs] at he
    cases he

theorem decode_of_prefix {lit : Option (BitVec 24)} {i : Instr} {w : BitVec 32} (hs : i.slot? = none)
    (hw : i.wellFormed lit = true) (he : encode i = [w]) : decode lit w = .ok i := by
  rcases prefix_of_no_slot hs he with ⟨b, rfl⟩ | ⟨l, rfl⟩ | ⟨p, m, o, rfl⟩ | ⟨c, rfl⟩ <;> cases he
  · exact decode_nop lit b
  · exact decode_lit lit l
  · exact decode_guard lit p o (of_decide_eq_true hw)
  · exact decode_scope lit (of_decide_eq_true hw)

theorem decode_of_slot {lit : Option (BitVec 24)} {i : Instr} {op : BitVec 7} {w : Slot} (hs : i.slot? = some (op, w))
    (hw : i.wellFormed lit = true) : decode lit (w.word op) = .ok i := by
  obtain ⟨hr, hc⟩ := (wellFormed_of_slot hs).1 hw
  obtain ⟨hop, hof⟩ := Slot.ofWord_word op w
  have ho := opAssigned_of_slotChecks hc
  simp only [opAssigned, Bool.or_eq_true, Bool.and_eq_true, decide_eq_true_eq] at ho
  rw [decode_slot_iff (by rw [hop]; omega), hop, hof]
  exact ⟨hc, decodeSlot_iff.2 ⟨hs, hr⟩⟩

/-- Settles O41: the prefixes are read back field by field; an engine slot's word holds its opcode and fields, and its row is the one
that the decoder finds. -/
theorem decodeInvertsEncode : Obligations.DecodeInvertsEncode := by
  intro lit i w hw he
  match hs : i.slot? with
  | none => exact decode_of_prefix hs hw he
  | some (op, u) =>
    cases (encode_of_slot hs).symm.trans he
    exact decode_of_slot hs hw

/-- Settles O42: what a word decodes to has that word's opcode and fields, passes its checks, and fits its row. -/
theorem encodeInvertsDecode : Obligations.EncodeInvertsDecode := by
  intro lit i w h
  by_cases h4 : (w.extractLsb' 24 7).toNat < 4
  · exact decodePrefix_sound h4 ((decode_prefix lit rfl h4).symm.trans h)
  · obtain ⟨hc, hd⟩ := (decode_slot_iff h4).1 h
    obtain ⟨hs, hr⟩ := decodeSlot_iff.1 hd
    exact ⟨(wellFormed_of_slot hs).2 ⟨hr, hc⟩, (encode_of_slot hs).trans (by rw [Slot.word_ofWord])⟩

/-- R69: a word of an opcode above the prefixes' that no engine has is refused by K-001. -/
theorem decode_unassigned (lit : Option (BitVec 24)) {w : BitVec 32} (h4 : ¬(w.extractLsb' 24 7).toNat < 4)
    (h : opAssigned (w.extractLsb' 24 7).toNat = false) : decode lit w = .error (.checkCode 1) := by
  unfold decode
  rw [if_neg h4]
  dsimp only
  rw [slotChecks_of_unassigned h]
  rfl

/-- Settles O43: the printed words are decoded one by one; the listed opcodes are not assigned. -/
theorem decodesTheSpecsWords : Obligations.DecodesTheSpecsWords := by
  refine ⟨rfl, rfl, rfl, rfl, rfl, rfl, rfl, rfl, rfl, rfl, fun w hop lit => ?_⟩
  have reserved : ∀ n ∈ [0x04, 0x05, 0x06, 0x07, 0x1E, 0x1F, 0x2F, 0x48, 0x49, 0x4A, 0x4B, 0x4C, 0x4D, 0x4E, 0x4F, 0x5C, 0x5D,
      0x5E, 0x5F, 0x67, 0x74, 0x75, 0x76, 0x77, 0x78, 0x79, 0x7A, 0x7B, 0x7C, 0x7D, 0x7E, 0x7F], ¬n < 4 ∧ opAssigned n = false := by
    decide
  obtain ⟨h4, h⟩ := reserved _ hop
  exact decode_unassigned lit h4 h

end Sys2Proof
end

section
/-! PROOF. The four prefixes (O1, O2): what each notes in its bundle, and a bundle of a lone NOP (R61 to R65). -/

namespace Sys2Proof.Machine

open Statements

theorem State.setSeq_noted (f : Seq → Bundle → Bundle) (s : State) (q : Seq) :
    (noted f s).setSeq s.focus q = s.setSeq s.focus q := by
  unfold noted State.openBundle
  dsimp only
  split <;> simp only [State.setSeq_setSeq]

theorem State.seq_noted (f : Seq → Bundle → Bundle) (s : State) (h0 : s.cur.bundle.pos = 0) (hr : s.cur.bundle.replay = none) :
    (noted f s).seq s.focus =
      let q := { s.cur with bundle := { s.cur.bundle with issued := s.stamp, opened := s.cycle } }
      { q with bundle := { f q q.bundle with pos := 1 } } := by
  unfold State.cur at h0 hr
  simp only [noted, State.openBundle, State.cur, h0, hr, Option.isNone_none, decide_true, Bool.and_self, if_true,
    State.seq_setSeq_same, Nat.zero_add]

/-- R61: the bundle of a lone NOP has no trap, no HALT or SVC and no target, so the next bundle follows one word on. -/
theorem endBundle_loneNop {s : State} (h0 : s.cur.bundle.pos = 0) (hr : s.cur.bundle.replay = none) (ht : s.cur.bundle.trap = none)
    (he : s.cur.bundle.ending = none) (hg : s.cur.bundle.target = none) (hb : s.cur.bundle.boundary = false)
    (hn : s.cur.now = s.cur.before) :
    (noted (fun _ b => { b with lit := none }) s).endBundle s.focus = afterLoneNop s := by
  have hq := State.seq_noted (fun _ b => { b with lit := none }) s h0 hr
  rw [endBundle_untrapped (by rw [hq]; exact ht)]
  simp only [hq, he, State.afterBundle, State.nextBundle, hb, Seq.bundleNext, hg, hn, Option.getD_none, State.setSeq_noted]
  rfl

theorem ofCode_of_mem {c : BitVec 5} {sc : Scope}
    (h : (c.toNat, sc) ∈ [(0, Scope.core), (1, .cluster), (2, .die), (3, .package), (4, .fabric), (5, .system)]) :
    Scope.ofCode c = sc := by
  simp only [List.mem_cons, Prod.mk.injEq, List.not_mem_nil, or_false] at h
  rcases h with ⟨h, rfl⟩ | ⟨h, rfl⟩ | ⟨h, rfl⟩ | ⟨h, rfl⟩ | ⟨h, rfl⟩ | ⟨h, rfl⟩ <;> simp only [Scope.ofCode, h]

end Sys2Proof.Machine

namespace Sys2Proof

open Machine Statements

/-- Settles O1: a NOP notes no literal and takes its place; alone with S = 1 it ends a bundle in which nothing else stands. -/
theorem nopDoesNothing : Obligations.NopDoesNothing := by
  refine fun s => ⟨rfl, rfl, fun h0 hr ht he hg hb hn => ?_⟩
  exact congrArg Host.Outcome.next (endBundle_loneNop h0 hr ht he hg hb hn)

/-- Settles O2: the prefixes each change their own note; GUARD's test of a bit against POL is that they differ. -/
theorem prefixesNoteTheBundle : Obligations.PrefixesNoteTheBundle := by
  refine fun s => ⟨fun _ => rfl, fun p m pol => ?_, fun c sc hc => ?_⟩
  · have differ (b : Bool) : (b == !pol) = decide (b ≠ pol) := by cases b <;> cases pol <;> rfl
    simp only [← differ]
    rfl
  · rw [← ofCode_of_mem hc]
    rfl

end Sys2Proof
end

section
/-! PROOF. The operands of a slot (O47): a reserved code in a scalar position, which K-002 refuses (R54), is read as the held
operand. -/

namespace Sys2Proof.Machine

open Statements

/-- ADD with the reserved code 44 in A and an immediate in B. -/
def readReserved : Slot := { stop := true, n := false, h := false, d := 3, a := 44, b := 0, f := 16 }

/-- Group 0 of core 0 with 1 in x12 and nothing held. -/
def x12Set : State := State.reset.setSeq ⟨0, 0⟩ { before := ({} : Regs).setX 12 1 }

theorem readReserved_reads : ∃ (fm : Form) (o : Operands) (t : State), form 0x08 readReserved false = some fm ∧
    Reads readReserved fm x12Set o t ∧ o.xa = 0 := by
  refine ⟨_, _, _, rfl, rfl, ?_⟩
  decide +kernel

end Sys2Proof.Machine

namespace Sys2Proof

open Machine Statements

/-- Refutes O47: its clause for a scalar A takes the codes that kindAccepts lets pass, the reserved 44 to 46 of R54 among them,
where the model reads the held operand and scalarAt the x register of the code's low five bits; K-002 keeps such a slot out of a
sealed image. -/
theorem not_operandsReadByTheirCodes : ¬ Obligations.OperandsReadByTheirCodes := by
  intro h
  obtain ⟨fm, o, t, hf, hr, hx⟩ := readReserved_reads
  cases hf
  obtain ⟨-, -, -, -, -, -, -, ha, -⟩ := h _ _ _ _ _ hr
  have h1 : o.xa = 1 := (ha rfl rfl (by decide)).trans (by decide +kernel)
  exact absurd (hx.symm.trans h1) (by decide)

end Sys2Proof
end
